-- ==== Sys2Proof/Word.lean ====
section
/-! DEFINITION. The word types of the House and their plainest arithmetic (R10, R34). -/
namespace Sys2Proof

abbrev Byte := BitVec 8
/-- A register word of the management window. -/
abbrev Word := BitVec 32
/-- The 256 data bytes of a line; byte i lies in bits [8i+7:8i] (R34, R245). -/
abbrev LineData := BitVec 2048
/-- One bit for each byte of a line. -/
abbrev ByteMask := BitVec 256
/-- A pool address (R34). -/
abbrev PoolAddr := BitVec 48
/-- A block address: pool address [47:12] (R34). -/
abbrev Block := BitVec 36
/-- An FT stamp in whole nanoseconds (R8). -/
abbrev Stamp := Nat

/-- A 32-bit word holding `n` modulo 2^32. -/
def w32 (n : Nat) : Word := BitVec.ofNat 32 n

/-- Bits [hi:lo] of a number. -/
def bitsOf (n hi lo : Nat) : Nat := (n >>> lo) % 2 ^ (hi + 1 - lo)

/-- 1 for true, 0 for false. -/
def b2n (b : Bool) : Nat := if b then 1 else 0

end Sys2Proof
end

