-- ==== Sys2Proof/Syntax.lean ====
section
/-! DEFINITION. The commands of the House, one constructor for each row of spec/opcode_table.json, and the
data that come with them from outside. The table gives its rows no operand fields, so the operands are the
model's (log entry 6, DESIGN CHOICE): the instance that acts, and what the outside world supplies. -/
namespace Sys2Proof

/-- MetaField and MetaValue of a host request (R139). -/
inductive MetaVal | a | s | i | noOp
deriving DecidableEq, Repr

/-- A host CXL.mem request as it arrives at a link (R332). `hpa` is 64 B aligned; `data` and `be` are the
chunk and its byte enables for a write; `tee` and `rsvd` say that the request carries what check 2 refuses;
`tag` is the host's own tag, returned with the answer. -/
structure HostReq where
  p : Fin 8
  k : Fin 2
  tag : Nat
  hpa : BitVec 52
  meta' : MetaVal
  data : BitVec 512
  be : BitVec 64
  poison : Bool
  tee : Bool
  rsvd : Bool
deriving DecidableEq, Repr

/-- The responses a host may give to a back-invalidate, single or block form (R141). -/
inductive BiRsp | i | s | other
deriving DecidableEq, Repr

/-- SRAM upsets that the arrays of one Room show on one access (R92, R93, R95, R145, R150): ways whose tag entry reads
with one bit in error, or with two; the replacement word's parity; the flipped bit of a way's Screen entry, of which an
upset changes one at most (R137); and the flipped bits of a way's directory entry. -/
structure Upset where
  tagCe : List (Fin 16) := []
  tagUe : List (Fin 16) := []
  plru : Bool := false
  scn : List (Fin 16 × Fin 48) := []
  dir : List (Fin 16 × List (Fin 96)) := []
deriving DecidableEq, Repr

/-- A visit of the walker or of trim to the next set of Room m, and the upsets that its reads of the arrays meet. -/
structure Visit where
  m : Fin 64
  upset : Upset := {}
deriving DecidableEq, Repr

/-- A host's load from a reservation slot: a read of LOAD_LO, or one 64 bits wide of both halves (R199). -/
structure RsvRead where
  slot : Fin 32
  wide : Bool := false
deriving DecidableEq, Repr

/-- The kinds of Thermostat domain, with how many domains each has and the number of its first (R474). -/
inductive DomKind | room | porch | channel | door | stop
deriving DecidableEq, Repr

def DomKind.count : DomKind → Nat
  | .room => 64 | .porch => 8 | .channel => 16 | .door => 8 | .stop => 64

def DomKind.base : DomKind → Nat
  | .room => 0 | .porch => 64 | .channel => 72 | .door => 88 | .stop => 96

/-- The raw symbol errors that one read of a line meets: symbol numbers 0–159 of R246, each with the bits of the symbol
that are flipped. -/
structure ErrPat where
  syms : List (Nat × BitVec 16) := []
deriving DecidableEq, Repr

/-- A Falow message: the fields of the message header and the line it carries (R292). `hbMode` and
`hbIncarn` are word 4 of a HEARTBEAT (R311). -/
structure FMsg where
  dst : BitVec 6
  src : BitVec 6
  hops : BitVec 4
  op : BitVec 8
  eseq : BitVec 16
  tag : BitVec 16
  addr : BitVec 40
  tenant : BitVec 12
  kind : BitVec 2
  mirror : Bool
  poison : Bool
  noinst : Bool
  twin : Bool
  held : Bool
  last : Bool
  grant : BitVec 2
  mask : BitVec 16
  word4hi : BitVec 16
  bmask : ByteMask
  line : LineData
deriving DecidableEq, Repr

/-- A request or snoop of another House as it enters its Room, and the upsets that its lookup there meets. -/
structure FabReq where
  msg : FMsg
  upset : Upset := {}
deriving DecidableEq, Repr

/-- A 128 B frame on a link; byte i lies in bits [8i+7:8i] (R289). -/
abbrev Frame := BitVec 1024

/-- What the Door's FEC reports for the codewords of one frame (R284, R287). -/
structure FecInfo where
  ce : Nat := 0
  ue : Nat := 0
  lane : Option (Fin 8) := none
deriving DecidableEq, Repr

/-- A BEACON as received (R305). -/
structure Beacon where
  id : BitVec 6
  idValid : Bool
  door : BitVec 3
  mode : BitVec 4
  lanes : Nat
  pool : Word
  incarn : BitVec 16
  echoId : BitVec 6
  echoValid : Bool
  echoDoor : BitVec 3
  serial : BitVec 64
  ft : BitVec 64
deriving DecidableEq, Repr

/-- A link frame's ACK and XOFF fields (R290, R300). -/
structure LinkHdr where
  ack : BitVec 10
  xoff : BitVec 5
deriving DecidableEq, Repr

/-- The two management ports. -/
inductive MgPort | a | b
deriving DecidableEq, Repr

/-- How a Door training ended (R288, R307, R395). -/
inductive TrainEnd | full | half | failed
deriving DecidableEq, Repr

/-- What a channel's training found (R242, R278). -/
structure ChTrain where
  pass : Bool
  capGib : Nat
  ranks : BitVec 2
  dens : Bool
  mrdimm : Bool
deriving DecidableEq, Repr

/-- The outcome of CHECK's training, BIST and self-tests (R424–R427). -/
structure SelfTest where
  badRows : List (Fin 64 × Fin 16 × Fin 512) := []
  roomFail : List (Fin 64) := []
  doorFail : List (Fin 8) := []
  porchFail : List (Fin 8) := []
  codeFail : Option (Nat × Fin 16) := none
  crcFail : Option (Nat × Fin 16) := none
  bistFail : Bool := false
  codeChans : List (Fin 16) := []
deriving DecidableEq, Repr

/-- One thermal sample of the 12 sensors in quarters of a °C, and the estimated power (R481, R492). -/
structure TempSample where
  temps : Vector (BitVec 10) 12
  valid : Vector Bool 12
  watts : BitVec 10
deriving DecidableEq, Repr

/-- What the clock monitor saw in one window: references and PLL locks present (R486, R487). -/
structure ClockSample where
  ref100 : Bool
  ref156 : Bool
  xtal : Bool
  coreLock : Bool
  mgLock : Bool
  auxLock : Bool
  porchLock : BitVec 8
  chLock : BitVec 16
  doorLock : BitVec 8
deriving DecidableEq, Repr

/-- What an SPI NOR flash answers to a load: whether it was found, what its SFDP data say (log2 of the capacity in
`sizeCode`), the boot record, and the bytes from the offset of each image copy on, as read in each of the two passes
of R421. -/
structure FlashRead where
  found : Bool
  sfdp : Bool
  readCmd : BitVec 3
  addr4 : Bool
  sizeCode : BitVec 8
  boot : List Byte
  first : List (List Byte)
  second : List (List Byte)
deriving DecidableEq, Repr

/-- A host mailbox command, by its CXL 3.1 opcode and payload (R328). -/
structure MailCmd where
  opcode : BitVec 16
  payload : List Byte
deriving DecidableEq, Repr

/-- A host's request to commit decoder `n` (R329). -/
structure HdmCommit where
  n : Fin 8
  hpaBase : BitVec 52
  size : BitVec 52
  iw : Nat
  ig : Nat
  dpaSkip : BitVec 52
  pos : Nat
deriving DecidableEq, Repr

/-- One fuse action of FUSEPROG (R547). -/
inductive FuseOp
  | serial (v : BitVec 64)
  | keyHash (v : BitVec 384)
  | minVer (v : BitVec 16)
  | grade (b : Bool)
  | step (v : BitVec 8)
  | avs (v : BitVec 5)
  | winDis
  | winDoff
deriving DecidableEq, Repr

/-- The commands: one constructor for each row of the opcode table, in the table's order. -/
inductive Instr
  | memRd (q : HostReq)
  | memRdData (q : HostReq)
  | memWr (q : HostReq)
  | memWrPtl (q : HostReq)
  | memInv (q : HostReq)
  | memClnEvct (q : HostReq)
  | memSpecRd (q : HostReq)
  | biRsp (p : Fin 8) (k : Fin 2) (hpa : BitVec 52) (blk : Bool) (r : BiRsp)
  | biConflict (p : Fin 8) (k : Fin 2) (hpa : BitVec 52)
  | requestInject (p : Fin 8) (sel : Nat)
  | roomEntry (m : Fin 64) (p : Fin 8) (u : Upset)
  | waiterReentry (m : Fin 64) (sel : Nat) (u : Upset)
  | nearCopyReadReturn (m : Fin 64)
  | tagRebuild (m : Fin 64) (errs : Vector ErrPat 16)
  | cellarCommandIssue (c : Fin 16) (sel : Nat)
  | cellarReadDone (c : Fin 16) (sel : Nat) (e : ErrPat)
  | repeatCorrectWrite (c : Fin 16)
  | poisonRewrite (c : Fin 16)
  | wbDrain (m : Fin 64) (sel : Nat)
  | landingDrain (p : Fin 8)
  | landingEntryFree (p : Fin 8)
  | mudroomHomeWrite (m : Fin 64)
  | responseReturn (p : Fin 8) (sel : Nat)
  | fillP (f : FMsg)
  | fillS (f : FabReq)
  | fillO (f : FabReq)
  | upgrade (f : FabReq)
  | rdU (f : FabReq)
  | wrU (f : FabReq)
  | wb (f : FabReq)
  | mirrorWr (f : FMsg)
  | data (f : FMsg)
  | ackO (f : FMsg)
  | wrAck (f : FMsg)
  | invSnp (f : FabReq)
  | recallSnp (f : FabReq)
  | invAck (f : FMsg)
  | recallAck (f : FMsg)
  | invData (f : FMsg)
  | recallData (f : FMsg)
  | heartbeat (f : FMsg)
  | heartbeatSend
  | houseDead (e : Fin 64)
  | frameReceive (d : Fin 8) (f : Frame) (fec : FecInfo)
  | abort (d : Fin 8) (f : Frame)
  | nak (d : Fin 8) (h : LinkHdr) (expected : BitVec 10)
  | idle (d : Fin 8) (h : LinkHdr)
  | beacon (d : Fin 8) (h : LinkHdr) (b : Beacon)
  | beaconDue (d : Fin 8)
  | frameStart (d : Fin 8) (cls : Nat)
  | tReq (d : Fin 8) (xn : BitVec 16)
  | tResp (d : Fin 8) (xn : BitVec 16)
  | tFollow (d : Fin 8) (xn : BitVec 16) (t2 t3 : BitVec 64)
  | timeExchange
  | timeHoldover
  | ackTimeout (d : Fin 8)
  | replayFail (d : Fin 8)
  | seqGap (src : Fin 64) (cls : Nat)
  | laneFail (d : Fin 8) (lane : Fin 8)
  | doorTrainDone (d : Fin 8) (e : TrainEnd)
  | fillTimeout (m : Fin 64) (idx : Nat)
  | snoopTimeout (m : Fin 64) (idx : Nat)
  | invRetry (m : Fin 64) (idx : Nat)
  | snoopLost (m : Fin 64) (idx : Nat)
  | drainTimeout (p : Fin 8)
  | lostWrite (p : Fin 8)
  | reqTimeout (p : Fin 8)
  | hostStall (p : Fin 8) (k : Fin 2)
  | rsvLeaseExpire (m : Fin 64)
  | drainRead (p : Fin 8) (k : Fin 2)
  | syncRead (p : Fin 8) (k : Fin 2)
  | syncMarkerAnswer (m : Fin 64)
  | rsvLoad (p : Fin 8) (k : Fin 2) (slot : RsvRead)
  | rsvStore (p : Fin 8) (k : Fin 2) (slot : Fin 32) (hi : Word)
  | rsvResultRead (p : Fin 8) (k : Fin 2) (slot : Fin 32)
  | hostViewWrite (p : Fin 8) (k : Fin 2) (off : BitVec 20) (val : Word)
  | hdmDecoderCommit (p : Fin 8) (k : Fin 2) (h : HdmCommit)
  | mailboxCommand (p : Fin 8) (k : Fin 2) (c : MailCmd)
  | hostLinkDown (p : Fin 8) (k : Fin 2)
  | perst (p : Fin 8) (k : Fin 2)
  | walkerVisit (v : Visit)
  | trimVisit (v : Visit)
  | scrubRead (c : Fin 16) (rank : Fin 4) (bg : Fin 8) (e : ErrPat)
  | scrubSlow
  | resilverRead (e : ErrPat)
  | sweepRead (m : Fin 64) (way : Fin 16) (line : Fin 16) (e : ErrPat)
  | rebuildWrite (c : Fin 16)
  | fillWrite (c : Fin 16)
  | channelReadTimeout (c : Fin 16)
  | ddrAlert (c : Fin 16)
  | tableSwitch
  | eventDecide
  | fuseSelfFault (area : BitVec 2)
  | startUpStep
  | joinTimeout
  | pantryEntry
  | selftestDone (r : SelfTest)
  | channelTrainDone (c : Fin 16) (t : ChTrain)
  | imageLoadEnd (f : FlashRead)
  | imgTimeout
  | recheckEnd (pass : Bool) (rows : List (Fin 16 × Fin 512))
  | rebuildEnd
  | crcLapEnd
  | commitEnd
  | meterSnapshotAuto
  | meterClose
  | thermalSample (t : TempSample)
  | thermtrip
  | clockMonitorWindow (c : ClockSample)
  | thermostatWake (kind : DomKind) (n : Fin 64)
  | supplyLow (rail : Fin 8)
  | resetN
  | pwrGoodLow
  | pwrGoodRise
  | vauxValid
  | vauxLoss
  | mgLinkDown (g : MgPort)
  | mgPerst (g : MgPort)
  | mgmtWrite (g : MgPort) (addr : BitVec 26) (be : BitVec 4) (val : Word)
  | windowSegmentWrite (g : MgPort) (addr : BitVec 26) (be : BitVec 4) (val : Word)
  | regionEntryWrite (g : MgPort) (addr : BitVec 26) (be : BitVec 4) (val : Word)
  | classEntryWrite (g : MgPort) (addr : BitVec 26) (be : BitVec 4) (val : Word)
  | waydisWrite (g : MgPort) (addr : BitVec 26) (be : BitVec 4) (val : Word)
  | pantryRead (g : MgPort) (x : BitVec 25) (upset : Option Bool)
  | pantryWrite (g : MgPort) (x : BitVec 25) (be : BitVec 4) (val : Word)
  | keyStageWrite (g : MgPort) (tenant : Fin 4096) (word : Fin 15) (val : Word)
  | keyCommit (g : MgPort) (tenant : Fin 4096) (val : Word)
  | modeRequest (g : MgPort) (addr : BitVec 26) (val : Word)
  | unfenceRequest (g : MgPort) (addr : BitVec 26) (val : Word)
  | devReset (g : MgPort) (addr : BitVec 26) (val : Word)
  | imgLoadGo (g : MgPort) (addr : BitVec 26) (val : Word)
  | spiCommand (g : MgPort) (addr : BitVec 26) (val : Word)
  | selftestGo (g : MgPort) (addr : BitVec 26) (val : Word)
  | classDrainGo (g : MgPort) (addr : BitVec 26) (val : Word)
  | flush (g : MgPort) (addr : BitVec 26) (val : Word)
  | resilver (g : MgPort) (addr : BitVec 26) (val : Word)
  | rebuildGo (g : MgPort) (addr : BitVec 26) (val : Word)
  | ttForceGo (g : MgPort) (addr : BitVec 26) (val : Word)
  | msyncGo (g : MgPort) (p : Fin 8)
  | retrain (g : MgPort) (d : Fin 8) (val : Word)
  | fbxInject (g : MgPort) (addr : BitVec 26) (val : Word)
  | recheckGo (g : MgPort) (addr : BitVec 26) (val : Word)
  | rearm (g : MgPort) (addr : BitVec 26) (val : Word)
  | commitGo (g : MgPort) (addr : BitVec 26) (val : Word)
  | latchTake (g : MgPort) (n : Fin 32)
  | latchRelease (g : MgPort) (n : Fin 32) (val : Word)
  | latchClrerr (g : MgPort) (n : Fin 32) (val : Word)
  | latchLeaseExpire (n : Fin 32)
  | meterSnap (g : MgPort)
  | meterAck (g : MgPort) (seq : Word)
  | counterClr (g : MgPort) (m : Fin 64) (k : Fin 8) (val : Word)
  | counterLoad (g : MgPort) (m : Fin 64) (k : Fin 8) (val : Word)
  | pmcFreezeWrite (g : MgPort) (addr : BitVec 26) (val : Word)
  | histogramSnapshot (g : MgPort) (addr : BitVec 26) (val : Word)
  | winLockWrite (g : MgPort) (addr : BitVec 26) (val : Word)
  | thmSelWrite (g : MgPort) (addr : BitVec 26) (val : Word)
  | smbSetPointer (g : MgPort) (addr : BitVec 32) (pec : Option Byte)
  | smbRead (g : MgPort) (pec : Bool)
  | smbWrite (g : MgPort) (addr : BitVec 32) (val : Word) (pec : Option Byte)
  | idcode
  | extest
  | intest
  | clamp
  | fuseprog (op : FuseOp) (vpgm : Bool)
  | hostLinkUp (p : Fin 8) (k : Fin 2) (speed : BitVec 4) (width : BitVec 5) (biEn ide blk : Bool)
  | mgLinkUp (g : MgPort) (speed : BitVec 3)
  | quickRetrainEnd (d : Fin 8) (ok : Bool)
  | spiCommandEnd (rd : List Byte)
  | lchParity (n : Fin 32)
  | tcr2x (c : Fin 16) (hot : Bool)
  | fenceShadowEnd
  | counterWrap (m : Fin 64) (k : Fin 9)
  | supplyRestored (rail : Fin 8)
deriving DecidableEq, Repr

end Sys2Proof
end

