-- ==== Sys2Proof/Config.lean ====
section
/-! DEFINITION. What one part fixes when it is made, and the free values: constants with no body,
so that no statement can rest on a value the spec leaves open (log entries 2, 3, 4, 5, 57, 58, 86 and 114). -/
namespace Sys2Proof.Config
open Sys2Proof

/-- Log entry 2, DESIGN CHOICE. A fresh value for data the spec calls arbitrary: spare tag rows switched in outside
LOAD and CHECK (R94). -/
opaque freeBits : Nat → BitVec 96

/-- Log entry 2, DESIGN CHOICE. What the SRAM BIST leaves in a tag entry (R97): by BIST run and entry key. -/
opaque bistBits : Nat → Nat → BitVec 96

/-- Log entry 57, DESIGN CHOICE. The check bits [95:87] of a tag entry: the spec gives the code's strength, not its matrix (R56, R99). -/
opaque secded : BitVec 87 → BitVec 9

/-- Log entry 86, DESIGN CHOICE. The check bits [95:88] of a directory entry: the spec gives the code's strength, not its
matrix (R149). -/
opaque dirSecded : BitVec 88 → BitVec 8

/-- Log entry 58, DESIGN CHOICE. The word of a Window data group, whose timing the spec gives by pipeline stage (R507). -/
opaque windowData : Nat → BitVec 32

/-- Log entry 3, DESIGN CHOICE. What a line decrypts to under a key or tweak other than the one it was encrypted with
(R254): a function of the two key and tweak pairs and of the data that was written. -/
opaque xtsWrong : Option (BitVec 560) → Option (BitVec 560) → LineData → LineData

/-- Log entry 3, DESIGN CHOICE. AES-256-XTS of R254 under a key and tweak: the bits that DRAM holds for a line's data, and
what other bits decrypt to. -/
opaque xtsCipher : BitVec 560 → LineData → LineData
opaque xtsPlain : BitVec 560 → LineData → LineData

/-- Log entry 114, DESIGN CHOICE. tRCD and tCCD_L in core cycles, which Tymen reserves in the calendar (R241). -/
opaque tRcd : Nat
opaque tCcdL : Nat

/-- Log entry 4, DESIGN CHOICE. AES-256-GCM of R301: the 112 cipher bytes and the first 64 tag bits, from the key, the
nonce, the associated data and the message bytes. -/
opaque gcmSeal : BitVec 256 → BitVec 96 → BitVec 928 → BitVec 896 → BitVec 896 × BitVec 64

/-- Log entry 4, DESIGN CHOICE. The inverse of `gcmSeal`: the plain bytes, from the key, the nonce and the cipher bytes. -/
opaque gcmOpen : BitVec 256 → BitVec 96 → BitVec 896 → BitVec 896

/-- Log entry 5, DESIGN CHOICE. SHA-384 over a byte list (R415, R417). -/
opaque sha384 : List Byte → BitVec 384

/-- Log entry 5, DESIGN CHOICE. ECDSA P-384: public key, digest and signature accepted (R417). -/
opaque ecdsaOk : BitVec 768 → BitVec 384 → BitVec 768 → Bool

end Sys2Proof.Config
end

