-- ==== Sys2Proof/Machine/Map.lean ====
section
/-! DEFINITION. The sparse tables of the House: a list of (key, value) pairs in ONE canonical form, keys
strictly rising and no entry equal to what an unlisted key reads as, so that equal tables are equal lists. -/
namespace Sys2Proof.Machine

/-- A sparse table. -/
abbrev SMap (α : Type) := List (Nat × α)

/-- What key `k` reads as; `d` is what an unlisted key reads as. -/
def mget {α : Type} (d : α) : SMap α → Nat → α
  | [], _ => d
  | (j, v) :: r, k => if j = k then v else mget d r k

/-- Put `v` at key `k` whatever it is, keeping the keys rising. -/
def minsert {α : Type} : SMap α → Nat → α → SMap α
  | [], k, v => [(k, v)]
  | (j, u) :: r, k, v =>
    if k < j then (k, v) :: (j, u) :: r
    else if j = k then (k, v) :: r
    else (j, u) :: minsert r k v

/-- Remove key `k`. -/
def merase {α : Type} : SMap α → Nat → SMap α
  | [], _ => []
  | (j, u) :: r, k => if j = k then r else (j, u) :: merase r k

/-- Write `v` at key `k`; writing what an unlisted key reads as removes the entry. -/
def mset {α : Type} [DecidableEq α] (d : α) (t : SMap α) (k : Nat) (v : α) : SMap α :=
  if v = d then merase t k else minsert t k v

/-- Remove every key in [lo, hi). -/
def mdrop {α : Type} (lo hi : Nat) (t : SMap α) : SMap α :=
  t.filter fun e => decide (e.1 < lo) || decide (hi ≤ e.1)

/-- Every key of the table lies above `k`. -/
def mabove {α : Type} (k : Nat) : SMap α → Bool
  | [] => true
  | (j, _) :: _ => decide (k < j)

/-- The canonical form; `d k` is what an unlisted key `k` reads as. -/
def mwf {α : Type} [DecidableEq α] (d : Nat → α) : SMap α → Bool
  | [] => true
  | (j, v) :: r => mabove j r && decide (v ≠ d j) && mwf d r

end Sys2Proof.Machine
end

