-- ==== Sys2Proof/Machine/State.lean ====
section
/-! DEFINITION. The state of one House as plain data: `Stores` holds the sparse memories and register tables,
`Ctl` everything else, `pending` the commands that wait. -/
namespace Sys2Proof.Machine
open Sys2Proof

/-- The modes of R13. -/
inductive Mode
  | off | aux | load | check | fill | pantry | join | run | degraded | drain | safe | window
deriving DecidableEq, Repr

/-! ## Clock-domain crossings (R33, R488–R490) -/

/-- A dual-clock FIFO. Its pointers count words. Gray-coded, each passes to the other side through a synchroniser of two
stages, the newer value first. -/
structure Xing where
  /-- words of accepted packets that have still to be pushed, and words in the FIFO, oldest first: their end marks -/
  toPush : List Bool := []
  words : List Bool := []
  wr : BitVec 7 := 0
  rd : BitVec 7 := 0
  wrSync : BitVec 7 × BitVec 7 := (0, 0)
  rdSync : BitVec 7 × BitVec 7 := (0, 0)
  /-- the read side's packet counter, and whether it is in the midst of a packet -/
  packets : Nat := 0
  popping : Bool := false
deriving DecidableEq, Repr

/-- The dual-clock FIFOs of R489: of each link (2 × Porch + link), channel, Door and management port (MGA, MGB). -/
structure Xings where
  ingress : Vector Xing 16 := Vector.replicate 16 {}
  egress : Vector Xing 16 := Vector.replicate 16 {}
  celWrite : Vector Xing 16 := Vector.replicate 16 {}
  celRead : Vector Xing 16 := Vector.replicate 16 {}
  doorTx : Vector Xing 8 := Vector.replicate 8 {}
  doorRx : Vector Xing 8 := Vector.replicate 8 {}
  regReq : Vector Xing 2 := Vector.replicate 2 {}
  regRsp : Vector Xing 2 := Vector.replicate 2 {}
deriving DecidableEq, Repr

/-! ## Requests -/

/-- What a request carries from the region table (R43): KIND, MIRROR, STREAM, NEARC, TENANT, CLASS. -/
structure Attr where
  kind : BitVec 2 := 0
  mirror : Bool := false
  stream : Bool := false
  nearc : Bool := false
  tenant : BitVec 12 := 0
  cls : BitVec 6 := 0
deriving DecidableEq, Repr

/-- Host opcodes that are admitted, and the two reservation operations (R332, R198). -/
inductive ROp | memRd | memRdData | memWr | memWrPtl | memInv | memClnEvct | rsvLoad | rsvStore
deriving DecidableEq, Repr

/-- Who waits for the outcome of an item in a Room. `uid` names the Porch's request store entry. -/
inductive Src
  | host (uid : Nat) (p : Fin 8) (k : Fin 2)
  | land (uid : Nat) (p : Fin 8)
  | rsv (uid : Nat) (p : Fin 8) (k : Fin 2) (slot : Fin 32)
  | fab (f : FMsg)
  | house
deriving DecidableEq, Repr

/-- One item as a Room serves it. Write data and mask are placed at their bytes of the 256 B line. -/
structure Item where
  src : Src
  op : ROp
  meta' : MetaVal := .noOp
  pa : PoolAddr
  attr : Attr
  oid : BitVec 20 := 0
  data : LineData := 0
  mask : ByteMask := 0
  poison : Bool := false
  tin : Stamp := 0
  /-- the Screen snoops that R139 or R140 asks for this item have been answered -/
  snooped : Bool := false
  /-- the unknown-copy broadcast of R170 has been answered -/
  bcast : Bool := false
  /-- the condition of the sharer directory (R151), or the ownership of R156, has been met -/
  granted : Bool := false
  /-- it has waited for a write buffer entry (R110), or for Mudroom entries (R128), and has been counted -/
  wbWaited : Bool := false
  mudWaited : Bool := false
deriving DecidableEq, Repr

/-- What a waiter of a Room waits for (R74). -/
inductive Why
  | fill (trk : Nat)
  | grant (trk : Nat)
  /-- the entry at this set and way leaves Evicting -/
  | evict (set way : Nat)
  | pool
  /-- this many Mudroom entries: it waits on its block's tracker (R67) -/
  | mud (need : Nat)
  /-- some way of the set that the mask allows leaves Filling or Evicting -/
  | way (set : Nat) (mask : BitVec 16)
  | wbFull
  /-- the entry of this write has been issued -/
  | wbDrain (seq : Nat)
  | twin (line : BitVec 40)
  /-- another action's coherence tracker ends -/
  | coh (idx : Nat)
  /-- the item's own coherence tracker has all its answers -/
  | own (idx : Nat)
  | cohPool
  /-- an earlier waiter of the same order leaves -/
  | oid
  | rebuild (set : Nat)
  | sweep (set : Nat)
  /-- an INV or RECALL that the block's miss tracker holds has been applied (R71) -/
  | held
  /-- the block's miss tracker has no line pending (R71) -/
  | settle
  /-- the parity sweep of this Screen set ends (R145) -/
  | scnSet (set : Nat)
  /-- the item's own tracker `idx` has its answers, and a way for its directory entry is being freed by tracker `ev`,
  or none could be taken for it (R171) -/
  | ownWay (idx : Nat) (ev : Option Nat)
  | ready
deriving DecidableEq, Repr

/-- A waiter: the item, why it waits, and, for a read whose data has already come, its data and poison. -/
structure Waiter where
  item : Item
  why : Why
  ans : Option (LineData × Bool) := none
deriving DecidableEq, Repr

/-- What a tracker knows of the ownership grant of its block (R156). -/
inductive Grant | none | asked | held
deriving DecidableEq, Repr

/-- A recovery read of one line in flight (R261): the House asked, when it times out (R77), the write buffer entry that
waits for the line, and whether the line is a near copy's (R263). -/
structure TwinRead where
  line : Fin 16
  dst : BitVec 6
  by' : Nat
  rmw : Option Nat := none
  nearFix : Bool := false
deriving DecidableEq, Repr

/-- A miss tracker (R73). -/
structure Trk where
  idx : Nat
  blk : Block
  attr : Attr
  /-- lines whose fill is in flight, each with the FT-independent time by which it must arrive (R77) -/
  pend : List (Fin 16 × Nat) := []
  /-- pending lines that the House will not install (R158, R160) -/
  noinst : BitVec 16 := 0
  grant : Grant := .none
  grantBy : Nat := 0
  /-- the tag entry being filled, when the block is installed -/
  place : Option (Nat × Nat) := none
  /-- the victim's dirty lines are still being read (R66 step 3) -/
  evicting : Bool := false
  /-- lines of the new block whose write was accepted while the victim was Evicting, and those covered whole -/
  newDirty : BitVec 16 := 0
  newValid : BitVec 16 := 0
  newPoison : Bool := false
  /-- INV and RECALL held by the tracker (R71) -/
  held : List FMsg := []
  /-- recovery reads of lines of the block in flight (R261) -/
  twins : List TwinRead := []
  /-- pending lines that RD_U has asked for: the home does not list the House for them (R158) -/
  rdu : BitVec 16 := 0
  /-- lines that an UPGRADE asked for and has not been answered for -/
  upg : BitVec 16 := 0
  /-- RM_FILL_TIMEOUT.US when the tracker was allocated -/
  us : Nat := 50
deriving DecidableEq, Repr

/-- States of a write buffer entry that is in use (R102). -/
inductive WbSt | open' | held | issued
deriving DecidableEq, Repr

/-- A write buffer entry (R102): what has still to happen before it frees is in its flags (R105). -/
structure WbEnt where
  idx : Nat
  line : BitVec 40
  attr : Attr
  oid : BitVec 20 := 0
  data : LineData := 0
  mask : ByteMask := 0
  /-- the poison mark of the whole line, and the bytes written since it was set (R108, R109) -/
  poison : Bool := false
  after : ByteMask := 0
  st : WbSt := .open'
  lastCc : Nat := 0
  seq : Nat := 0
  tin : Stamp := 0
  /-- a Cellar write has still to be taken -/
  needCel : Bool := false
  /-- the home's acknowledgement of a forward is awaited -/
  needAck : Bool := false
  /-- a copy is on its way to the twin and not yet acknowledged (R112) -/
  needTwin : Bool := false
  /-- a copy has still to be sent to the twin (R166) -/
  twinLater : Bool := false
  /-- the Cellar write goes to the home frame, or to the twin's copy of it (R112) -/
  home : Bool := false
  /-- the entry forwards to a home it does not near-cache (R24), or to the home alone (R126) -/
  fwd : Bool := false
  /-- the entry writes through a near copy: its whole line goes home as WB, any other forward as WR_U (R158, R161) -/
  thru : Bool := false
  /-- the drain goes to the near copy alone and its line into the answer of a coherence tracker (R159) -/
  take : Option Nat := none
  /-- who is told when the entry's writes are acknowledged -/
  srcs : List Src := []
  /-- whose requests retire when the drain has been issued (R223) -/
  owners : List Src := []
  /-- Porches whose data the entry holds (R189) -/
  porches : List (Fin 8) := []
  /-- the drain must happen at once (R106, R107) -/
  force : Bool := false
  /-- a line that RESILVER copies to the twin (R165) -/
  resil : Bool := false
  /-- the core cycle in which the entry was allocated (R131) -/
  born : Nat := 0
deriving DecidableEq, Repr

/-- The two kinds and three states of a Mudroom entry (R121). -/
inductive MudKind | evict | copy
deriving DecidableEq, Repr
inductive MudSt | loading | ready | writing
deriving DecidableEq, Repr

structure MudEnt where
  idx : Nat
  line : BitVec 40
  attr : Attr
  data : LineData := 0
  wmask : ByteMask := 0
  poison : Bool := false
  again : Bool := false
  kind : MudKind := .evict
  st : MudSt := .loading
  readyCc : Nat := 0
  seq : Nat := 0
  set : Nat
  way : Nat
  tin : Stamp := 0
  /-- whose requests retire when the home write has been issued (R223) -/
  owners : List Src := []
  /-- the core cycle in which the entry was allocated (R131) -/
  born : Nat := 0
deriving DecidableEq, Repr

/-- A back-invalidate kind (R139). -/
inductive Snp | inv | data | cur
deriving DecidableEq, Repr

/-- One BISnp message sent and not yet answered: the link, the host address, the lines it covers (R141). -/
structure BiSnp where
  p : Fin 8
  k : Fin 2
  hpa : BitVec 52
  blk : Bool
  kind : Snp
  /-- pool address [47:8] of the first line, and how many lines -/
  line : BitVec 40
  n : Nat
  sentAt : Nat
  by' : Nat
  /-- a time-out poisons the lines (R146) -/
  excl : Bool
deriving DecidableEq, Repr

/-- One INV or RECALL sent to another House and not yet answered (R155). -/
structure InvOut where
  house : BitVec 6
  sentAt : Nat
  retryBy : Nat
  lostBy : Nat
  retried : Bool := false
  owner : Bool := false
deriving DecidableEq, Repr

/-- What a coherence tracker does when everything it waits for has been answered (R147). -/
inductive CohJob
  /-- the waiting item may pass the Screen (R139, R140) -/
  | screen
  /-- the broadcast for an adopted granule with no Screen entry has been answered (R170) -/
  | bcast
  /-- free one Screen entry (R144, R145): the set and way -/
  | freeScn (set way : Nat)
  /-- a home transaction: the directory state when it ends, `kn` Known in place of Free (R151, R171) -/
  | home (blk : Block) (rcl : Bool) (free : Bool)
  /-- an unknown-sharer broadcast (R171) -/
  | unknown (blk : Block) (rcl : Bool)
  /-- an INV or RECALL of another home is being answered (R159) -/
  | answer (f : FMsg)
deriving DecidableEq, Repr

/-- A coherence tracker (R147). -/
structure Coh where
  idx : Nat
  blk : Block
  /-- the granule within the block, or none for the whole block -/
  gran : Option (BitVec 2) := none
  job : CohJob
  snps : List BiSnp := []
  invs : List InvOut := []
  /-- Houses that answered held = 1 (R151, R171) -/
  heldBy : BitVec 64 := 0
  /-- granules whose Screen entries are freed when the tracker ends -/
  frees : List (BitVec 38) := []
  /-- near-copy reads that the answer still waits for, and lines already gathered for it -/
  reads : List (Fin 16) := []
  lines : List (Fin 16 × LineData × Bool) := []
  /-- written bytes of a gathered line that is not whole (log entry 40, DEDUCED) -/
  parts : List (Fin 16 × ByteMask) := []
  /-- a parity sweep: requests to this Screen set wait for it (R145) -/
  scnSet : Option Nat := none
  /-- granules whose back-invalidates have still to go out: a miss tracker of their block holds them (R71) -/
  parked : List (BitVec 38) := []
  /-- EXCL of the Screen entry under a parity sweep, as it was read (R145, R146) -/
  excl : Bool := false
  /-- the local work of R159 steps 3 and 4 has begun -/
  gathered : Bool := false
deriving DecidableEq, Repr

/-- An entry of a Room's reservation table (R200). The granule is [lo, lo + 2^(8+g)). -/
structure Rsv where
  p : Fin 8
  k : Fin 2
  slot : Fin 32
  pa : PoolAddr
  g : Nat
  endsAt : Nat
deriving DecidableEq, Repr

/-- Walker jobs (R83). `left` counts the visits that remain. -/
inductive JobKind
  | wayDis (w : Fin 16)
  | retire (set way : Nat)
  | refugeRelease
  | classDrain (c : BitVec 6)
  | staleSweep
  | flush (region : BitVec 18)
  | handback
  | purge (e : BitVec 6)
  | rejoin
deriving DecidableEq, Repr
structure Job where
  kind : JobKind
  left : Nat
  /-- the set that the job visits first -/
  start : Nat := 0
deriving DecidableEq, Repr

/-- A home line that RESILVER has read, on its way to its Room or in it, before its pass through the pipeline (R165). -/
structure Resil where
  line : BitVec 40
  attr : Attr
  data : LineData
  poison : Bool
  here : Bool := false
deriving DecidableEq, Repr

/-- What a channel returns to a Room (code 0x53 of R211): a near copy for a Mudroom entry, the merged line of a
read-modify-write of a write buffer entry, or a line of the answer to an INV or RECALL; and a line that RESILVER has
read. -/
inductive CelRet
  | mud (idx : Nat) (data : LineData) (poison : Bool)
  | rmw (wb : Nat) (data : LineData) (poison : Bool)
  | answer (coh : Nat) (l : Fin 16) (data : LineData) (poison : Bool)
  | resil (line : BitVec 40)
deriving DecidableEq, Repr

/-- The metadata fields that a write supplies (R247, R253). -/
structure Meta where
  tagSh : BitVec 16 := 0
  tenant : BitVec 12 := 0
  dirty : Bool := false
  poison : Bool := false
  state : BitVec 2 := 0
  epoch : BitVec 8 := 0
  way : BitVec 4 := 0
  lcode : BitVec 2 := 1
deriving DecidableEq, Repr

/-- What a read of the Cellar is for. -/
inductive Purpose
  | item (m : Fin 64) (it : Item) (home : Bool)
  | mud (m : Fin 64) (idx : Nat)
  | rmw (m : Fin 64) (wb : Nat)
  | answer (m : Fin 64) (coh : Nat) (l : Fin 16)
deriving DecidableEq, Repr

/-- A line in DRAM: its plaintext, the key slot and tweak it was encrypted under (none for tenant 0 and for the
Unwritten pattern), and its metadata (R247, R254). -/
structure Line where
  data : LineData := 0
  crypt : Option (BitVec 560) := none
  md : Meta := {}
deriving DecidableEq, Repr

/-- A command in a channel's queue (R244). -/
structure CelCmd where
  m : Fin 64
  idx : Nat
  write : Bool
  pa : PoolAddr
  tenant : BitVec 12
  /-- the shadow that a near read must find (R252 step 5) -/
  near : Option Meta := none
  data : LineData := 0
  mask : ByteMask := 0
  md : Meta := {}
  purpose : Option Purpose := none
  /-- the write buffer entry whose Cellar write this is -/
  wb : Option Nat := none
  /-- the tenant that the command is charged to -/
  charge : BitVec 12 := 0
  tin : Stamp := 0
  issuedAt : Nat := 0
  /-- a read's line, as it stood when the command issued -/
  got : Option Line := none
deriving DecidableEq, Repr

/-- A near-copy write, or a release write, toward a channel (code 0x57), with the slot it goes to: it stays in the
Room while the slot's previous dirty line has a Mudroom entry (R271). -/
structure NearWr where
  set : Nat
  way : Nat
  line : Fin 16
  release : Bool := false
  blk : Block := 0
  data : LineData := 0
  md : Meta := {}
  tenant : BitVec 12 := 0
  tin : Stamp := 0
  /-- the write buffer entry whose drain this is -/
  wb : Option Nat := none
deriving DecidableEq, Repr

/-- A transfer of a Room toward a channel (code 0x57 of R211): a near-copy write, whose place is settled when it
leaves, or a command. -/
inductive ChanOut
  | near (w : NearWr)
  | cmd (c : Fin 16) (x : CelCmd)
deriving DecidableEq, Repr

/-- An uncorrectable tag entry under rebuild (R93): its set and way. -/
structure TagRebuild where
  set : Nat
  way : Nat
deriving DecidableEq, Repr

/-- A recovery sweep that this Room runs for the fenced Room it covers (R274). -/
structure Sweep where
  lost : Fin 64
  /-- sets still to be rebuilt, in the order in which they will be visited -/
  front : List Nat := []
  next : Nat := 0
  /-- slots of the current set not yet read -/
  slots : List (Nat × Nat) := []
  cur : Option Nat := none
  done : List Nat := []
  left : Nat := 32768
deriving DecidableEq, Repr

/-- A SYNC marker on its way to a Room or in it (R189): the barrier, the Porch, how many of the Porch's earlier
transfers to the Room it travels behind, and, once it has arrived, the write buffer entries it waits on. -/
structure Marker where
  bar : Nat
  p : Fin 8
  behind : Nat
  waits : Option (List Nat) := none
deriving DecidableEq, Repr

/-- A fabric request whose DATA go out line by line, the missing line first (R68): GRANT, and the lines in that order,
each with its data, its poison and the injection calendar of the stop that has them. `posted` says that the
DATA of the first line waits for its slot. -/
structure FabOut where
  f : FMsg
  grant : BitVec 2
  tin : Stamp
  lines : List (Fin 16 × Option (LineData × Bool × Nat))
  posted : Bool := false
deriving DecidableEq, Repr

/-- A poisoned dirty near line that waits for its COPY entry, because no Mudroom entry is free (R261, R263). -/
structure CopyWait where
  blk : Block
  set : Nat
  way : Nat
  line : Fin 16
  data : LineData
deriving DecidableEq, Repr

/-- A Screen entry with bad parity whose sweep has not begun (R145): its set and way, and GRAN and EXCL as read. -/
structure ScnBad where
  set : Nat
  way : Nat
  gran : BitVec 38
  excl : Bool
deriving DecidableEq, Repr

/-- A queue of 64 B words toward the Hallway (R132): lines that have still to be pushed, by transfer, with the words that
remain; the words, each with its transfer and end mark; and the packet counter. -/
structure WordQ where
  lines : List (Nat × Nat) := []
  words : List (Nat × Bool) := []
  packets : Nat := 0
deriving DecidableEq, Repr

structure Room where
  closed : Bool := false
  trks : List Trk := []
  waiters : List Waiter := []
  wbuf : List WbEnt := []
  mud : List MudEnt := []
  cohs : List Coh := []
  rsvs : List Rsv := []
  scnPtr : Nat := 0
  dirPtr : Nat := 0
  walkSet : Nat := 0
  jobs : List Job := []
  trimSet : Nat := 0
  trimWork : Bool := false
  trimClean : Nat := 0
  returns : List CelRet := []
  /-- lines of a RESILVER that a write has not overtaken (R166) -/
  resils : List Resil := []
  /-- transfers toward the channels, in order -/
  outC : List ChanOut := []
  /-- how many write buffer and Mudroom entries have become Free in a core cycle, and which (R131) -/
  wbFreed : Nat × Nat := (0, 0)
  mudFreed : Nat × Nat := (0, 0)
  rebuilds : List TagRebuild := []
  fabOut : List FabOut := []
  /-- INV and RECALL that a miss tracker has let go and that wait for a coherence tracker (R71, R147) -/
  snoopQ : List FMsg := []
  copyWait : List CopyWait := []
  scnBad : List ScnBad := []
  sweep : Option Sweep := none
  /-- SYNC markers not yet answered (R189) -/
  markers : List Marker := []
  /-- way NEAR_WAYS − 1 is the refuge, and its walker job has visited every set (R269) -/
  refuge : Bool := false
  refugeWalk : Bool := false
  /-- the refuge must take no new line (R270 step 3) -/
  refugeShut : Bool := false
  /-- the Mudroom home-write queue (R132) -/
  homeQ : WordQ := {}
  seq : Nat := 0
deriving DecidableEq, Repr

/-! ## Porches -/

/-- An HDM decoder of a link (R329). -/
structure Dec where
  committed : Bool := false
  err : Bool := false
  hpaBase : BitVec 52 := 0
  size : BitVec 52 := 0
  iw : Nat := 1
  ig : Nat := 256
  dpaSkip : BitVec 52 := 0
  dpaBase : BitVec 52 := 0
  pos : Nat := 0
deriving DecidableEq, Repr

/-- The four CXL event logs (R328). -/
inductive EvLog | info | warn | fail | fatal
deriving DecidableEq, Repr
inductive EvRec | media | dram | module
deriving DecidableEq, Repr
structure HostEvent where
  log : EvLog
  rec' : EvRec
  hpa : Option (BitVec 52)
  ft : Stamp
deriving DecidableEq, Repr

/-- What a host link sends back (R332, R333, R339), and what the host view returns. -/
inductive HostMsg
  | drs (p : Fin 8) (k : Fin 2) (tag : Nat) (data : BitVec 512) (poison : Bool)
  | ndr (p : Fin 8) (k : Fin 2) (tag : Nat)
  | biSnp (p : Fin 8) (k : Fin 2) (kind : Snp) (hpa : BitVec 52) (blk : Bool)
  | biConflictAck (p : Fin 8) (k : Fin 2) (hpa : BitVec 52)
  | view (p : Fin 8) (k : Fin 2) (off : Nat) (val : Word)
  | viewPoison (p : Fin 8) (k : Fin 2) (off : Nat)
  | mailbox (p : Fin 8) (k : Fin 2) (opcode : BitVec 16) (ok : Bool) (recs : List HostEvent) (bytes : List Byte)
  | msix (p : Fin 8) (k : Fin 2) (vec : Nat)
deriving DecidableEq, Repr

/-- The answer that an admitted request has, while it waits for its response-return slot. -/
inductive Ans
  | data (d : BitVec 512) (poison : Bool)
  | done
deriving DecidableEq, Repr

/-- Where an admitted request is. -/
inductive Stage | waiting | injected | atPorch
deriving DecidableEq, Repr

/-- An entry of the request store (R340). -/
structure Ent where
  uid : Nat
  k : Fin 2
  tag : Nat
  hpa : BitVec 52
  item : Item
  room : Fin 64
  stage : Stage := .waiting
  ans : Option Ans := none
  /-- the response has left, or has been discarded -/
  sent : Bool := false
  /-- the Room has retired the request (R223) -/
  retired : Bool := false
  admitAt : Nat
  answeredAt : Nat := 0
  /-- PCHp_REQ_TIMEOUT.US and PCHp_CRED_STALL.US when the request was admitted (R343, R349) -/
  limitUs : Nat := 0
  stallUs : Nat := 0
  stalled : Bool := false
  /-- the request is issued again after a fence, and is not yet in the covering Room (R225) -/
  reissue : Bool := false
  /-- counted in PCHp_ORD_HOLD (R180) -/
  held : Bool := false
  /-- it counts in the histogram (R502) -/
  hist : Bool := false
  /-- PCHp_HIST_CFG when the request was admitted (R513) -/
  histCfg : Nat := 0
  /-- its link has gone down since: the response is discarded (R345) -/
  gone : Bool := false
  /-- it waits at the Porch while its line, or its granule, has a Landing entry (R115, R119, R200, R202) -/
  landWait : Bool := false
  /-- the Landing entry that holds its write -/
  land : Option Nat := none
  /-- when the request last made its pass through the Room's pipeline (R143) -/
  passAt : Option Nat := none
deriving DecidableEq, Repr

/-- A request that waits in a link's Req or RwD buffer with its credit: held in SAFE or DRAIN, or, when it has
passed its checks, for a Landing entry, a store entry, or one of its identifier (R334, R340, R341, R434). -/
structure Buffered where
  q : HostReq
  op : ROp
  chk : Option (PoolAddr × Attr) := none
  /-- it has found no Landing entry, and has been counted (R120) -/
  waited : Bool := false
deriving DecidableEq, Repr

/-- A BIRsp that waits for earlier RwD of its link to be injected (R142). -/
structure BiWait where
  hpa : BitVec 52
  blk : Bool
  rsp : BiRsp
  uids : List Nat
deriving DecidableEq, Repr

/-- A response of a request that was refused or never admitted (R333). -/
structure Refused where
  k : Fin 2
  tag : Nat
  read : Bool
  poison : Bool
deriving DecidableEq, Repr

/-- A Landing entry in use (R114). -/
structure Land where
  seq : Nat
  line : BitVec 40
  attr : Attr
  oid : BitVec 20
  data : LineData := 0
  mask : ByteMask := 0
  poison : Bool := false
  openedCc : Nat := 0
  draining : Bool := false
  force : Bool := false
  room : Fin 64
  tin : Stamp := 0
  /-- the place in the Porch's admission order of the write that opened the entry -/
  place : Nat := 0
  /-- links whose completed writes the entry holds -/
  links : List (Fin 2) := []
  /-- the Room has discarded the entry's forward: its home is dead (R129, R192) -/
  orphan : Bool := false
deriving DecidableEq, Repr

/-- A Landing drain that has been sent to its Room: it stays until its entry is Free and the Room has retired it
(R117, R177, R223). -/
structure LandSent where
  seq : Nat
  /-- its place in the Porch's admission order -/
  place : Nat
  room : Fin 64
  item : Item
  stage : Stage := .injected
  reissue : Bool := false
  retired : Bool := false
  /-- its Landing entry is Free -/
  done : Bool := false
deriving DecidableEq, Repr

/-- A DRAIN or SYNC in progress (R187, R189); `msync` is the management sync of R197. -/
inductive BarKind | drain | sync | msync
deriving DecidableEq, Repr
structure Bar where
  id : Nat
  k : Fin 2
  kind : BarKind
  lands : List Nat := []
  uids : List Nat := []
  markers : BitVec 64 := 0
  startAt : Nat
  by' : Nat
  err : Bool := false
  late : Bool := false
  twin : Bool := false
  ended : Bool := false
  /-- write buffer entries, by Room and number, that covered writes have gone to, while they wait for a twin or for the
  home of a Mirror region (R189) -/
  risks : List (Fin 64 × Nat) := []
  /-- when everything else that the barrier waits for had ended: Fuse box events up to then are still to be recorded
  (R189) -/
  metAt : Option Nat := none
deriving DecidableEq, Repr

/-- A slot of the reservation window (R199). -/
structure RsvSlot where
  addrLo : Word := 0
  addrHi : Word := 0
  loadLo : Word := 0
  loadHi : Word := 0
  storeLo : Word := 0
  storeHi : Word := 0
  result : BitVec 2 := 0
  /-- conditional stores of the slot in progress -/
  stores : Nat := 0
  /-- reads of LOAD_LO and RESULT that wait for their completion -/
  loadWait : Bool := false
  /-- the read of LOAD_LO that waits is 64 bits wide: LOAD_HI follows (R199) -/
  wide : Bool := false
  resultWait : Nat := 0
deriving DecidableEq, Repr

structure Link where
  up : Bool := false
  speed : BitVec 4 := 0
  width : BitVec 5 := 0
  biEn : Bool := false
  biBlk : Bool := false
  ide : Bool := false
  decs : Vector Dec 8 := Vector.replicate 8 {}
  buf : List Buffered := []
  bi : List BiWait := []
  /-- BIConflictAck that follow the response of a request (R143): host address and the request -/
  conf : List (BitVec 52 × Nat) := []
  rsv : Vector RsvSlot 32 := Vector.replicate 32 {}
  logs : List HostEvent := []
  overflow : List EvLog := []
  devFatal : Bool := false
  /-- ms stamp of the last event record of each check (R333) -/
  chkLast : Vector (Option Nat) 6 := Vector.replicate 6 none
  evPolicy : List Byte := []
  timestamp : List Byte := []
  hvFtHi : Word := 0
  credits : Nat × Nat × Nat := (0, 0, 0)
  cdat : List Byte := []
deriving DecidableEq, Repr

structure Porch where
  opened : Bool := false
  links : Vector Link 2 := Vector.replicate 2 {}
  store : List Ent := []
  refused : List Refused := []
  lands : List Land := []
  lndAcks : List Nat := []
  /-- Landing drains that have been sent -/
  landSent : List LandSent := []
  bars : List Bar := []
  nextUid : Nat := 0
  nextSeq : Nat := 0
  nextBar : Nat := 0
  histBank : Bool := false
  /-- requests counted in this cc, each with its bin and its IRQ; they reach the live bank with the next cc (R504) -/
  histNow : List (Nat × Bool) := []
  /-- keys of the bins that wrapped in this cc -/
  histWrap : List Nat := []
  msyncDone : Bool := false
  /-- how many Landing entries have become Free in a core cycle, and which (R131) -/
  lndFreed : Nat × Nat := (0, 0)
  /-- the Landing drain queue (R132) -/
  drainQ : WordQ := {}
deriving DecidableEq, Repr

/-! ## Channels -/

/-- States of a repeat-corrector entry (R255). -/
inductive CamSt | counting | pending | rewritten
deriving DecidableEq, Repr
structure CamEnt where
  line : Nat
  count : Nat
  st : CamSt := .counting
  seq : Nat := 0
deriving DecidableEq, Repr

structure Chan where
  trained : Bool := false
  /-- its training has ended without passing (R427) -/
  trainFail : Bool := false
  lost : Bool := false
  ready : Bool := false
  tcr2x : Bool := false
  ranks : BitVec 2 := 0
  dens : Bool := false
  mrdimm : Bool := false
  capGib : Nat := 0
  queue : List CelCmd := []
  flight : List CelCmd := []
  cam : List CamEnt := []
  camSeq : Nat := 0
  /-- remapped line indices by entry number (R257); the lines themselves are in `Stores.remap` -/
  remap : Vector (Option Nat) 8 := Vector.replicate 8 none
  /-- lines that wait for their poison rewrite (R261) -/
  poisonQ : List Nat := []
  /-- scrub pointers by rank and bank group (R262) -/
  scrub : Vector Nat 32 := Vector.replicate 32 0
  scrubDone : BitVec 32 := 0
  /-- home lines, or twin copies, that a recovery read is to rewrite (R261, R263) -/
  twinQ : List Nat := []
  fillPtr : Nat := 0
  rebuildPtr : Nat := 0
  lostRegions : List (BitVec 18) := []
deriving DecidableEq, Repr

/-! ## Doors and the fabric -/

/-- A frame that a Door has still to send, or keeps for replay (R296). -/
structure TxFrame where
  cls : Nat
  pos : BitVec 2
  abort : Bool := false
  bytes : BitVec 896
  /-- with the last frame of a message, the message, for a resend on another route (R319) -/
  msg : Option FMsg := none
  /-- the Door by which a transit frame came in -/
  via : Option Nat := none
deriving DecidableEq, Repr
structure Kept where
  seq : BitVec 10
  f : TxFrame
  wire : Frame
  acked : Bool := false
deriving DecidableEq, Repr

/-- A message being received on one class of a link (R295). -/
structure Part where
  cls : Nat
  pieces : List (BitVec 896) := []
  /-- forwarding a transit message: the egress Door -/
  transit : Option (Fin 8) := none
  /-- the rest of the message is discarded (HOPS reached 0, or no route) -/
  dropIt : Bool := false
deriving DecidableEq, Repr

structure Door where
  up : Bool := false
  trained : Bool := false
  half : Bool := false
  lset : Bool := false
  laneBad : BitVec 8 := 0
  rxKid : Bool := false
  farId : BitVec 6 := 0
  farDoor : BitVec 3 := 0
  farV : Bool := false
  mismatch : Bool := false
  /-- DOOR_FAIL has been reported since the last full training (R307) -/
  failed : Bool := false
  training : Bool := false
  quick : Bool := false
  /-- the quick retrain under way moves the link to half width (R287) -/
  degrade : Bool := false
  txq : List TxFrame := []
  /-- classes whose message is half sent, and the Door its frames come from -/
  midTx : List (Nat × Option Nat) := []
  kept : List Kept := []
  nextSeq : BitVec 10 := 0
  /-- frames of `kept` that still have to be sent again (R298) -/
  replay : List (BitVec 10) := []
  replayAt : Nat := 0
  replaying : Bool := false
  fails : Nat := 0
  markAt : Nat := 0
  expSeq : BitVec 10 := 0
  lastAcc : BitVec 10 := 0
  nakDue : Bool := false
  nakAt : Option Nat := none
  /-- XOFF bits of the partner's latest frame -/
  txXoff : BitVec 5 := 0
  /-- classes held back by a full reorder store (R310) -/
  reorderXoff : BitVec 5 := 0
  parts : List Part := []
  /-- sequenced frames sent first, and accepted, since each key slot was installed (R301) -/
  txCnt : Vector Nat 2 := Vector.replicate 2 0
  rxCnt : Vector Nat 2 := Vector.replicate 2 0
  linkCnt : Nat := 0
  beaconAt : Nat := 0
  beaconNow : Bool := false
  /-- the core cycle from which the next frame may start (R286) -/
  freeCc : Nat := 0
  /-- time exchanges of the neighbour in progress: number, t2 (R315) -/
  asked : List (BitVec 16 × BitVec 64) := []
deriving DecidableEq, Repr

/-- A message held for end-to-end order (R310). -/
structure Held where
  src : BitVec 6
  cls : Nat
  since : Nat
  msg : FMsg
  /-- the Door that delivered it -/
  door : Nat
deriving DecidableEq, Repr

/-- Per-House routing facts (R308–R311). -/
structure Peer where
  live : Bool := false
  dead : Bool := false
  incarn : BitVec 16 := 0
  lastHb : Nat := 0
  deadAt : Nat := 0
  txEseq : Vector (BitVec 16) 3 := Vector.replicate 3 0
  rxEseq : Vector (BitVec 16) 3 := Vector.replicate 3 0
deriving DecidableEq, Repr

structure Fabric where
  peers : Vector Peer 64 := Vector.replicate 64 {}
  /-- messages that wait at their source for a route (R308) or for a seam boundary (R319) -/
  waiting : List (FMsg × Stamp) := []
  held : List Held := []
  /-- delivered messages not yet served, with the FT of their delivery (R360) and the Door -/
  inbox : List (FMsg × Stamp × Nat) := []
  /-- fabric requests delivered to a Room and not yet retired by it (R223) -/
  kept : List (FMsg × Stamp × Nat) := []
  routed : Bool := false
  incarn : BitVec 16 := 0
  hbAt : Nat := 0
deriving DecidableEq, Repr

structure Time where
  locked : Bool := false
  holdover : Bool := false
  offset : Int := 0
  delay : Nat := 0
  rate : Int := 0
  goodRun : Nat := 0
  lastXn : Nat := 0
  xn : BitVec 16 := 0
  t1 : Option Int := none
  t4 : Option Int := none
  /-- FT stands still until this many of its units have passed (R316) -/
  holdUnits : Nat := 0
  nextXn : Nat := 0
deriving DecidableEq, Repr

/-! ## Fuse box -/

/-- A unit of R402: Room m = m, channel c = 64 + c, Door d = 80 + d, Porch p = 88 + p; 128 + e is House e. -/
abbrev UnitNo := Nat

/-- An event as a block reports it (R373). -/
structure Event where
  code : Nat
  src : Nat
  sub : Nat := 0
  key : Nat := 0
  cause : Nat := 0
  mKind : Nat := 0
  mId : Nat := 0
  access : Nat := 0
  addr : Option PoolAddr := none
  path : List UnitNo := []
  inj : Bool := false
  stamp : Stamp := 0
  /-- the time of detection, which tells the events of one cc (R381): the model's own field -/
  det : Nat := 0
deriving DecidableEq, Repr

/-- A counting entry (R377). -/
structure CntEnt where
  code : Nat
  src : Nat
  sub : Nat
  key : Nat
  start : Stamp
  count : Nat
  seq : Nat
deriving DecidableEq, Repr

/-- A record of the event log (R403). -/
structure LogRec where
  ev : Event
  sev : Nat
  defer : Bool
  esc : Bool
  sec : Bool
  seqNo : Nat
deriving DecidableEq, Repr

/-- An open fence shadow (R384). -/
structure Shadow where
  unit : UnitNo
  start : Stamp
  stop : Stamp
deriving DecidableEq, Repr

structure Fbx where
  reported : List Event := []
  cnt : List CntEnt := []
  cntSeq : Nat := 0
  log : Vector (Option LogRec) 256 := Vector.replicate 256 none
  logPtr : Nat := 0
  logTotal : Nat := 0
  status : BitVec 51 := 0
  wgErr : Vector (BitVec 17) 4 := Vector.replicate 4 0
  maxSev : BitVec 2 := 0
  anySev : Bool := false
  first : Option LogRec := none
  /-- the captured injected event has already been replaced once (R389) -/
  firstSwap : Bool := false
  fenced : BitVec 96 := 0
  cur : Option UnitNo := none
  phase : BitVec 2 := 0
  selfFault : Bool := false
  selfArea : BitVec 2 := 0
  shadows : List Shadow := []
  level : BitVec 51 := 0
  reBusy : Bool := false
  rePass : Bool := false
  reFail : Bool := false
  reUnit : UnitNo := 0
  /-- refuge bits of RM_WAYDIS that the House set (R269, R270), by Room -/
  refugeBits : BitVec 64 := 0
deriving DecidableEq, Repr

/-! ## Timetable, modes, image -/

structure Tt where
  run : Bool := false
  cur : Nat := 0
  next : Nat := 0
  pend : Bool := false
  slot : BitVec 12 := 0
  lastFrom : Nat := 0
  lastTo : Nat := 0
  lastFt : Stamp := 0
  check : Word := 0
  /-- the table that ran when the House entered PANTRY (R435) -/
  saved : Nat := 0
  /-- the core cycle in which the pending switch was requested (R219) -/
  pendCc : Nat := 0
  /-- when the Timetable last stopped -/
  stopAt : Nat := 0
deriving DecidableEq, Repr

structure Mod where
  mode : Mode := .aux
  pend : Bool := false
  target : Mode := .off
  prev : Mode := .off
  origin : Mode := .off
  wait : Nat := 0
  why : Nat := 0
  lastFt : Stamp := 0
  joinAt : Nat := 0
  /-- the time-out of R431 has passed in this JOIN -/
  joinOver : Bool := false
  /-- when the House last entered SAFE (R343) -/
  safeAt : Nat := 0
  /-- the mode from which DRAIN was entered (R433) -/
  drainFrom : Mode := .off
  pantryReq : Bool := false
  /-- the core cycle of the request for PANTRY (R435) -/
  pantryCc : Nat := 0
  rejoin : Bool := false
  /-- checks of CHECK that have logged their failure since the House was asked to leave it: bit 0 HASH, bit 1
  TIMETABLE, bit 2 + c SIZE of channel c -/
  logged : BitVec 18 := 0
deriving DecidableEq, Repr

structure Img where
  busy : Bool := false
  ok : Bool := false
  auth : Bool := false
  format : Bool := false
  crc : Bool := false
  timeout : Bool := false
  nokey : Bool := false
  rollback : Bool := false
  noflash : Bool := false
  src : Bool := false
  copy : Bool := false
  version : BitVec 16 := 0
  flash : Word := 0
  startAt : Nat := 0
  spiBusy : Bool := false
  /-- the Pantry image has been written while it loads (R423) -/
  touched : Bool := false
deriving DecidableEq, Repr

structure SelfT where
  busy : Bool := false
  done : Bool := false
  codeFail : Bool := false
  crcFail : Bool := false
  bistFail : Bool := false
  /-- some test has failed since the tests began (R427, R439) -/
  failed : Bool := false
  /-- how often the SRAM BIST has run: its runs leave the Pantry arbitrary (R97) -/
  runs : Nat := 0
  /-- the tag SRAM holds what the last BIST left, but for the entries of `Stores.pan` -/
  wiped : Bool := false
  pat : Nat := 0
  ch : Nat := 0
deriving DecidableEq, Repr

/-- Fuses (R417, R437, R509). -/
structure Fuses where
  grade : Bool := false
  step : BitVec 8 := 0
  serial : BitVec 64 := 0
  avs : BitVec 5 := 0
  minVer : BitVec 16 := 0
  keyHash : BitVec 384 := 0
  winDis : Bool := false
  winDoff : Bool := false
deriving DecidableEq, Repr

/-- The configuration CRC engine (R467–R469). -/
structure CrcEng where
  live : Word := 0
  ref : Word := 0
  busy : Bool := false
  done : Bool := false
  dirty : Bool := false
  mismatch : Bool := false
  raised : Bool := false
  /-- the core cycle in which the lap under way began -/
  lapCc : Nat := 0
deriving DecidableEq, Repr

/-! ## Latch, management ports, clocks, thermal, meters, Window -/

structure Latch where
  owner : Option MgPort := none
  err : Bool := false
  token : BitVec 16 := 0
  endsAt : Nat := 0
  /-- the management clock cycle in which a read took it free (R461) -/
  takenIn : Option Nat := none
deriving DecidableEq, Repr

structure Lch where
  l : Vector Latch 32 := Vector.replicate 32 {}
  tieNext : Bool := false
  tieFirst : Bool := true
deriving DecidableEq, Repr

/-- One management port (R441–R450, R458): link, MSI-X causes, the HI latches it holds, its SMBus pointer. -/
structure Mg where
  up : Bool := false
  speed : BitVec 3 := 0
  cause : BitVec 9 := 0
  msix : List Nat := []
  hi : SMap Word := []
  smbPtr : BitVec 32 := 0
deriving DecidableEq, Repr

structure Clk where
  ref100 : Bool := false
  ref156 : Bool := false
  xtal : Bool := false
  coreLock : Bool := false
  mgLock : Bool := false
  auxLock : Bool := false
  porchLock : BitVec 8 := 0
  chLock : BitVec 16 := 0
  doorLock : BitVec 8 := 0
  lossFirst : BitVec 3 := 0
  /-- sources that are lost: bit 0 PCIe reference, 1 fabric reference, 2 crystal, 3 core PLL, 4 management PLL, 5 AUX PLL -/
  lost : BitVec 6 := 0
deriving DecidableEq, Repr

inductive Pwr | awake | doze | nap | sleep
deriving DecidableEq, Repr

structure Thm where
  temps : Vector (BitVec 10) 12 := Vector.replicate 12 0
  valid : Vector Bool 12 := Vector.replicate 12 false
  warn : Bool := false
  /-- the THERM_TRIP level is present (R483) -/
  trip : Bool := false
  tripRun : Nat := 0
  /-- since when every sensor has read the clearing threshold or less (R482) -/
  coolSince : Option Nat := none
  watts : BitVec 10 := 0
  peak : BitVec 10 := 0
  /-- Thermostat states by domain (R474); the core cycle in which a wake under way ends -/
  pwr : Vector Pwr 160 := Vector.replicate 160 .awake
  wakeCc : Vector (Option Nat) 160 := Vector.replicate 160 none
  /-- residence of the selected domain by state -/
  res : Vector (BitVec 64) 4 := Vector.replicate 4 0
deriving DecidableEq, Repr

/-- A charge of the live bank: tenant × 5 + meter, amount and stamp. -/
structure Dated where
  key : Nat
  n : Nat
  stamp : Stamp
deriving DecidableEq, Repr

structure Mtr where
  bank : Bool := false
  settling : Bool := false
  closed : Bool := false
  merged : Bool := false
  seqNo : Nat := 0
  liveSeq : Nat := 0
  acked : Bool := true
  lastAck : Word := 0
  liveStart : Stamp := 0
  boundary : Stamp := 0
  /-- start and flags of the window whose bank settles -/
  setStart : Stamp := 0
  setFlags : BitVec 5 := 0
  winStart : Stamp := 0
  winEnd : Stamp := 0
  flagsLive : BitVec 5 := 0
  flagsWin : BitVec 5 := 0
  /-- automatic boundaries up to this FT have been dealt with (R365) -/
  autoDone : Stamp := 0
  snapCc : Nat := 0
  opened : Bool := false
  /-- charges whose stamp the next boundary may not lie above (R363) -/
  dated : List Dated := []
deriving DecidableEq, Repr

structure KeyStage where
  tenant : Nat
  words : SMap Word := []
deriving DecidableEq, Repr

/-- JTAG instructions that hold the balls (R546). -/
inductive Jtag | none | extest | intest | clamp
deriving DecidableEq, Repr

/-- A region job (R165). -/
structure RJob where
  busy : Bool := false
  done : Bool := false
  resilver : Bool := false
  region : BitVec 18 := 0
  /-- next line of the home frame that RESILVER copies -/
  next : Nat := 0
deriving DecidableEq, Repr

structure Rebuild where
  busy : Bool := false
  done : Bool := false
  ch : Fin 16 := 0
  /-- lines sent to the sequencer by home Rooms, applied after its own copy (R270) -/
  late : List CelCmd := []
  /-- the home line that the sequencer has asked the twin for, and the answer -/
  ask : Option (BitVec 40) := none
  got : Option (LineData × Bool) := none
  writing : Bool := false
  released : Bool := false
deriving DecidableEq, Repr

/-- Commands of a channel to both of its subchannels (R241): an activation, or a column command, a write or a read, with or
without auto-precharge. -/
inductive DdrOp
  | act
  | cas (write auto : Bool)
deriving DecidableEq, Repr

/-- One command on a channel: `addr` is its row or column, `after` counts core cycles from the slot that granted it. -/
structure Ddr where
  c : Fin 16
  op : DdrOp
  rank : Nat
  bg : Nat
  bank : Nat
  addr : Nat
  after : Nat
deriving DecidableEq, Repr

/-- Pins that the House drives, and what leaves it. -/
structure Out where
  host : List HostMsg := []
  /-- frames started on each Door, link frames included -/
  frames : List (Fin 8 × Frame) := []
  /-- commands to the DRAM -/
  ddr : List Ddr := []
  /-- SMBus and JTAG answers -/
  side : List (List Byte) := []
  mgmt : List (MgPort × Nat × Word) := []
  thermtripN : Bool := true
deriving DecidableEq, Repr

/-- The Window's pins (R506): their levels while they are driven, the sample on its way with the core cycle in which
the pins take it, and the core cycle of the last change. -/
structure Win where
  d : Word := 0
  clk : Bool := false
  next : List (Nat × Word) := []
  changed : Nat := 0
deriving DecidableEq, Repr

/-- A request that the Hallway has brought from a Porch to a Room, and that waits for its Room-entry slot (R179). -/
structure Hall where
  p : Fin 8
  m : Fin 64
  item : Item
deriving DecidableEq, Repr

/-- What a Hallway transfer carries (R211). -/
inductive Load
  /-- a request, or a Landing drain, toward a Room -/
  | item (p : Fin 8) (m : Fin 64) (it : Item)
  /-- a response toward the Porch of its source -/
  | ans (src : Src) (a : Ans)
  /-- a command toward a channel -/
  | cel (c : Fin 16) (x : CelCmd)
  /-- a fabric message toward a Door, with the stamp that it is charged under -/
  | msg (f : FMsg) (stamp : Stamp)
  /-- a back-invalidate toward a Porch -/
  | bi (p : Fin 8) (k : Fin 2) (kind : Snp) (hpa : BitVec 52) (blk : Bool)
  /-- a fabric message toward its Room, with its Door -/
  | room (m : Fin 64) (f : FMsg) (d : Nat)
  /-- a DRAM return toward a Room -/
  | ret (m : Fin 64) (x : CelRet)
  /-- a transit frame toward Door e -/
  | transit (e : Fin 8) (f : TxFrame)
  /-- a new write toward the rebuild sequencer of channel c (R270) -/
  | late (c : Fin 16) (x : CelCmd)
deriving DecidableEq, Repr

/-- A transfer that waits at its stop for a slot of injection calendar `k` that grants `code`; 0xFF stands for an idle
slot (R218). `retire` retires when it leaves (R223). -/
structure Xfer where
  k : Nat
  code : Nat
  load : Load
  retire : Option Src := none
deriving DecidableEq, Repr

/-- A transfer on its way: its number, its stop's calendar and that of the stop it goes to, the first core cycle
in which its destination can use it (R17), and whether it has met another on one lane of a link (R236). -/
structure Fly where
  no : Nat
  /-- its line is still in the word queue of its stop (R132) -/
  queued : Bool := false
  k : Nat
  dst : Nat
  due : Nat
  load : Load
  bad : Bool := false
deriving DecidableEq, Repr

/-- Everything of the House but the sparse stores and the command queue. -/
structure Ctl where
  /-- time since VAUX became valid, in tenths of a nanosecond -/
  now : Nat := 0
  /-- core cycles since the Timetable's core clock started -/
  cc : Nat := 0
  /-- FT in units of 10^-10 ns, the accumulator of R314 -/
  ft : Nat := 0
  /-- the core's copy of FT, and what the copy would be if it could step backward (R491) -/
  ftCore : Nat := 0
  ftNext : Nat := 0
  /-- values of FT in the fabric-time handshake, with the time at which the core takes each (R489, R491) -/
  ftHand : List (Nat × Nat) := []
  rooms : Vector Room 64 := Vector.replicate 64 {}
  porches : Vector Porch 8 := Vector.replicate 8 {}
  chans : Vector Chan 16 := Vector.replicate 16 {}
  doors : Vector Door 8 := Vector.replicate 8 {}
  hall : List Hall := []
  /-- transfers that wait for their slots, and transfers on their way over the Hallway, each oldest first -/
  wait : List Xfer := []
  fly : List Fly := []
  flyNo : Nat := 0
  /-- the link, step and transfer of each injection of this cc (R236): the model's own field -/
  lanes : List (Nat × Nat × Nat) := []
  /-- the crossings between the core and the interface clocks -/
  xings : Xings := {}
  fab : Fabric := {}
  time : Time := {}
  fbx : Fbx := {}
  tt : Tt := {}
  mod : Mod := {}
  img : Img := {}
  selft : SelfT := {}
  /-- the fuse values as read, and the fuses themselves (R547) -/
  fuses : Fuses := {}
  cells : Fuses := {}
  crc : CrcEng := {}
  lch : Lch := {}
  mgA : Mg := {}
  mgB : Mg := {}
  clk : Clk := {}
  thm : Thm := {}
  mtr : Mtr := {}
  stage : Option KeyStage := none
  jtag : Jtag := .none
  win : Win := {}
  rjob : RJob := {}
  rebuild : Rebuild := {}
  cdrainBusy : Bool := false
  cdrainDone : Bool := false
  csweepBusy : Bool := false
  /-- PWR_GOOD after its filter, and the SUPPLY_LOW state of each main rail (R406, R408) -/
  pwrGood : Bool := false
  vaux : Bool := true
  railLow : BitVec 8 := 0
  winLockArmed : Bool := true
  hsnapSeq : BitVec 16 := 0
  scrubLast : Nat := 0
  scrubStart : Nat := 0
  scrubSlow : Bool := false
  lapNo : Nat := 0
  /-- the code that each calendar's slot of this cc goes to, or 0xFF where the slot is idle (R217, R218), as the cc
  began: the model's own field -/
  slots : List (Nat × Nat) := []
  /-- calendars that have granted in this cc, and to which code (R217): the model's own field -/
  used : List (Nat × Nat) := []
  /-- what the Window's group 2 shows of this cc: a block of R474 and a code (R507): the model's own field -/
  seen : List (Nat × Nat) := []
  /-- counters whose pulse event has happened in this cc, and counters already added to in this cc by their
  wrap (R495, R497): the model's own fields -/
  pulsed : List Nat := []
  wrapped : List Nat := []
  /-- how many free values have been drawn: the model's own field (log entry 2, DESIGN CHOICE) -/
  free : Nat := 0
  out : Out := {}
deriving DecidableEq, Repr

/-! ## The stores -/

/-- A tag entry, bits [86:0] of R56. The SECDED bits are computed from it and never stored. -/
structure TagEnt where
  tag : BitVec 16 := 0
  valid : BitVec 16 := 0
  dirty : BitVec 16 := 0
  tenant : BitVec 12 := 0
  state : BitVec 4 := 0
  cls : BitVec 6 := 0
  epoch : BitVec 8 := 0
  rsvd : BitVec 9 := 0
deriving DecidableEq, Repr

/-- A Screen entry, bits [46:0] of R137. The parity bit is computed from it and never stored. -/
structure ScnEnt where
  gran : BitVec 38 := 0
  pres : BitVec 8 := 0
  excl : Bool := false
deriving DecidableEq, Repr

/-- A sharer-directory entry, bits [84:0] of R149. The reserved bits are zero, and the check bits are computed from the
entry and never stored. -/
structure DirEnt where
  sharers : BitVec 64 := 0
  tag : BitVec 19 := 0
  state : BitVec 2 := 0
deriving DecidableEq, Repr

/-- The sparse memories. Keys: `regs` the word's byte address in the management window; `dram` channel × 2^30 +
line index; `remap` channel × 8 + entry; `tags`, `scn`, `dir` (Room × sets + set) × 16 + way; `plru`
Room × 32,768 + set; `keys` tenant × 16 + word; `pmc` Room × 9 + counter (8 is the cycle counter); `hist`
(Porch × 2 + bank) × 32 + bin; `mtr` (bank × 4,096 + tenant) × 5 + meter; `occ` and `occFt` tenant; `frames` home
frame; `pan` the tag entries written through the Pantry since the last BIST, keyed as `tags`. -/
structure Stores where
  regs : SMap Word := []
  dram : SMap Line := []
  remap : SMap Line := []
  tags : SMap TagEnt := []
  plru : SMap (BitVec 16) := []
  scn : SMap ScnEnt := []
  dir : SMap DirEnt := []
  keys : SMap Word := []
  pmc : SMap (BitVec 49) := []
  pmcPrev : SMap Bool := []
  hist : SMap (BitVec 49) := []
  mtr : SMap (BitVec 64) := []
  occ : SMap Nat := []
  occFt : SMap Nat := []
  frames : SMap Word := []
  pan : SMap Bool := []
deriving DecidableEq, Repr

structure State where
  c : Ctl := {}
  m : Stores := {}
  /-- commands that wait, first in, first out -/
  pending : List Instr := []
deriving DecidableEq, Repr

/-- A command that stops with a fault. -/
inductive Fault
  /-- Nobody raises it: every command of the table has an effect, or leaves the state as it is (safe). -/
  | none
deriving DecidableEq, Repr

/-- A command that the model refuses. -/
inductive Refusal
  /-- Raised by an arm of `exec` that has no meaning yet (safe). -/
  | notModelled (mnemonic : String)
deriving DecidableEq, Repr

/-- The House right after a reset that keeps nothing, in AUX with VAUX valid and PWR_GOOD low (R411, R412). -/
def State.reset : State := {}

end Sys2Proof.Machine
end

