-- ==== Sys2Proof/Machine/Crossings.lean ====
section
/-! DEFINITION. Dual-clock FIFOs between the core and the interface clocks: Gray-coded pointers, synchronisers, flags and
packet counters (R32, R33, R488–R490). -/
namespace Sys2Proof.Machine
open Sys2Proof

/-! ## Pointers (R488) -/

def gray (n : BitVec 7) : BitVec 7 := n ^^^ (n >>> 1)
def ungray (g : BitVec 7) : BitVec 7 :=
  let a := g ^^^ (g >>> 1)
  let b := a ^^^ (a >>> 2)
  b ^^^ (b >>> 4)

/-- Words that the write side counts in the FIFO: those whose pop it has not yet seen. -/
def Xing.load (x : Xing) : Nat := (x.wr - ungray x.rdSync.2).toNat

/-- The full flag of a FIFO `depth` words deep, to which the words of accepted packets are still to come. -/
def Xing.full (depth : Nat) (x : Xing) : Bool := decide (depth ≤ x.load + x.toPush.length)

/-- The empty flag. -/
def Xing.empty (x : Xing) : Bool := ungray x.wrSync.2 == x.rd

/-- A packet of `n` words is accepted; its last word is end-marked. -/
def Xing.send (x : Xing) (n : Nat) : Xing := { x with toPush := x.toPush ++ List.replicate (n - 1) false ++ [true] }

/-- A write-clock edge: a word is pushed unless the FIFO is full, and the read pointer comes one stage on. -/
def Xing.wrEdge (depth : Nat) (x : Xing) : Xing :=
  let y := match x.toPush with
    | w :: ws => if depth ≤ x.load then x else { x with toPush := ws, words := x.words ++ [w], wr := x.wr + 1 }
    | [] => x
  { y with rdSync := (gray x.rd, x.rdSync.1) }

/-- A read-clock edge (R490): a word is popped in the midst of a packet, or when a whole packet is known to be there; the
packet counter follows the end marks that the synchronised write pointer passes, and those popped. -/
def Xing.rdEdge (x : Xing) : Xing :=
  let seen := (ungray x.wrSync.2 - x.rd).toNat
  let ups := (((x.words.take (ungray x.wrSync.1 - x.rd).toNat).drop seen).filter id).length
  let y := match x.words with
    | w :: ws =>
      if x.popping || decide (0 < x.packets) then
        { x with words := ws, rd := x.rd + 1, popping := !w, packets := x.packets + ups - (if w then 1 else 0) }
      else { x with packets := x.packets + ups }
    | [] => x
  { y with wrSync := (gray x.wr, x.wrSync.1) }

/-- The core has popped a packet of `n` words, which the other side had pushed before: the write side learns of it with its
lag. -/
def Xing.took (x : Xing) (n : Nat) : Xing :=
  let wr := x.wr + BitVec.ofNat 7 n
  { x with wr := wr, rd := x.rd + BitVec.ofNat 7 n, wrSync := (gray wr, gray wr) }

def upTo (n : Nat) (f : Xing → Xing) (x : Xing) : Xing := (List.range n).foldl (fun x _ => f x) x

/-- One cc of a crossing that the core writes, and of one that it reads, with the other clock's edges in that cc. -/
def Xing.outCycle (depth far : Nat) (x : Xing) : Xing := upTo far Xing.rdEdge (x.wrEdge depth)
def Xing.inCycle (depth far : Nat) (x : Xing) : Xing := upTo far (Xing.wrEdge depth) x.rdEdge

/-! ## The crossings of R489 -/

/-- A FIFO of R489, by its instance. -/
inductive XingId
  | ingress (p : Fin 8) (k : Fin 2)
  | egress (p : Fin 8) (k : Fin 2)
  | celWrite (c : Fin 16)
  | celRead (c : Fin 16)
  | doorTx (d : Fin 8)
  | doorRx (d : Fin 8)
  | regReq (g : MgPort)
  | regRsp (g : MgPort)
deriving DecidableEq, Repr

/-- Words that the FIFO holds. -/
def XingId.depth : XingId → Nat
  | .ingress _ _ | .egress _ _ | .doorTx _ => 32
  | .celWrite _ | .celRead _ => 24
  | .doorRx _ => 64
  | .regReq _ | .regRsp _ => 16

def linkIdx (p : Fin 8) (k : Fin 2) : Fin 16 := ⟨2 * p.val + k.val, by omega⟩
def portIdx : MgPort → Fin 2
  | .a => 0
  | .b => 1

def Xings.get (x : Xings) : XingId → Xing
  | .ingress p k => x.ingress[linkIdx p k]
  | .egress p k => x.egress[linkIdx p k]
  | .celWrite c => x.celWrite[c]
  | .celRead c => x.celRead[c]
  | .doorTx d => x.doorTx[d]
  | .doorRx d => x.doorRx[d]
  | .regReq g => x.regReq[portIdx g]
  | .regRsp g => x.regRsp[portIdx g]

def Xings.mod (x : Xings) (i : XingId) (f : Xing → Xing) : Xings :=
  let up {n : Nat} (v : Vector Xing n) (j : Fin n) : Vector Xing n := v.set j.val (f v[j]) j.isLt
  match i with
  | .ingress p k => { x with ingress := up x.ingress (linkIdx p k) }
  | .egress p k => { x with egress := up x.egress (linkIdx p k) }
  | .celWrite c => { x with celWrite := up x.celWrite c }
  | .celRead c => { x with celRead := up x.celRead c }
  | .doorTx d => { x with doorTx := up x.doorTx d }
  | .doorRx d => { x with doorRx := up x.doorRx d }
  | .regReq g => { x with regReq := up x.regReq (portIdx g) }
  | .regRsp g => { x with regRsp := up x.regRsp (portIdx g) }

/-- Edges of the interface clocks in a cc: Porch link, DFI by channel, Door PCS, management. -/
structure FarEdges where
  link : Nat
  dfi : Fin 16 → Nat
  pcs : Nat
  mg : Nat

/-- One cc of every crossing. -/
def Xings.cycle (x : Xings) (e : FarEdges) : Xings :=
  { ingress := x.ingress.map (Xing.inCycle 32 e.link), egress := x.egress.map (Xing.outCycle 32 e.link),
    celWrite := Vector.ofFn fun c => x.celWrite[c].outCycle 24 (e.dfi c),
    celRead := Vector.ofFn fun c => x.celRead[c].inCycle 24 (e.dfi c),
    doorTx := x.doorTx.map (Xing.outCycle 32 e.pcs), doorRx := x.doorRx.map (Xing.inCycle 64 e.pcs),
    regReq := x.regReq.map (Xing.inCycle 16 e.mg), regRsp := x.regRsp.map (Xing.outCycle 16 e.mg) }

/-! ## What passes them -/

/-- Words of a message on a host link: two with data, else one (log entry 115, DEDUCED). -/
def msgWords (data : Bool) : Nat := if data then 2 else 1

/-- The crossing by which a host message leaves, and its words; what leaves by CXL.io does not take it. -/
def HostMsg.crossing : HostMsg → Option (XingId × Nat)
  | .drs p k _ _ _ => some (.egress p k, msgWords true)
  | .ndr p k _ | .biSnp p k _ _ _ | .biConflictAck p k _ => some (.egress p k, msgWords false)
  | .view _ _ _ _ | .viewPoison _ _ _ | .mailbox _ _ _ _ _ _ | .msix _ _ _ => none

/-- A host message goes into its crossing. -/
def Xings.out (x : Xings) (h : HostMsg) : Xings :=
  match h.crossing with
  | some (i, n) => x.mod i fun y => y.send n
  | none => x

/-- Words of a line in the Cellar crossings: two of data and one of control or status. -/
def lineWords : Nat := 3

end Sys2Proof.Machine
end

