-- ==== Sys2Proof/Machine/RegTable.lean ====
section
/-! DEFINITION. The register tables of the spec, one row for each register, field by field: the registers of
R38 to R526 with the offsets, access codes (R12), reset values and legal ranges that their tables state.
Reserved fields and the write-mask halves are left out: they read zero (R452, R456). -/
namespace Sys2Proof.Machine
open Sys2Proof

/-- Access codes of R12; AL and WM belong to the whole register. -/
inductive Acc | rw | ro | rc | w1 | wo
deriving DecidableEq, Repr

/-- Bits [hi:lo] of a register, its access code, reset value and legal range where one is stated. -/
structure RegField where
  hi : Nat
  lo : Nat
  acc : Acc
  reset : Nat
  legal : Option (Nat × Nat)
deriving DecidableEq, Repr

/-- A register: its offset in its block, the (count, stride) of each index it carries, whether it has aliases
(AL) and a write mask (WM), and its fields. -/
structure RegDef where
  name : String
  off : Nat
  arr : List (Nat × Nat)
  al : Bool
  wm : Bool
  fields : List RegField
deriving DecidableEq, Repr

/-- A block: base, stride and count of its instances (R11, R514). -/
structure RegBlock where
  base : Nat
  stride : Nat
  count : Nat
  regs : List RegDef
deriving DecidableEq, Repr

namespace RegTable

def regs_0_0 : List RegDef :=
  [ ⟨"CFG_CELLAR", 0x400, [], true, false,
      [⟨8, 0, .rw, 0x0, some (1, 256)⟩, ⟨20, 16, .rw, 0x0, none⟩]⟩,
    ⟨"CFG_HOME_FRAMES", 0x404, [], false, false,
      [⟨12, 0, .ro, 0x0, none⟩]⟩,
    ⟨"CFG_NEAR_BASE", 0x408, [], false, false,
      [⟨29, 0, .ro, 0x0, none⟩]⟩,
    ⟨"CFG_HROT", 0x9d0, [(4, 0x4)], true, false,
      [⟨29, 0, .rw, 0x0, none⟩]⟩,
    ⟨"PAN_PAGE", 0x500, [], true, false,
      [⟨3, 0, .rw, 0x0, some (0, 11)⟩]⟩,
    ⟨"CFG_CDRAIN", 0xa00, [], true, false,
      [⟨5, 0, .rw, 0x0, none⟩, ⟨8, 8, .rw, 0x0, none⟩, ⟨16, 16, .ro, 0x0, none⟩, ⟨17, 17, .ro, 0x0, none⟩]⟩,
    ⟨"CFG_CSWEEP", 0xa04, [], false, false,
      [⟨0, 0, .ro, 0x0, none⟩]⟩,
    ⟨"CFG_RJOB", 0xa08, [], true, false,
      [⟨17, 0, .rw, 0x0, none⟩, ⟨19, 18, .rw, 0x0, none⟩, ⟨20, 20, .rw, 0x0, none⟩, ⟨24, 24, .ro, 0x0, none⟩, ⟨25, 25, .ro, 0x0, none⟩]⟩,
    ⟨"TT_STATUS", 0xc00, [], false, false,
      [⟨6, 0, .ro, 0x0, none⟩, ⟨7, 7, .ro, 0x0, none⟩, ⟨14, 8, .ro, 0x0, none⟩, ⟨15, 15, .ro, 0x0, none⟩, ⟨18, 16, .ro, 0x0, none⟩]⟩,
    ⟨"TT_SLOT", 0xc04, [], false, false,
      [⟨11, 0, .ro, 0x0, none⟩]⟩,
    ⟨"TT_SWITCHES", 0xc08, [], false, false,
      [⟨31, 0, .rc, 0x0, none⟩]⟩,
    ⟨"TT_LAST_SW", 0xc0c, [], false, false,
      [⟨6, 0, .ro, 0x0, none⟩, ⟨14, 8, .ro, 0x0, none⟩]⟩ ]

def regs_0_1 : List RegDef :=
  [ ⟨"TT_LAST_FT_LO", 0xc10, [], false, false,
      [⟨31, 0, .ro, 0x0, none⟩]⟩,
    ⟨"TT_LAST_FT_HI", 0xc14, [], false, false,
      [⟨31, 0, .ro, 0x0, none⟩]⟩,
    ⟨"TT_CHECK", 0xc18, [], false, false,
      [⟨6, 0, .ro, 0x0, none⟩, ⟨15, 8, .ro, 0x0, none⟩, ⟨27, 16, .ro, 0x0, none⟩, ⟨30, 28, .ro, 0x0, none⟩, ⟨31, 31, .ro, 0x0, none⟩]⟩,
    ⟨"TT_FORCE", 0xc1c, [], true, false,
      [⟨6, 0, .rw, 0x0, some (0, 1)⟩, ⟨8, 8, .rw, 0x0, none⟩]⟩,
    ⟨"DEV_ID", 0x0, [], false, false,
      [⟨15, 0, .ro, 0x6480, none⟩, ⟨16, 16, .ro, 0x0, none⟩, ⟨31, 24, .ro, 0x0, none⟩]⟩,
    ⟨"DEV_SERIAL_LO", 0x4, [], false, false,
      [⟨31, 0, .ro, 0x0, none⟩]⟩,
    ⟨"DEV_SERIAL_HI", 0x8, [], false, false,
      [⟨31, 0, .ro, 0x0, none⟩]⟩,
    ⟨"DEV_AVS", 0xc, [], false, false,
      [⟨4, 0, .ro, 0x0, none⟩]⟩,
    ⟨"DEV_POOL_ID", 0x10, [], true, false,
      [⟨5, 0, .rw, 0x0, none⟩]⟩,
    ⟨"DEV_CTRL", 0x14, [], true, false,
      [⟨0, 0, .rw, 0x0, none⟩, ⟨31, 16, .rw, 0x0, none⟩]⟩,
    ⟨"MOD_STATE", 0x100, [], false, false,
      [⟨3, 0, .ro, 0x1, none⟩]⟩,
    ⟨"MOD_REQ", 0x104, [], true, false,
      [⟨3, 0, .rw, 0x0, none⟩, ⟨4, 4, .rw, 0x0, none⟩, ⟨14, 8, .rw, 0x0, none⟩, ⟨16, 16, .rw, 0x0, none⟩]⟩ ]

def regs_0_2 : List RegDef :=
  [ ⟨"MOD_STATUS", 0x108, [], false, false,
      [⟨0, 0, .ro, 0x0, none⟩, ⟨1, 1, .ro, 0x0, none⟩, ⟨7, 4, .ro, 0x0, none⟩, ⟨11, 8, .ro, 0x0, none⟩, ⟨15, 12, .ro, 0x0, none⟩, ⟨23, 16, .ro, 0x0, none⟩, ⟨31, 24, .ro, 0x0, none⟩]⟩,
    ⟨"MOD_JOIN_TIMEOUT", 0x10c, [], true, false,
      [⟨15, 0, .rw, 0x2710, some (100, 65535)⟩]⟩,
    ⟨"MOD_LAST_FT_LO", 0x110, [], false, false,
      [⟨31, 0, .ro, 0x0, none⟩]⟩,
    ⟨"MOD_LAST_FT_HI", 0x114, [], false, false,
      [⟨31, 0, .ro, 0x0, none⟩]⟩,
    ⟨"IMG_CTRL", 0x200, [], true, false,
      [⟨0, 0, .rw, 0x1, none⟩, ⟨1, 1, .rw, 0x0, none⟩, ⟨2, 2, .rw, 0x0, none⟩, ⟨7, 4, .rw, 0x0, none⟩]⟩,
    ⟨"IMG_SRC_ADDR", 0x204, [], true, false,
      [⟨28, 0, .rw, 0x0, none⟩]⟩,
    ⟨"IMG_SRC_LEN", 0x208, [], true, false,
      [⟨26, 0, .rw, 0x0, some (1024, 67108864)⟩]⟩,
    ⟨"IMG_STATUS", 0x20c, [], false, false,
      [⟨0, 0, .ro, 0x0, none⟩, ⟨1, 1, .ro, 0x0, none⟩, ⟨2, 2, .ro, 0x0, none⟩, ⟨3, 3, .ro, 0x0, none⟩, ⟨4, 4, .ro, 0x0, none⟩, ⟨5, 5, .ro, 0x0, none⟩, ⟨6, 6, .ro, 0x0, none⟩, ⟨7, 7, .ro, 0x0, none⟩, ⟨8, 8, .ro, 0x0, none⟩, ⟨9, 9, .ro, 0x0, none⟩, ⟨10, 10, .ro, 0x0, none⟩, ⟨31, 16, .ro, 0x0, none⟩]⟩,
    ⟨"IMG_MINVER", 0x210, [], false, false,
      [⟨15, 0, .ro, 0x0, none⟩]⟩,
    ⟨"IMG_FLASH", 0x214, [], false, false,
      [⟨2, 0, .ro, 0x0, none⟩, ⟨3, 3, .ro, 0x0, none⟩, ⟨4, 4, .ro, 0x0, none⟩, ⟨15, 8, .ro, 0x0, none⟩]⟩,
    ⟨"IMG_KEYHASH", 0x220, [(12, 0x4)], false, false,
      [⟨31, 0, .ro, 0x0, none⟩]⟩,
    ⟨"IMG_SPI_CMD", 0x260, [], true, false,
      [⟨7, 0, .rw, 0x0, none⟩, ⟨8, 8, .rw, 0x0, none⟩, ⟨9, 9, .rw, 0x0, none⟩, ⟨18, 10, .rw, 0x0, none⟩, ⟨19, 19, .rw, 0x0, none⟩, ⟨20, 20, .rw, 0x0, none⟩, ⟨21, 21, .ro, 0x0, none⟩]⟩ ]

def regs_0_3 : List RegDef :=
  [ ⟨"IMG_SPI_ADDR", 0x264, [], true, false,
      [⟨31, 0, .rw, 0x0, none⟩]⟩,
    ⟨"IMG_SPI_BUF", 0x300, [(64, 0x4)], true, false,
      [⟨31, 0, .rw, 0x0, none⟩]⟩,
    ⟨"DEV_WHOAMI", 0x18, [], false, false,
      [⟨0, 0, .ro, 0x0, none⟩]⟩,
    ⟨"DEV_MG_STATUS", 0x1c, [], false, false,
      [⟨0, 0, .ro, 0x0, none⟩, ⟨3, 1, .ro, 0x0, none⟩, ⟨4, 4, .ro, 0x0, none⟩, ⟨7, 5, .ro, 0x0, none⟩]⟩,
    ⟨"DEV_IRQ_CAUSE", 0x20, [], false, false,
      [⟨8, 0, .rc, 0x0, none⟩]⟩,
    ⟨"CFG_CRC_LIVE", 0xe00, [], false, false,
      [⟨31, 0, .ro, 0x0, none⟩]⟩,
    ⟨"CFG_CRC_REF", 0xe04, [], false, false,
      [⟨31, 0, .ro, 0x0, none⟩]⟩,
    ⟨"CFG_COMMIT", 0xe08, [], true, false,
      [⟨0, 0, .rw, 0x0, none⟩, ⟨16, 16, .ro, 0x0, none⟩, ⟨17, 17, .ro, 0x0, none⟩]⟩,
    ⟨"CFG_CRC_STATUS", 0xe0c, [], false, false,
      [⟨0, 0, .ro, 0x0, none⟩, ⟨1, 1, .ro, 0x0, none⟩, ⟨2, 2, .ro, 0x0, none⟩, ⟨31, 16, .rc, 0x0, none⟩]⟩,
    ⟨"CFG_CRC_WORDS", 0xe10, [], false, false,
      [⟨21, 0, .ro, 0x1bf800, none⟩]⟩,
    ⟨"CFG_CRC_LAPS", 0xe14, [], false, false,
      [⟨31, 0, .rc, 0x0, none⟩]⟩,
    ⟨"PMC_FREEZE", 0xf00, [], true, false,
      [⟨0, 0, .rw, 0x0, none⟩]⟩ ]

def regs_0_4 : List RegDef :=
  [ ⟨"PMC_HSNAP", 0xf04, [], true, false,
      [⟨0, 0, .rw, 0x0, none⟩, ⟨1, 1, .rw, 0x0, none⟩, ⟨15, 8, .ro, 0x0, none⟩, ⟨31, 16, .ro, 0x0, none⟩]⟩,
    ⟨"PMC_OVF_LO", 0xf08, [], false, false,
      [⟨31, 0, .ro, 0x0, none⟩]⟩,
    ⟨"PMC_OVF_HI", 0xf0c, [], false, false,
      [⟨31, 0, .ro, 0x0, none⟩]⟩,
    ⟨"CFG_HROOM_LO", 0x800, [(6, 0x8)], true, false,
      [⟨31, 0, .rw, 0x0, none⟩]⟩,
    ⟨"CFG_HROOM_HI", 0x804, [(6, 0x8)], true, false,
      [⟨3, 0, .rw, 0x0, none⟩]⟩,
    ⟨"CFG_HSET_LO", 0x840, [(15, 0x8)], true, false,
      [⟨31, 0, .rw, 0x0, none⟩]⟩,
    ⟨"CFG_HSET_HI", 0x844, [(15, 0x8)], true, false,
      [⟨3, 0, .rw, 0x0, none⟩]⟩,
    ⟨"CFG_HSCN_LO", 0x8c0, [(14, 0x8)], true, false,
      [⟨31, 0, .rw, 0x0, none⟩]⟩,
    ⟨"CFG_HSCN_HI", 0x8c4, [(14, 0x8)], true, false,
      [⟨3, 0, .rw, 0x0, none⟩, ⟨5, 4, .rw, 0x0, none⟩]⟩,
    ⟨"CFG_HORD_LO", 0x940, [(17, 0x8)], true, false,
      [⟨31, 0, .rw, 0x0, none⟩]⟩,
    ⟨"CFG_HORD_HI", 0x944, [(17, 0x8)], true, false,
      [⟨3, 0, .rw, 0x0, none⟩, ⟨27, 16, .rw, 0x0, none⟩]⟩ ]

def regs_10000_0 : List RegDef :=
  [ ⟨"FBX_STATUS_LO", 0x0, [], false, false,
      [⟨3, 0, .ro, 0x0, none⟩, ⟨19, 4, .rc, 0x0, none⟩, ⟨27, 20, .rc, 0x0, none⟩, ⟨31, 28, .rc, 0x0, none⟩]⟩,
    ⟨"FBX_STATUS_HI", 0x4, [], false, false,
      [⟨3, 0, .rc, 0x0, none⟩, ⟨18, 4, .rc, 0x0, none⟩]⟩,
    ⟨"FBX_MAXSEV", 0x8, [], false, false,
      [⟨1, 0, .rc, 0x0, none⟩, ⟨2, 2, .rc, 0x0, none⟩]⟩,
    ⟨"FBX_SHADOW_NS", 0x10, [], true, false,
      [⟨15, 0, .rw, 0x7d0, some (0, 65535)⟩]⟩,
    ⟨"FBX_INJ_REACT", 0x14, [], true, false,
      [⟨0, 0, .rw, 0x0, none⟩]⟩,
    ⟨"FBX_IRQ", 0x18, [], true, false,
      [⟨0, 0, .rw, 0x0, none⟩]⟩,
    ⟨"FBX_SELF", 0x1c, [], false, false,
      [⟨0, 0, .ro, 0x0, none⟩, ⟨2, 1, .ro, 0x0, none⟩]⟩,
    ⟨"FBX_MASKED", 0x20, [], false, false,
      [⟨31, 0, .rc, 0x0, none⟩]⟩,
    ⟨"FBX_SECONDARY", 0x24, [], false, false,
      [⟨31, 0, .rc, 0x0, none⟩]⟩,
    ⟨"FBX_INJ_COUNT", 0x28, [], false, false,
      [⟨31, 0, .rc, 0x0, none⟩]⟩,
    ⟨"FBX_CNT_DROP", 0x2c, [], false, false,
      [⟨31, 0, .rc, 0x0, none⟩]⟩,
    ⟨"FBX_SHADOW_STATE", 0x30, [], false, false,
      [⟨0, 0, .ro, 0x0, none⟩]⟩ ]

def regs_10000_1 : List RegDef :=
  [ ⟨"FBX_FIRST_INFO", 0x100, [], false, false,
      [⟨31, 0, .ro, 0x0, none⟩]⟩,
    ⟨"FBX_FIRST_MASTER", 0x104, [], false, false,
      [⟨31, 0, .ro, 0x0, none⟩]⟩,
    ⟨"FBX_FIRST_ADDR_LO", 0x108, [], false, false,
      [⟨31, 0, .ro, 0x0, none⟩]⟩,
    ⟨"FBX_FIRST_ADDR_HI", 0x10c, [], false, false,
      [⟨15, 0, .ro, 0x0, none⟩, ⟨16, 16, .ro, 0x0, none⟩]⟩,
    ⟨"FBX_FIRST_FT_LO", 0x110, [], false, false,
      [⟨31, 0, .ro, 0x0, none⟩]⟩,
    ⟨"FBX_FIRST_FT_HI", 0x114, [], false, false,
      [⟨31, 0, .ro, 0x0, none⟩]⟩,
    ⟨"FBX_FIRST_CTRL", 0x118, [], true, false,
      [⟨0, 0, .ro, 0x0, none⟩, ⟨1, 1, .rw, 0x0, none⟩, ⟨3, 2, .rw, 0x1, none⟩]⟩,
    ⟨"FBX_FIRST_MORE", 0x11c, [], false, false,
      [⟨31, 0, .rc, 0x0, none⟩]⟩,
    ⟨"FBX_LOG_PTR", 0x200, [], false, false,
      [⟨7, 0, .ro, 0x0, none⟩]⟩,
    ⟨"FBX_LOG_TOTAL", 0x204, [], false, false,
      [⟨31, 0, .ro, 0x0, none⟩]⟩,
    ⟨"FBX_CNT_USED", 0x208, [], false, false,
      [⟨7, 0, .ro, 0x0, none⟩]⟩,
    ⟨"FBX_FENCED0", 0x300, [], false, false,
      [⟨31, 0, .ro, 0x0, none⟩]⟩ ]

def regs_10000_2 : List RegDef :=
  [ ⟨"FBX_FENCED1", 0x304, [], false, false,
      [⟨31, 0, .ro, 0x0, none⟩]⟩,
    ⟨"FBX_FENCED2", 0x308, [], false, false,
      [⟨15, 0, .ro, 0x0, none⟩, ⟨23, 16, .ro, 0x0, none⟩, ⟨31, 24, .ro, 0x0, none⟩]⟩,
    ⟨"FBX_FENCE_CUR", 0x30c, [], false, false,
      [⟨6, 0, .ro, 0x0, none⟩, ⟨7, 7, .ro, 0x0, none⟩, ⟨9, 8, .ro, 0x0, none⟩]⟩,
    ⟨"FBX_RECHECK", 0x310, [], true, false,
      [⟨6, 0, .rw, 0x0, none⟩, ⟨8, 8, .rw, 0x0, none⟩, ⟨16, 16, .ro, 0x0, none⟩, ⟨17, 17, .ro, 0x0, none⟩, ⟨18, 18, .ro, 0x0, none⟩]⟩,
    ⟨"FBX_INJ_CTRL", 0x400, [], true, false,
      [⟨7, 0, .rw, 0x0, none⟩, ⟨14, 8, .rw, 0x0, none⟩, ⟨15, 15, .rw, 0x0, none⟩, ⟨16, 16, .rw, 0x0, none⟩, ⟨23, 17, .rw, 0x0, none⟩, ⟨26, 24, .rw, 0x0, none⟩]⟩,
    ⟨"FBX_INJ_ADDR_LO", 0x404, [], true, false,
      [⟨31, 0, .rw, 0x0, none⟩]⟩,
    ⟨"FBX_INJ_ADDR_HI", 0x408, [], true, false,
      [⟨15, 0, .rw, 0x0, none⟩]⟩,
    ⟨"FBX_EVCFG", 0x1000, [(255, 0x4)], true, false,
      [⟨1, 0, .rw, 0x0, none⟩, ⟨2, 2, .rw, 0x0, none⟩, ⟨11, 4, .rw, 0x0, none⟩, ⟨23, 16, .rw, 0x0, none⟩, ⟨25, 24, .rw, 0x0, none⟩]⟩,
    ⟨"FBX_EVCNT", 0x1400, [(255, 0x4)], false, false,
      [⟨15, 0, .rc, 0x0, none⟩]⟩ ]

def regs_12000_0 : List RegDef :=
  [ ⟨"FBX_LOG", 0x0, [(256, 0x20), (8, 0x4)], false, false,
      [⟨31, 0, .ro, 0x0, none⟩]⟩ ]

def regs_20000_0 : List RegDef :=
  [ ⟨"LCH_TAKE", 0x0, [(32, 0x4)], false, false,
      [⟨0, 0, .ro, 0x0, none⟩, ⟨1, 1, .ro, 0x0, none⟩, ⟨3, 2, .ro, 0x0, none⟩, ⟨31, 16, .ro, 0x0, none⟩]⟩,
    ⟨"LCH_REL", 0x80, [(32, 0x4)], true, false,
      [⟨0, 0, .rw, 0x0, none⟩, ⟨1, 1, .rw, 0x0, none⟩, ⟨31, 16, .rw, 0x0, none⟩]⟩,
    ⟨"LCH_LEASE", 0x100, [], true, false,
      [⟨15, 0, .rw, 0x3e8, some (1, 65535)⟩]⟩,
    ⟨"LCH_OWN_A", 0x104, [], false, false,
      [⟨31, 0, .ro, 0x0, none⟩]⟩,
    ⟨"LCH_OWN_B", 0x108, [], false, false,
      [⟨31, 0, .ro, 0x0, none⟩]⟩,
    ⟨"LCH_ERR", 0x10c, [], false, false,
      [⟨31, 0, .ro, 0x0, none⟩]⟩,
    ⟨"LCH_TIE", 0x110, [], false, false,
      [⟨0, 0, .ro, 0x0, none⟩, ⟨1, 1, .ro, 0x1, none⟩]⟩,
    ⟨"LCH_EXPIRED", 0x114, [], false, false,
      [⟨31, 0, .rc, 0x0, none⟩]⟩ ]

def regs_30000_0 : List RegDef :=
  [ ⟨"THM_TEMP", 0x0, [(12, 0x4)], false, false,
      [⟨9, 0, .ro, 0x0, none⟩, ⟨15, 15, .ro, 0x0, none⟩]⟩,
    ⟨"THM_HOT", 0x30, [], false, false,
      [⟨9, 0, .ro, 0x0, none⟩, ⟨19, 16, .ro, 0x0, none⟩]⟩,
    ⟨"THM_LIMITS", 0x40, [], true, false,
      [⟨7, 0, .rw, 0x64, some (60, 110)⟩, ⟨15, 8, .rw, 0x6e, some (100, 120)⟩, ⟨19, 16, .rw, 0x5, some (1, 15)⟩]⟩,
    ⟨"THM_STATUS", 0x44, [], false, false,
      [⟨0, 0, .ro, 0x0, none⟩, ⟨1, 1, .ro, 0x0, none⟩, ⟨2, 2, .ro, 0x0, none⟩]⟩,
    ⟨"THM_GUARD", 0x48, [], true, false,
      [⟨7, 0, .rw, 0x2, some (0, 255)⟩]⟩,
    ⟨"THM_DEEP", 0x4c, [], true, false,
      [⟨1, 0, .rw, 0x2, some (0, 2)⟩, ⟨3, 2, .rw, 0x1, some (0, 2)⟩, ⟨5, 4, .rw, 0x2, some (0, 2)⟩, ⟨7, 6, .rw, 0x1, some (0, 1)⟩]⟩,
    ⟨"THM_PWR", 0x50, [], false, false,
      [⟨9, 0, .ro, 0x0, none⟩, ⟨25, 16, .rc, 0x0, none⟩]⟩,
    ⟨"THM_SEL", 0x60, [], true, false,
      [⟨7, 0, .rw, 0x0, some (0, 159)⟩]⟩,
    ⟨"THM_STATE", 0x64, [], false, false,
      [⟨1, 0, .ro, 0x0, none⟩, ⟨31, 16, .ro, 0x0, none⟩]⟩,
    ⟨"THM_RES_LO", 0x70, [(4, 0x8)], false, false,
      [⟨31, 0, .ro, 0x0, none⟩]⟩,
    ⟨"THM_RES_HI", 0x74, [(4, 0x8)], false, false,
      [⟨31, 0, .ro, 0x0, none⟩]⟩,
    ⟨"CLK_STATUS", 0x100, [], false, false,
      [⟨0, 0, .ro, 0x0, none⟩, ⟨1, 1, .ro, 0x0, none⟩, ⟨2, 2, .ro, 0x0, none⟩, ⟨3, 3, .ro, 0x0, none⟩, ⟨4, 4, .ro, 0x0, none⟩, ⟨5, 5, .ro, 0x0, none⟩]⟩ ]

def regs_30000_1 : List RegDef :=
  [ ⟨"CLK_LOCK", 0x104, [], false, false,
      [⟨7, 0, .ro, 0x0, none⟩, ⟨23, 8, .ro, 0x0, none⟩, ⟨31, 24, .ro, 0x0, none⟩]⟩,
    ⟨"CLK_LOSS_INFO", 0x108, [], false, false,
      [⟨2, 0, .ro, 0x0, none⟩]⟩,
    ⟨"CLK_AUX_TICK_LO", 0x110, [], false, false,
      [⟨31, 0, .ro, 0x0, none⟩]⟩,
    ⟨"CLK_AUX_TICK_HI", 0x114, [], false, false,
      [⟨31, 0, .ro, 0x0, none⟩]⟩ ]

def regs_40000_0 : List RegDef :=
  [ ⟨"TIM_FT_LO", 0x0, [], false, false,
      [⟨31, 0, .ro, 0x0, none⟩]⟩,
    ⟨"TIM_FT_HI", 0x4, [], false, false,
      [⟨31, 0, .ro, 0x0, none⟩]⟩,
    ⟨"TIM_CTRL", 0x8, [], true, false,
      [⟨5, 0, .rw, 0x0, none⟩, ⟨6, 6, .rw, 0x0, none⟩, ⟨13, 8, .rw, 0x0, none⟩, ⟨14, 14, .rw, 0x0, none⟩, ⟨25, 16, .rw, 0x7d, some (16, 1000)⟩]⟩,
    ⟨"TIM_STATUS", 0xc, [], false, false,
      [⟨0, 0, .ro, 0x0, none⟩, ⟨1, 1, .ro, 0x0, none⟩, ⟨2, 2, .ro, 0x0, none⟩, ⟨5, 3, .ro, 0x0, none⟩, ⟨6, 6, .ro, 0x0, none⟩, ⟨31, 16, .ro, 0x0, none⟩]⟩,
    ⟨"TIM_DELAY", 0x10, [], false, false,
      [⟨15, 0, .ro, 0x0, none⟩]⟩,
    ⟨"TIM_RATE", 0x14, [], false, false,
      [⟨31, 0, .ro, 0x0, none⟩]⟩ ]

def regs_50000_0 : List RegDef :=
  [ ⟨"WIN_CTRL", 0x0, [], true, false,
      [⟨0, 0, .rw, 0x0, none⟩, ⟨1, 1, .rw, 0x0, none⟩]⟩,
    ⟨"WIN_SEL", 0x4, [], true, false,
      [⟨6, 0, .rw, 0x0, some (0, 95)⟩, ⟨11, 8, .rw, 0x0, some (0, 3)⟩, ⟨14, 12, .rw, 0x0, none⟩]⟩,
    ⟨"WIN_LOCK", 0x8, [], false, false,
      [⟨0, 0, .w1, 0x0, none⟩]⟩,
    ⟨"WIN_STATUS", 0xc, [], false, false,
      [⟨0, 0, .ro, 0x0, none⟩, ⟨1, 1, .ro, 0x0, none⟩, ⟨2, 2, .ro, 0x0, none⟩, ⟨3, 3, .ro, 0x0, none⟩, ⟨4, 4, .ro, 0x0, none⟩]⟩ ]

def regs_60000_0 : List RegDef :=
  [ ⟨"SCB_CTRL", 0x100, [], true, false,
      [⟨0, 0, .rw, 0x1, none⟩]⟩,
    ⟨"SCB_LAP_MAX", 0x104, [], true, false,
      [⟨31, 0, .rw, 0x15180, some (1, 4294967295)⟩]⟩,
    ⟨"SCB_LAP_LAST", 0x108, [], false, false,
      [⟨31, 0, .ro, 0x0, none⟩]⟩,
    ⟨"SCB_LAP_NOW", 0x10c, [], false, false,
      [⟨31, 0, .ro, 0x0, none⟩]⟩,
    ⟨"SCB_CE", 0x110, [], false, false,
      [⟨31, 0, .rc, 0x0, none⟩]⟩,
    ⟨"SCB_UE", 0x114, [], false, false,
      [⟨31, 0, .rc, 0x0, none⟩]⟩,
    ⟨"SCB_SELFTEST", 0x0, [], true, false,
      [⟨0, 0, .rw, 0x0, none⟩, ⟨1, 1, .ro, 0x0, none⟩, ⟨2, 2, .ro, 0x0, none⟩, ⟨3, 3, .ro, 0x0, none⟩, ⟨4, 4, .ro, 0x0, none⟩, ⟨5, 5, .ro, 0x0, none⟩, ⟨6, 6, .ro, 0x0, none⟩, ⟨21, 16, .ro, 0x0, none⟩, ⟨25, 22, .ro, 0x0, none⟩]⟩ ]

def regs_80000_0 : List RegDef :=
  [ ⟨"PCH_WSEGs_DPA", 0x800, [(64, 0x10)], false, false,
      [⟨21, 0, .rw, 0x0, none⟩, ⟨31, 31, .rw, 0x0, none⟩]⟩,
    ⟨"PCH_WSEGs_SIZE", 0x804, [(64, 0x10)], false, false,
      [⟨12, 0, .rw, 0x0, some (1, 4096)⟩]⟩,
    ⟨"PCH_WSEGs_POOL", 0x808, [(64, 0x10)], false, false,
      [⟨17, 0, .rw, 0x0, none⟩]⟩,
    ⟨"LND_CTRL", 0x400, [], false, false,
      [⟨15, 0, .rw, 0x400, some (16, 65535)⟩, ⟨23, 16, .rw, 0x60, some (1, 128)⟩]⟩,
    ⟨"LND_USED", 0x404, [], false, false,
      [⟨7, 0, .ro, 0x0, none⟩]⟩,
    ⟨"LND_PEAK", 0x408, [], false, false,
      [⟨7, 0, .rc, 0x0, none⟩]⟩,
    ⟨"LND_MERGE", 0x40c, [], false, false,
      [⟨31, 0, .rc, 0x0, none⟩]⟩,
    ⟨"LND_WAIT", 0x410, [], false, false,
      [⟨31, 0, .rc, 0x0, none⟩]⟩,
    ⟨"LND_OWNHIT", 0x414, [], false, false,
      [⟨31, 0, .rc, 0x0, none⟩]⟩,
    ⟨"PCH_ORD_STATUS", 0x500, [], false, false,
      [⟨11, 0, .ro, 0x0, none⟩]⟩,
    ⟨"PCH_ORD_HOLD", 0x504, [], false, false,
      [⟨31, 0, .rc, 0x0, none⟩]⟩,
    ⟨"PCH_DRAIN_TIMEOUT", 0x508, [], false, false,
      [⟨15, 0, .rw, 0x3e8, some (10, 65535)⟩]⟩ ]

def regs_80000_1 : List RegDef :=
  [ ⟨"PCH_MSYNC", 0x50c, [], false, false,
      [⟨0, 0, .rw, 0x0, none⟩, ⟨16, 16, .ro, 0x0, none⟩, ⟨17, 17, .ro, 0x0, none⟩]⟩,
    ⟨"PCH_BARRIER_ERR", 0x510, [], false, false,
      [⟨31, 0, .rc, 0x0, none⟩]⟩,
    ⟨"PCH_RSV_CTRL", 0x520, [], false, false,
      [⟨15, 0, .rw, 0x64, some (1, 65535)⟩]⟩,
    ⟨"PCH_RSV_OK", 0x524, [], false, false,
      [⟨31, 0, .rc, 0x0, none⟩]⟩,
    ⟨"PCH_RSV_FAIL", 0x528, [], false, false,
      [⟨31, 0, .rc, 0x0, none⟩]⟩,
    ⟨"PCH_CTRL", 0x0, [], false, false,
      [⟨0, 0, .rw, 0x1, none⟩, ⟨1, 1, .rw, 0x0, none⟩]⟩,
    ⟨"PCH_LINK_STATUS", 0x10, [(2, 0x4)], false, false,
      [⟨3, 0, .ro, 0x0, none⟩, ⟨8, 4, .ro, 0x0, none⟩, ⟨9, 9, .ro, 0x0, none⟩, ⟨10, 10, .ro, 0x0, none⟩, ⟨11, 11, .ro, 0x0, none⟩]⟩,
    ⟨"PCH_LINK_CAP", 0x20, [(2, 0x4)], false, false,
      [⟨12, 0, .rw, 0x0, some (0, 4096)⟩]⟩,
    ⟨"PCH_CRED", 0x30, [], false, false,
      [⟨9, 0, .rw, 0x100, some (16, 512)⟩, ⟨19, 10, .rw, 0x80, some (16, 256)⟩, ⟨29, 20, .rw, 0x40, some (16, 128)⟩]⟩,
    ⟨"PCH_REQ_TIMEOUT", 0x34, [], false, false,
      [⟨15, 0, .rw, 0x1388, some (100, 65535)⟩]⟩,
    ⟨"PCH_CRED_STALL", 0x38, [], false, false,
      [⟨15, 0, .rw, 0x64, some (1, 65535)⟩]⟩,
    ⟨"PCH_STORE_USED", 0x40, [], false, false,
      [⟨11, 0, .ro, 0x0, none⟩]⟩ ]

def regs_80000_2 : List RegDef :=
  [ ⟨"PCH_CHK_CLOSED", 0x100, [], false, false,
      [⟨31, 0, .rc, 0x0, none⟩]⟩,
    ⟨"PCH_CHK_OPCODE", 0x104, [], false, false,
      [⟨31, 0, .rc, 0x0, none⟩]⟩,
    ⟨"PCH_CHK_DECODE", 0x108, [], false, false,
      [⟨31, 0, .rc, 0x0, none⟩]⟩,
    ⟨"PCH_CHK_WINDOW", 0x10c, [], false, false,
      [⟨31, 0, .rc, 0x0, none⟩]⟩,
    ⟨"PCH_CHK_REGION", 0x110, [], false, false,
      [⟨31, 0, .rc, 0x0, none⟩]⟩,
    ⟨"PCH_CHK_TENANT", 0x114, [], false, false,
      [⟨31, 0, .rc, 0x0, none⟩]⟩,
    ⟨"PCH_POISON_OUT", 0x118, [], false, false,
      [⟨31, 0, .rc, 0x0, none⟩]⟩,
    ⟨"PCH_STALLS", 0x11c, [], false, false,
      [⟨31, 0, .rc, 0x0, none⟩]⟩,
    ⟨"PCH_HIST_CFG", 0xc00, [], false, false,
      [⟨5, 0, .rw, 0x0, none⟩, ⟨6, 6, .rw, 0x0, none⟩, ⟨8, 7, .rw, 0x2, none⟩, ⟨9, 9, .rw, 0x0, none⟩, ⟨10, 10, .rw, 0x0, none⟩, ⟨18, 16, .rw, 0x4, none⟩, ⟨31, 20, .rw, 0x20, none⟩]⟩,
    ⟨"PCH_HIST_MAX", 0xc04, [], false, false,
      [⟨15, 0, .rc, 0x0, none⟩]⟩,
    ⟨"PCH_HIST_BIN_LO", 0xc80, [(32, 0x8)], false, false,
      [⟨31, 0, .ro, 0x0, none⟩]⟩,
    ⟨"PCH_HIST_BIN_HI", 0xc84, [(32, 0x8)], false, false,
      [⟨15, 0, .ro, 0x0, none⟩, ⟨31, 31, .ro, 0x0, none⟩]⟩ ]

def regs_100000_0 : List RegDef :=
  [ ⟨"CEL_CH_STATUS", 0x0, [], false, false,
      [⟨0, 0, .ro, 0x0, none⟩, ⟨1, 1, .ro, 0x0, none⟩, ⟨2, 2, .ro, 0x0, none⟩, ⟨3, 3, .ro, 0x0, none⟩, ⟨5, 4, .ro, 0x0, none⟩, ⟨6, 6, .ro, 0x0, none⟩, ⟨7, 7, .ro, 0x0, none⟩, ⟨24, 16, .ro, 0x0, none⟩]⟩,
    ⟨"CEL_CH_MARK", 0x4, [(4, 0x4)], false, false,
      [⟨4, 0, .rw, 0x0, some (0, 19)⟩, ⟨7, 7, .rw, 0x0, none⟩]⟩,
    ⟨"CEL_CH_CE", 0x20, [], false, false,
      [⟨31, 0, .rc, 0x0, none⟩]⟩,
    ⟨"CEL_CH_UE", 0x24, [], false, false,
      [⟨31, 0, .rc, 0x0, none⟩]⟩,
    ⟨"CEL_CH_SHADOW_MM", 0x28, [], false, false,
      [⟨31, 0, .rc, 0x0, none⟩]⟩,
    ⟨"CEL_CH_REPEAT_WB", 0x2c, [], false, false,
      [⟨31, 0, .rc, 0x0, none⟩]⟩,
    ⟨"CEL_CH_REPEAT_DROP", 0x30, [], false, false,
      [⟨31, 0, .rc, 0x0, none⟩]⟩,
    ⟨"CEL_CH_REMAP_FULL", 0x34, [], false, false,
      [⟨31, 0, .rc, 0x0, none⟩]⟩,
    ⟨"CEL_CH_REMAP", 0x40, [(8, 0x4)], false, false,
      [⟨29, 0, .ro, 0x0, none⟩, ⟨31, 31, .ro, 0x0, none⟩]⟩,
    ⟨"CEL_CH_DEVCE", 0x100, [(80, 0x4)], false, false,
      [⟨15, 0, .rc, 0x0, none⟩]⟩ ]

def regs_110000_0 : List RegDef :=
  [ ⟨"CEL_REPEAT", 0x0, [], true, false,
      [⟨2, 0, .rw, 0x3, some (1, 7)⟩]⟩,
    ⟨"CEL_DEVHIT", 0x4, [], true, false,
      [⟨3, 0, .rw, 0x3, some (1, 8)⟩]⟩,
    ⟨"CEL_FILL", 0x10, [], false, false,
      [⟨30, 0, .ro, 0x0, none⟩, ⟨31, 31, .ro, 0x0, none⟩]⟩,
    ⟨"CEL_FRAME_SEL", 0x20, [], true, false,
      [⟨11, 0, .rw, 0x0, none⟩]⟩,
    ⟨"CEL_FRAME_DATA", 0x24, [], false, false,
      [⟨11, 0, .ro, 0x0, none⟩, ⟨17, 12, .ro, 0x0, none⟩, ⟨23, 18, .ro, 0x0, none⟩, ⟨24, 24, .ro, 0x0, none⟩, ⟨25, 25, .ro, 0x0, none⟩, ⟨31, 31, .ro, 0x0, none⟩]⟩,
    ⟨"CEL_REBUILD", 0x30, [], true, false,
      [⟨3, 0, .rw, 0x0, none⟩, ⟨4, 4, .rw, 0x0, none⟩, ⟨16, 16, .ro, 0x0, none⟩, ⟨17, 17, .ro, 0x0, none⟩]⟩ ]

def regs_180000_0 : List RegDef :=
  [ ⟨"DOR_STATUS", 0x0, [], false, false,
      [⟨0, 0, .ro, 0x0, none⟩, ⟨1, 1, .ro, 0x0, none⟩, ⟨2, 2, .ro, 0x0, none⟩, ⟨3, 3, .ro, 0x0, none⟩, ⟨4, 4, .ro, 0x0, none⟩, ⟨5, 5, .ro, 0x0, none⟩, ⟨13, 8, .ro, 0x0, none⟩, ⟨14, 14, .ro, 0x0, none⟩, ⟨18, 16, .ro, 0x0, none⟩, ⟨31, 24, .ro, 0x0, none⟩]⟩,
    ⟨"DOR_CTRL", 0x4, [], false, false,
      [⟨0, 0, .rw, 0x1, none⟩, ⟨1, 1, .rw, 0x0, none⟩, ⟨2, 2, .rw, 0x1, none⟩]⟩,
    ⟨"DOR_EXPECT", 0x8, [], false, false,
      [⟨5, 0, .rw, 0x0, none⟩, ⟨10, 8, .rw, 0x0, none⟩, ⟨15, 15, .rw, 0x0, none⟩]⟩,
    ⟨"DOR_ACK_TIMEOUT", 0xc, [], false, false,
      [⟨9, 0, .rw, 0xa, some (1, 1000)⟩]⟩,
    ⟨"DOR_XOFF", 0x10, [], false, false,
      [⟨9, 0, .rw, 0xc0, some (32, 448)⟩]⟩,
    ⟨"DOR_SEC", 0x14, [], false, false,
      [⟨0, 0, .rw, 0x0, none⟩, ⟨1, 1, .rw, 0x0, none⟩]⟩,
    ⟨"DOR_REPLAY_USED", 0x18, [], false, false,
      [⟨9, 0, .ro, 0x0, none⟩]⟩,
    ⟨"DOR_ASYM", 0x1c, [], false, false,
      [⟨15, 0, .rw, 0x0, none⟩]⟩,
    ⟨"DOR_REPLAYS", 0x20, [], false, false,
      [⟨31, 0, .rc, 0x0, none⟩]⟩,
    ⟨"DOR_CRC_ERR", 0x24, [], false, false,
      [⟨31, 0, .rc, 0x0, none⟩]⟩,
    ⟨"DOR_AUTH_ERR", 0x28, [], false, false,
      [⟨31, 0, .rc, 0x0, none⟩]⟩,
    ⟨"DOR_FEC_CE", 0x2c, [], false, false,
      [⟨31, 0, .rc, 0x0, none⟩]⟩ ]

def regs_180000_1 : List RegDef :=
  [ ⟨"DOR_FEC_UE", 0x30, [], false, false,
      [⟨31, 0, .rc, 0x0, none⟩]⟩,
    ⟨"DOR_RETRAINS", 0x34, [], false, false,
      [⟨31, 0, .rc, 0x0, none⟩]⟩,
    ⟨"DOR_BP", 0x38, [], false, false,
      [⟨31, 0, .rc, 0x0, none⟩]⟩,
    ⟨"DOR_HOP_DROP", 0x3c, [], false, false,
      [⟨31, 0, .rc, 0x0, none⟩]⟩,
    ⟨"DOR_DUP", 0x40, [], false, false,
      [⟨31, 0, .rc, 0x0, none⟩]⟩,
    ⟨"DOR_RESENT", 0x44, [], false, false,
      [⟨31, 0, .rc, 0x0, none⟩]⟩,
    ⟨"DOR_TXKEY", 0x100, [(2, 0x20), (8, 0x4)], false, false,
      [⟨31, 0, .wo, 0x0, none⟩]⟩,
    ⟨"DOR_RXKEY", 0x140, [(2, 0x20), (8, 0x4)], false, false,
      [⟨31, 0, .wo, 0x0, none⟩]⟩ ]

def regs_190000_0 : List RegDef :=
  [ ⟨"RTE_ENTRY", 0x0, [(64, 0x4)], true, false,
      [⟨2, 0, .rw, 0x0, none⟩, ⟨3, 3, .rw, 0x0, none⟩, ⟨6, 4, .rw, 0x0, none⟩, ⟨7, 7, .rw, 0x0, none⟩, ⟨11, 8, .rw, 0x0, some (0, 15)⟩]⟩,
    ⟨"RTE_LIVE_LO", 0x100, [], false, false,
      [⟨31, 0, .ro, 0x0, none⟩]⟩,
    ⟨"RTE_LIVE_HI", 0x104, [], false, false,
      [⟨31, 0, .ro, 0x0, none⟩]⟩,
    ⟨"RTE_DEAD_LO", 0x108, [], false, false,
      [⟨31, 0, .ro, 0x0, none⟩]⟩,
    ⟨"RTE_DEAD_HI", 0x10c, [], false, false,
      [⟨31, 0, .ro, 0x0, none⟩]⟩,
    ⟨"RTE_CTRL", 0x110, [], true, false,
      [⟨9, 0, .rw, 0x64, some (10, 1000)⟩, ⟨27, 16, .rw, 0x12c, some (30, 4095)⟩]⟩,
    ⟨"RTE_GAP", 0x114, [], true, false,
      [⟨9, 0, .rw, 0x28, some (1, 1000)⟩]⟩,
    ⟨"RTE_POOL_NAME", 0x118, [], true, false,
      [⟨31, 0, .rw, 0x0, none⟩]⟩,
    ⟨"RTE_STATUS", 0x11c, [], false, false,
      [⟨0, 0, .ro, 0x0, none⟩, ⟨1, 1, .ro, 0x0, none⟩, ⟨31, 16, .ro, 0x0, none⟩]⟩,
    ⟨"RTE_REORDER", 0x120, [], false, false,
      [⟨8, 0, .ro, 0x0, none⟩]⟩,
    ⟨"RTE_GAPS", 0x124, [], false, false,
      [⟨31, 0, .rc, 0x0, none⟩]⟩,
    ⟨"RTE_DISCARD", 0x128, [], false, false,
      [⟨31, 0, .rc, 0x0, none⟩]⟩ ]

def regs_200000_0 : List RegDef :=
  [ ⟨"WG_ERRSRC", 0x0, [], false, false,
      [⟨15, 0, .rc, 0x0, none⟩, ⟨16, 16, .rc, 0x0, none⟩]⟩,
    ⟨"WG_FENCED", 0x4, [], false, false,
      [⟨15, 0, .ro, 0x0, none⟩]⟩ ]

def regs_400000_0 : List RegDef :=
  [ ⟨"RM_STATUS", 0x0, [], false, false,
      [⟨0, 0, .ro, 0x0, none⟩, ⟨1, 1, .ro, 0x0, none⟩, ⟨2, 2, .ro, 0x0, none⟩, ⟨3, 3, .ro, 0x0, none⟩]⟩,
    ⟨"RM_MISS_BUSY", 0x10, [], false, false,
      [⟨8, 0, .ro, 0x0, none⟩]⟩,
    ⟨"RM_MISS_PEAK", 0x14, [], false, false,
      [⟨8, 0, .rc, 0x0, none⟩]⟩,
    ⟨"RM_WAIT_FREE", 0x18, [], false, false,
      [⟨9, 0, .ro, 0x200, none⟩]⟩,
    ⟨"RM_WAYDIS", 0x20, [], false, true,
      [⟨15, 0, .rw, 0x0, none⟩]⟩,
    ⟨"RM_WAYWALK", 0x24, [], false, false,
      [⟨15, 0, .ro, 0x0, none⟩]⟩,
    ⟨"RM_FILL_TIMEOUT", 0x30, [], false, true,
      [⟨9, 0, .rw, 0x32, some (1, 1000)⟩]⟩,
    ⟨"RM_TAG_CE", 0x40, [], false, false,
      [⟨15, 0, .rc, 0x0, none⟩]⟩,
    ⟨"RM_TAG_UE", 0x44, [], false, false,
      [⟨15, 0, .rc, 0x0, none⟩]⟩,
    ⟨"RM_UE_SET", 0x48, [], false, false,
      [⟨14, 0, .ro, 0x0, none⟩]⟩,
    ⟨"RM_UE_WAY", 0x4c, [], false, false,
      [⟨3, 0, .ro, 0x0, none⟩]⟩,
    ⟨"RM_MISMATCH", 0x50, [], false, false,
      [⟨15, 0, .rc, 0x0, none⟩]⟩ ]

def regs_400000_1 : List RegDef :=
  [ ⟨"RM_STALE_DROP", 0x54, [], false, false,
      [⟨15, 0, .rc, 0x0, none⟩]⟩,
    ⟨"RM_LATE_FILL", 0x58, [], false, false,
      [⟨15, 0, .rc, 0x0, none⟩]⟩,
    ⟨"RM_NO_WAY", 0x5c, [], false, false,
      [⟨15, 0, .rc, 0x0, none⟩]⟩,
    ⟨"RM_WAYCE", 0x80, [(16, 0x4)], false, false,
      [⟨15, 0, .rc, 0x0, none⟩]⟩,
    ⟨"RM_ROWMAP", 0x100, [(64, 0x4)], false, true,
      [⟨8, 0, .rw, 0x0, none⟩, ⟨15, 15, .rw, 0x0, none⟩]⟩,
    ⟨"RM_WB_CTRL", 0x34, [], false, true,
      [⟨7, 0, .rw, 0x8, some (0, 255)⟩, ⟨14, 8, .rw, 0x30, some (1, 64)⟩]⟩,
    ⟨"RM_WB_USED", 0x60, [], false, false,
      [⟨6, 0, .ro, 0x0, none⟩]⟩,
    ⟨"RM_WB_PEAK", 0x64, [], false, false,
      [⟨6, 0, .rc, 0x0, none⟩]⟩,
    ⟨"RM_WB_WAIT", 0x68, [], false, false,
      [⟨15, 0, .rc, 0x0, none⟩]⟩,
    ⟨"RM_WB_RMW", 0x6c, [], false, false,
      [⟨15, 0, .rc, 0x0, none⟩]⟩,
    ⟨"MUD_CTRL", 0x200, [], false, true,
      [⟨7, 0, .rw, 0x20, some (0, 255)⟩, ⟨13, 8, .rw, 0x18, some (1, 32)⟩]⟩,
    ⟨"MUD_USED", 0x204, [], false, false,
      [⟨5, 0, .ro, 0x0, none⟩]⟩ ]

def regs_400000_2 : List RegDef :=
  [ ⟨"MUD_RESCUE", 0x208, [], false, false,
      [⟨15, 0, .rc, 0x0, none⟩]⟩,
    ⟨"MUD_MERGE", 0x20c, [], false, false,
      [⟨15, 0, .rc, 0x0, none⟩]⟩,
    ⟨"MUD_WAIT", 0x210, [], false, false,
      [⟨15, 0, .rc, 0x0, none⟩]⟩,
    ⟨"MUD_LOST", 0x214, [], false, false,
      [⟨15, 0, .rc, 0x0, none⟩]⟩,
    ⟨"SCN_CTRL", 0x300, [], false, true,
      [⟨9, 0, .rw, 0x14, some (1, 1000)⟩]⟩,
    ⟨"SCN_EVICT", 0x304, [], false, false,
      [⟨15, 0, .rc, 0x0, none⟩]⟩,
    ⟨"SCN_PARITY", 0x308, [], false, false,
      [⟨15, 0, .rc, 0x0, none⟩]⟩,
    ⟨"SCN_TIMEOUT", 0x30c, [], false, false,
      [⟨15, 0, .rc, 0x0, none⟩]⟩,
    ⟨"SCN_SNOOPS", 0x310, [], false, false,
      [⟨15, 0, .rc, 0x0, none⟩]⟩,
    ⟨"DIR_CTRL", 0x340, [], false, true,
      [⟨7, 0, .rw, 0x5, some (1, 255)⟩]⟩,
    ⟨"DIR_TIMEOUT", 0x344, [], false, true,
      [⟨9, 0, .rw, 0x32, some (1, 1000)⟩]⟩,
    ⟨"DIR_EVICT", 0x348, [], false, false,
      [⟨15, 0, .rc, 0x0, none⟩]⟩ ]

def regs_400000_3 : List RegDef :=
  [ ⟨"DIR_SNOOPS", 0x34c, [], false, false,
      [⟨15, 0, .rc, 0x0, none⟩]⟩,
    ⟨"DIR_CE", 0x350, [], false, false,
      [⟨15, 0, .rc, 0x0, none⟩]⟩,
    ⟨"DIR_LOST", 0x354, [], false, false,
      [⟨15, 0, .rc, 0x0, none⟩]⟩,
    ⟨"DIR_UNKNOWN", 0x358, [], false, false,
      [⟨15, 0, .rc, 0x0, none⟩]⟩,
    ⟨"RM_COH_BUSY", 0x380, [], false, false,
      [⟨6, 0, .ro, 0x0, none⟩]⟩,
    ⟨"RM_COH_PEAK", 0x384, [], false, false,
      [⟨6, 0, .rc, 0x0, none⟩]⟩,
    ⟨"RM_COH_STATUS", 0x388, [], false, false,
      [⟨0, 0, .ro, 0x0, none⟩, ⟨1, 1, .ro, 0x0, none⟩, ⟨2, 2, .ro, 0x0, none⟩, ⟨3, 3, .ro, 0x0, none⟩]⟩,
    ⟨"RM_RSV_USED", 0x3c0, [], false, false,
      [⟨4, 0, .ro, 0x0, none⟩]⟩,
    ⟨"RM_RSV_BREAK", 0x3c4, [], false, false,
      [⟨15, 0, .rc, 0x0, none⟩]⟩,
    ⟨"RM_RSV_DISPLACE", 0x3c8, [], false, false,
      [⟨15, 0, .rc, 0x0, none⟩]⟩,
    ⟨"RM_RETIRE_SET", 0x400, [(8, 0x8)], false, false,
      [⟨14, 0, .ro, 0x0, none⟩, ⟨15, 15, .ro, 0x0, none⟩]⟩,
    ⟨"RM_RETIRE_WAY", 0x404, [(8, 0x8)], false, false,
      [⟨3, 0, .ro, 0x0, none⟩]⟩ ]

def regs_400000_4 : List RegDef :=
  [ ⟨"RM_SWEEP_LEFT", 0x440, [], false, false,
      [⟨15, 0, .ro, 0x0, none⟩]⟩,
    ⟨"RM_SWEEP_WB", 0x444, [], false, false,
      [⟨15, 0, .rc, 0x0, none⟩]⟩,
    ⟨"RM_SWEEP_POISON", 0x448, [], false, false,
      [⟨15, 0, .rc, 0x0, none⟩]⟩,
    ⟨"RM_QUOTA_BYPASS", 0x70, [], false, false,
      [⟨15, 0, .rc, 0x0, none⟩]⟩,
    ⟨"RM_TRIM_EVICT", 0x74, [], false, false,
      [⟨15, 0, .rc, 0x0, none⟩]⟩,
    ⟨"RM_TRIM_SET", 0x78, [], false, false,
      [⟨14, 0, .ro, 0x0, none⟩, ⟨15, 15, .ro, 0x0, none⟩]⟩,
    ⟨"PMC_CYCLE_LO", 0x600, [], false, false,
      [⟨31, 0, .ro, 0x0, none⟩]⟩,
    ⟨"PMC_CYCLE_HI", 0x604, [], false, false,
      [⟨15, 0, .ro, 0x0, none⟩, ⟨31, 31, .ro, 0x0, none⟩]⟩,
    ⟨"PMC_CTL", 0x640, [(8, 0x20)], false, true,
      [⟨5, 0, .rw, 0x0, none⟩, ⟨6, 6, .rw, 0x0, none⟩, ⟨7, 7, .rw, 0x0, none⟩, ⟨8, 8, .rw, 0x0, none⟩, ⟨9, 9, .rw, 0x0, none⟩, ⟨10, 10, .rw, 0x0, none⟩]⟩,
    ⟨"PMC_THR", 0x644, [(8, 0x20)], false, true,
      [⟨9, 0, .rw, 0x0, some (0, 512)⟩]⟩,
    ⟨"PMC_PRE", 0x648, [(8, 0x20), (3, 0x4)], false, true,
      [⟨15, 0, .rw, 0x0, none⟩]⟩,
    ⟨"PMC_CNT_LO", 0x658, [(8, 0x20)], false, false,
      [⟨31, 0, .ro, 0x0, none⟩]⟩ ]

def regs_400000_5 : List RegDef :=
  [ ⟨"PMC_CNT_HI", 0x65c, [(8, 0x20)], false, false,
      [⟨15, 0, .ro, 0x0, none⟩, ⟨31, 31, .ro, 0x0, none⟩]⟩ ]

def regs_800000_0 : List RegDef :=
  [ ⟨"TT_DIR", 0x0, [], false, false,
      [⟨0, 0, .rw, 0x0, none⟩, ⟨13, 8, .rw, 0x0, none⟩]⟩ ]

def regs_801000_0 : List RegDef :=
  [ ⟨"TT_MAP", 0x0, [(98, 0x400), (192, 0x4)], false, false,
      [⟨19, 0, .rw, 0x0, none⟩, ⟨22, 20, .rw, 0x0, some (0, 6)⟩, ⟨31, 31, .rw, 0x0, none⟩]⟩ ]

def regs_820000_0 : List RegDef :=
  [ ⟨"TT_POOL", 0x0, [(1015808, 0x4)], false, false,
      [⟨31, 0, .rw, 0x0, none⟩]⟩ ]

def regs_c00000_0_0 : List RegDef :=
  [ ⟨"MTR_CTRL", 0x800, [], false, false,
      [⟨0, 0, .rw, 0x1, none⟩, ⟨27, 16, .rw, 0x3c, some (1, 3600)⟩]⟩,
    ⟨"MTR_SNAP", 0x804, [], false, false,
      [⟨0, 0, .rw, 0x0, none⟩]⟩,
    ⟨"MTR_STATUS", 0x808, [], false, false,
      [⟨0, 0, .ro, 0x0, none⟩, ⟨1, 1, .ro, 0x0, none⟩, ⟨2, 2, .ro, 0x0, none⟩, ⟨3, 3, .ro, 0x0, none⟩]⟩,
    ⟨"MTR_WIN_SEQ", 0x80c, [], false, false,
      [⟨31, 0, .ro, 0x0, none⟩]⟩,
    ⟨"MTR_WIN_START_LO", 0x810, [], false, false,
      [⟨31, 0, .ro, 0x0, none⟩]⟩,
    ⟨"MTR_WIN_START_HI", 0x814, [], false, false,
      [⟨31, 0, .ro, 0x0, none⟩]⟩,
    ⟨"MTR_WIN_END_LO", 0x818, [], false, false,
      [⟨31, 0, .ro, 0x0, none⟩]⟩,
    ⟨"MTR_WIN_END_HI", 0x81c, [], false, false,
      [⟨31, 0, .ro, 0x0, none⟩]⟩,
    ⟨"MTR_WIN_FLAGS", 0x820, [], false, false,
      [⟨0, 0, .ro, 0x0, none⟩, ⟨1, 1, .ro, 0x0, none⟩, ⟨2, 2, .ro, 0x0, none⟩, ⟨3, 3, .ro, 0x0, none⟩, ⟨4, 4, .ro, 0x0, none⟩]⟩,
    ⟨"MTR_ACK", 0x824, [], false, false,
      [⟨31, 0, .rw, 0x0, none⟩]⟩,
    ⟨"TNT_TRIM", 0x830, [], false, false,
      [⟨0, 0, .rw, 0x1, none⟩]⟩ ]

def regs_c00000_20_0 : List RegDef :=
  [ ⟨"TNT_CLS_CTRL", 0x0, [], false, false,
      [⟨0, 0, .rw, 0x0, none⟩, ⟨1, 1, .rw, 0x0, none⟩, ⟨3, 2, .rw, 0x0, none⟩, ⟨5, 4, .rw, 0x1, none⟩, ⟨8, 6, .rw, 0x0, some (0, 4)⟩, ⟨23, 16, .rw, 0x0, none⟩]⟩,
    ⟨"TNT_CLS_WAYS", 0x4, [], false, false,
      [⟨15, 0, .rw, 0x0, none⟩]⟩ ]

def regs_c10000_0 : List RegDef :=
  [ ⟨"TNT_CTRL", 0x0, [], false, false,
      [⟨0, 0, .rw, 0x0, none⟩, ⟨1, 1, .ro, 0x0, none⟩, ⟨15, 8, .rw, 0x0, none⟩]⟩,
    ⟨"TNT_QUOTA", 0x4, [], false, false,
      [⟨25, 0, .rw, 0x0, some (0, 33554432)⟩]⟩,
    ⟨"TNT_OCC", 0x8, [], false, false,
      [⟨25, 0, .ro, 0x0, none⟩]⟩,
    ⟨"TNT_OVER", 0xc, [], false, false,
      [⟨25, 0, .ro, 0x0, none⟩]⟩ ]

def regs_c20000_0 : List RegDef :=
  [ ⟨"TNT_KEY", 0x0, [(16, 0x4)], false, false,
      [⟨31, 0, .wo, 0x0, none⟩]⟩ ]

def regs_c60000_0 : List RegDef :=
  [ ⟨"MTR_METER", 0x0, [(10, 0x4)], false, false,
      [⟨31, 0, .ro, 0x0, none⟩]⟩ ]

def regs_1000000_0 : List RegDef :=
  [ ⟨"RGN_ATTR", 0x0, [], false, false,
      [⟨1, 0, .rw, 0x0, none⟩, ⟨2, 2, .rw, 0x0, none⟩, ⟨3, 3, .rw, 0x0, none⟩, ⟨4, 4, .rw, 0x0, none⟩]⟩,
    ⟨"RGN_TENANT", 0x4, [], false, false,
      [⟨11, 0, .rw, 0x0, none⟩, ⟨21, 16, .rw, 0x0, none⟩]⟩,
    ⟨"RGN_PLACE", 0x8, [], false, false,
      [⟨5, 0, .rw, 0x0, none⟩, ⟨13, 8, .rw, 0x0, none⟩, ⟨27, 16, .rw, 0x0, none⟩]⟩ ]

/-- Every block that has registers, in address order. -/
def blocks : List RegBlock :=
  [ ⟨0x0, 0x0, 1, regs_0_0 ++ regs_0_1 ++ regs_0_2 ++ regs_0_3 ++ regs_0_4⟩,
    ⟨0x10000, 0x0, 1, regs_10000_0 ++ regs_10000_1 ++ regs_10000_2⟩,
    ⟨0x12000, 0x0, 1, regs_12000_0⟩,
    ⟨0x20000, 0x0, 1, regs_20000_0⟩,
    ⟨0x30000, 0x0, 1, regs_30000_0 ++ regs_30000_1⟩,
    ⟨0x40000, 0x0, 1, regs_40000_0⟩,
    ⟨0x50000, 0x0, 1, regs_50000_0⟩,
    ⟨0x60000, 0x0, 1, regs_60000_0⟩,
    ⟨0x80000, 0x1000, 8, regs_80000_0 ++ regs_80000_1 ++ regs_80000_2⟩,
    ⟨0x100000, 0x1000, 16, regs_100000_0⟩,
    ⟨0x110000, 0x0, 1, regs_110000_0⟩,
    ⟨0x180000, 0x1000, 8, regs_180000_0 ++ regs_180000_1⟩,
    ⟨0x190000, 0x0, 1, regs_190000_0⟩,
    ⟨0x200000, 0x1000, 4, regs_200000_0⟩,
    ⟨0x400000, 0x10000, 64, regs_400000_0 ++ regs_400000_1 ++ regs_400000_2 ++ regs_400000_3 ++ regs_400000_4 ++ regs_400000_5⟩,
    ⟨0x800000, 0x10, 98, regs_800000_0⟩,
    ⟨0x801000, 0x0, 1, regs_801000_0⟩,
    ⟨0x820000, 0x0, 1, regs_820000_0⟩,
    ⟨0xc00000, 0x0, 1, regs_c00000_0_0⟩,
    ⟨0xc00000, 0x20, 64, regs_c00000_20_0⟩,
    ⟨0xc10000, 0x10, 4096, regs_c10000_0⟩,
    ⟨0xc20000, 0x40, 4096, regs_c20000_0⟩,
    ⟨0xc60000, 0x40, 4096, regs_c60000_0⟩,
    ⟨0x1000000, 0x40, 262144, regs_1000000_0⟩ ]

end RegTable
end Sys2Proof.Machine
end

