-- ==== Sys2Proof/Machine/Ops.lean ====
section
/-! DEFINITION. The named operations over the stores and the registers: every command writes the stores only
through `StoreOp`; register conduct; counters; events; the slots of the Timetable. -/
namespace Sys2Proof.Machine
open Sys2Proof

/-! ## Register table lookup -/

/-- `rel` is an exact multiple of the strides of `arr`, with every index below its count. -/
def arrFits : List (Nat × Nat) → Nat → Bool
  | [], rel => rel == 0
  | (n, s) :: r, rel => decide (rel / s < n) && arrFits r (rel % s)

def RegDef.fits (d : RegDef) (rel : Nat) : Bool :=
  decide (d.off ≤ rel) && arrFits d.arr (rel - d.off)

/-- The offset of `a` within its instance of the block. -/
def RegBlock.rel (b : RegBlock) (a : Nat) : Option Nat :=
  if a < b.base then none
  else if b.stride = 0 then some (a - b.base)
  else if (a - b.base) / b.stride < b.count then some ((a - b.base) % b.stride)
  else none

def RegBlock.find (b : RegBlock) (a : Nat) : Option RegDef :=
  match b.rel a with
  | some rel => b.regs.find? fun d => d.fits rel
  | none => none

/-- The register at byte address `a` of the management window, if the map assigns one (R452, R514). -/
def regDef (a : Nat) : Option RegDef := RegTable.blocks.findSome? fun b => b.find a

def RegField.mask (f : RegField) : Nat := (2 ^ (f.hi + 1 - f.lo) - 1) <<< f.lo
def RegField.get (f : RegField) (v : Nat) : Nat := bitsOf v f.hi f.lo

/-- The bits of a register that its fields of the given codes take. -/
def RegDef.maskOf (d : RegDef) (p : Acc → Bool) : Nat :=
  d.fields.foldl (fun acc f => if p f.acc then acc ||| f.mask else acc) 0

def RegDef.resetWord (d : RegDef) : Nat := d.fields.foldl (fun acc f => acc ||| (f.reset <<< f.lo)) 0

/-! ## The event table (R374) -/

/-- The kinds of R375. -/
inductive EvKind | f | h | c | none
deriving DecidableEq, Repr

/-- A row of R374: code, default severity, kind, and for counting mode N and the window (value, unit). -/
structure EvDef where
  code : Nat
  sev : Nat
  kind : EvKind := .none
  cnt : Option (Nat × Nat × Nat) := none
deriving DecidableEq, Repr

/-- Event codes by name. -/
structure Ev where
  code : Nat

namespace Code
def tagMismatch := 0x00
def noWay := 0x01
def fillTimeout := 0x02
def wayCe := 0x03
def wayDisabled := 0x04
def tagUe := 0x05
def tagRebuiltPoison := 0x06
def tagRebuilt := 0x07
def plruParity := 0x08
def tagState := 0x09
def pantryUe := 0x0A
def snoopProtocol := 0x0B
def scnParity := 0x0C
def snoopTimeout := 0x0D
def dirUe := 0x0E
def protocolErr := 0x0F
def snoopLost := 0x10
def lostOwner := 0x11
def lostWrite := 0x12
def lostWriteback := 0x13
def twinLost := 0x14
def blockRetired := 0x15
def regionMismatch := 0x16
def roomFail := 0x17
def wgFail := 0x18
def reqClosed := 0x30
def hostStall := 0x36
def reqTimeout := 0x37
def linkDown := 0x38
def porchFail := 0x39
def hostProtocol := 0x3A
def porchLostWrite := 0x3B
def drainLate := 0x3C
def csrAccessHost := 0x3D
def chSize := 0x40
def devHit := 0x41
def deviceMarked := 0x42
def deviceSecond := 0x43
def lineUeMinor := 0x44
def lineUeMajor := 0x45
def lineLost := 0x46
def remapFull := 0x47
def rankUe := 0x48
def chFail := 0x49
def twinDegraded := 0x4A
def sweepUnknown := 0x4B
def tcr2x := 0x4C
def slotUe := 0x4D
def fecUe := 0x50
def laneDegrade := 0x51
def frameBad := 0x52
def cableMismatch := 0x53
def doorFail := 0x54
def ackTimeout := 0x55
def routeLoop := 0x60
def noRoute := 0x61
def seqGap := 0x62
def houseDead := 0x63
def timeFar := 0x68
def timeHoldover := 0x69
def scrubSlow := 0x70
def selftestFail := 0x78
def csrAccess := 0x80
def writeOnce := 0x81
def illegalWrite := 0x82
def windowBad := 0x83
def regionBad := 0x84
def classBad := 0x85
def tenantBad := 0x86
def keyAbandon := 0x87
def meterBusy := 0x88
def pantryClosed := 0x89
def unfenceRefused := 0x8A
def hlwFail := 0x90
def ttBad := 0x94
def ttFail := 0x95
def hashRank := 0x98
def cfgCrc := 0x99
def lchLease := 0x9C
def lchParity := 0x9D
def clkLoss := 0xA0
def thermWarn := 0xA4
def thermTrip := 0xA5
def supplyLow := 0xA8
def imgAuth := 0xAC
def imgTimeout := 0xAD
def mgLinkDown := 0xB0
def winOn := 0xB4
end Code

/-- R374, row by row in code order: severities 0 Note, 1 Minor, 2 Major, 3 Fatal; window units 0 µs, 1 ms, 2 s. -/
def evTable : List EvDef :=
  [⟨0x00, 1, .none, none⟩, ⟨0x01, 1, .none, none⟩, ⟨0x02, 2, .c, none⟩, ⟨0x03, 0, .none, some (8, 1, 2)⟩,
   ⟨0x04, 1, .none, none⟩, ⟨0x05, 1, .none, none⟩, ⟨0x06, 2, .none, none⟩, ⟨0x07, 1, .none, none⟩,
   ⟨0x08, 0, .none, none⟩, ⟨0x09, 1, .none, none⟩, ⟨0x0A, 1, .none, none⟩, ⟨0x0B, 2, .none, none⟩,
   ⟨0x0C, 1, .none, none⟩, ⟨0x0D, 2, .c, none⟩, ⟨0x0E, 2, .f, none⟩, ⟨0x0F, 2, .none, none⟩,
   ⟨0x10, 2, .c, none⟩, ⟨0x11, 2, .none, none⟩, ⟨0x12, 2, .none, none⟩, ⟨0x13, 2, .none, none⟩,
   ⟨0x14, 2, .none, none⟩, ⟨0x15, 1, .none, none⟩, ⟨0x16, 1, .none, none⟩, ⟨0x17, 2, .f, none⟩,
   ⟨0x18, 3, .h, none⟩] ++
  [⟨0x30, 1, .none, none⟩, ⟨0x31, 1, .none, none⟩, ⟨0x32, 1, .none, none⟩, ⟨0x33, 1, .none, none⟩,
   ⟨0x34, 1, .none, none⟩, ⟨0x35, 1, .none, none⟩, ⟨0x36, 1, .none, none⟩, ⟨0x37, 3, .none, none⟩,
   ⟨0x38, 1, .none, none⟩, ⟨0x39, 2, .f, none⟩, ⟨0x3A, 1, .none, none⟩, ⟨0x3B, 2, .none, none⟩,
   ⟨0x3C, 1, .c, none⟩, ⟨0x3D, 1, .none, none⟩] ++
  [⟨0x40, 1, .none, none⟩, ⟨0x41, 0, .none, some (4, 1, 2)⟩, ⟨0x42, 1, .none, none⟩, ⟨0x43, 2, .none, none⟩,
   ⟨0x44, 1, .none, none⟩, ⟨0x45, 2, .none, none⟩, ⟨0x46, 2, .none, none⟩, ⟨0x47, 2, .none, none⟩,
   ⟨0x48, 1, .none, some (8, 10, 1)⟩, ⟨0x49, 2, .f, none⟩, ⟨0x4A, 2, .none, none⟩, ⟨0x4B, 3, .none, none⟩,
   ⟨0x4C, 0, .none, none⟩, ⟨0x4D, 0, .none, none⟩] ++
  [⟨0x50, 0, .none, some (16, 1, 1)⟩, ⟨0x51, 1, .none, none⟩, ⟨0x52, 1, .none, none⟩, ⟨0x53, 1, .none, none⟩,
   ⟨0x54, 2, .f, none⟩, ⟨0x55, 0, .c, none⟩,
   ⟨0x60, 1, .none, none⟩, ⟨0x61, 1, .c, none⟩, ⟨0x62, 2, .c, none⟩, ⟨0x63, 2, .none, none⟩,
   ⟨0x68, 1, .none, none⟩, ⟨0x69, 1, .c, none⟩, ⟨0x70, 1, .none, none⟩, ⟨0x78, 1, .none, none⟩] ++
  [⟨0x80, 1, .none, none⟩, ⟨0x81, 1, .none, none⟩, ⟨0x82, 1, .none, none⟩, ⟨0x83, 1, .none, none⟩,
   ⟨0x84, 1, .none, none⟩, ⟨0x85, 1, .none, none⟩, ⟨0x86, 1, .none, none⟩, ⟨0x87, 1, .none, none⟩,
   ⟨0x88, 1, .none, none⟩, ⟨0x89, 1, .none, none⟩, ⟨0x8A, 1, .none, none⟩,
   ⟨0x90, 3, .h, none⟩, ⟨0x94, 1, .none, none⟩, ⟨0x95, 3, .h, none⟩, ⟨0x98, 1, .none, none⟩,
   ⟨0x99, 2, .none, none⟩, ⟨0x9C, 1, .none, none⟩, ⟨0x9D, 2, .none, none⟩, ⟨0xA0, 3, .h, none⟩,
   ⟨0xA4, 0, .none, none⟩, ⟨0xA5, 3, .h, none⟩, ⟨0xA8, 3, .h, none⟩, ⟨0xAC, 1, .none, none⟩,
   ⟨0xAD, 1, .none, none⟩, ⟨0xB0, 1, .none, none⟩, ⟨0xB4, 0, .none, none⟩]

def evDef (code : Nat) : Option EvDef := evTable.find? fun e => e.code == code

/-- The word FBX_EVCFGe resets to (R376, R403); 0 for a code that is not assigned. -/
def evCfgReset (code : Nat) : Nat :=
  match evDef code with
  | some ⟨_, sev, _, some (n, w, u)⟩ => sev ||| 4 ||| (n <<< 4) ||| (w <<< 16) ||| (u <<< 24)
  | some ⟨_, sev, _, none⟩ => sev
  | none => 0

/-! ## Reset words and implemented bits -/

/-- What a register word reads as after reset when nothing has been stored in it. -/
def regReset (a : Nat) : Word :=
  if 0x11000 ≤ a ∧ a < 0x113FC then w32 (evCfgReset ((a - 0x11000) / 4))
  else match regDef a with
    | some d => w32 d.resetWord
    | none => 0

/-- The implemented bits of a register word (R452). FBX_EVCFGe of an unassigned code has none (R403), and
word 0 of the tenant table's entry 0 is never used (R352). -/
def regMask (a : Nat) : Word :=
  if 0x11000 ≤ a ∧ a < 0x113FC ∧ evDef ((a - 0x11000) / 4) = none then 0
  else if 0xC10000 ≤ a ∧ a < 0xC10010 then 0
  else match regDef a with
    | some d => w32 (d.maskOf fun _ => true)
    | none => 0

/-! ## Store operations -/

/-- The tables that a range of keys can be removed from. -/
inductive Tbl
  | regs | dram | remap | tags | plru | scn | dir | keys | pmc | pmcPrev | hist | mtr | occ | occFt | frames | pan
deriving DecidableEq, Repr

/-- Every way a command can change the stores. -/
inductive StoreOp
  | reg (a : Nat) (v : Word)
  | dram (k : Nat) (v : Line)
  | remap (k : Nat) (v : Line)
  | tag (k : Nat) (v : TagEnt)
  | plru (k : Nat) (v : BitVec 16)
  | scn (k : Nat) (v : ScnEnt)
  | dir (k : Nat) (v : DirEnt)
  | key (k : Nat) (v : Word)
  | pmc (k : Nat) (v : BitVec 49)
  | pmcPrev (k : Nat) (v : Bool)
  | hist (k : Nat) (v : BitVec 49)
  | mtr (k : Nat) (v : BitVec 64)
  | occ (k : Nat) (v : Nat)
  | occFt (k : Nat) (v : Nat)
  | frame (k : Nat) (v : Word)
  | pan (k : Nat) (v : Bool)
  | drop (t : Tbl) (lo hi : Nat)
deriving DecidableEq, Repr

/-- A line that nothing has written reads as the Unwritten pattern (log entry 7, DESIGN CHOICE; R253). -/
def Line.unwritten : Line := {}

/-- Carry out one store operation. A register keeps only its implemented bits. -/
def Stores.apply (m : Stores) : StoreOp → Stores
  | .reg a v => { m with regs := mset (regReset a) m.regs a (v &&& regMask a) }
  | .dram k v => { m with dram := mset Line.unwritten m.dram k v }
  | .remap k v => { m with remap := mset Line.unwritten m.remap k v }
  | .tag k v => { m with tags := mset {} m.tags k v }
  | .plru k v => { m with plru := mset 0 m.plru k v }
  | .scn k v => { m with scn := mset {} m.scn k v }
  | .dir k v => { m with dir := mset {} m.dir k v }
  | .key k v => { m with keys := mset 0 m.keys k v }
  | .pmc k v => { m with pmc := mset 0 m.pmc k v }
  | .pmcPrev k v => { m with pmcPrev := mset false m.pmcPrev k v }
  | .hist k v => { m with hist := mset 0 m.hist k v }
  | .mtr k v => { m with mtr := mset 0 m.mtr k v }
  | .occ k v => { m with occ := mset 0 m.occ k v }
  | .occFt k v => { m with occFt := mset 0 m.occFt k v }
  | .frame k v => { m with frames := mset 0 m.frames k v }
  | .pan k v => { m with pan := mset false m.pan k v }
  | .drop .regs lo hi => { m with regs := mdrop lo hi m.regs }
  | .drop .dram lo hi => { m with dram := mdrop lo hi m.dram }
  | .drop .remap lo hi => { m with remap := mdrop lo hi m.remap }
  | .drop .tags lo hi => { m with tags := mdrop lo hi m.tags }
  | .drop .plru lo hi => { m with plru := mdrop lo hi m.plru }
  | .drop .scn lo hi => { m with scn := mdrop lo hi m.scn }
  | .drop .dir lo hi => { m with dir := mdrop lo hi m.dir }
  | .drop .keys lo hi => { m with keys := mdrop lo hi m.keys }
  | .drop .pmc lo hi => { m with pmc := mdrop lo hi m.pmc }
  | .drop .pmcPrev lo hi => { m with pmcPrev := mdrop lo hi m.pmcPrev }
  | .drop .hist lo hi => { m with hist := mdrop lo hi m.hist }
  | .drop .mtr lo hi => { m with mtr := mdrop lo hi m.mtr }
  | .drop .occ lo hi => { m with occ := mdrop lo hi m.occ }
  | .drop .occFt lo hi => { m with occFt := mdrop lo hi m.occFt }
  | .drop .frames lo hi => { m with frames := mdrop lo hi m.frames }
  | .drop .pan lo hi => { m with pan := mdrop lo hi m.pan }

def Stores.applyAll (m : Stores) (os : List StoreOp) : Stores := os.foldl Stores.apply m

/-! ## A command at work -/

/-- A command at work: the control state and the stores as they stand, and the store operations carried out so
far, newest first. -/
structure Run where
  c : Ctl
  m : Stores
  log : List StoreOp := []

def Run.start (s : State) : Run := ⟨s.c, s.m, []⟩

/-- The state a command leaves: its control state, the stores with its store operations applied in order, and
the queue as it was. -/
def Run.finish (s : State) (r : Run) : State := ⟨r.c, s.m.applyAll r.log.reverse, s.pending⟩

def Run.st (r : Run) (o : StoreOp) : Run := ⟨r.c, r.m.apply o, o :: r.log⟩

/-- Run `f` over a list, in order. -/
def Run.forEach {α : Type} (r : Run) (xs : List α) (f : α → Run → Run) : Run := xs.foldl (fun r x => f x r) r

/-- `f` when `b` holds. -/
def Run.when (r : Run) (b : Bool) (f : Run → Run) : Run := if b then f r else r

/-! ## Registers -/

def Stores.reg (m : Stores) (a : Nat) : Word := mget (regReset a) m.regs a
def Run.reg (r : Run) (a : Nat) : Nat := (r.m.reg a).toNat
def Run.fld (r : Run) (a hi lo : Nat) : Nat := bitsOf (r.reg a) hi lo
def Run.bit (r : Run) (a i : Nat) : Bool := (r.reg a).testBit i
def Run.setReg (r : Run) (a v : Nat) : Run := r.st (.reg a (w32 v))

/-- Add to a count field that takes a whole word, saturating (R457). -/
def Run.count32 (r : Run) (a n : Nat) : Run := r.setReg a (min 0xFFFFFFFF (r.reg a + n))
/-- Add to a 16-bit count, saturating at 0xFFFF (R100). -/
def Run.count16 (r : Run) (a n : Nat) : Run := r.setReg a (min 0xFFFF (r.reg a + n))
/-- Raise a peak register. -/
def Run.peak (r : Run) (a v : Nat) : Run := if r.reg a < v then r.setReg a v else r

/-- Block bases of R11 and R514. -/
def pchBase (p : Nat) : Nat := 0x80000 + p * 0x1000
def celBase (c : Nat) : Nat := 0x100000 + c * 0x1000
def dorBase (d : Nat) : Nat := 0x180000 + d * 0x1000
def rmBase (m : Nat) : Nat := 0x400000 + m * 0x10000

def Run.rmCount (r : Run) (m : Fin 64) (off n : Nat) : Run := r.count16 (rmBase m + off) n
def Run.pchCount (r : Run) (p : Fin 8) (off n : Nat) : Run := r.count32 (pchBase p + off) n

/-- A word from its fields: (low bit, value). -/
def packWord (fs : List (Nat × Nat)) : Nat := fs.foldl (fun v f => v ||| (f.2 <<< f.1)) 0

/-! ## Parts of the control state -/

def Run.room (r : Run) (m : Fin 64) : Room := r.c.rooms[m]
def Run.setRoom (r : Run) (m : Fin 64) (x : Room) : Run :=
  { r with c := { r.c with rooms := r.c.rooms.set m.val x m.isLt } }
def Run.modRoom (r : Run) (m : Fin 64) (f : Room → Room) : Run := r.setRoom m (f (r.room m))
def Run.porch (r : Run) (p : Fin 8) : Porch := r.c.porches[p]
def Run.setPorch (r : Run) (p : Fin 8) (x : Porch) : Run :=
  { r with c := { r.c with porches := r.c.porches.set p.val x p.isLt } }
def Run.modPorch (r : Run) (p : Fin 8) (f : Porch → Porch) : Run := r.setPorch p (f (r.porch p))
def Run.link (r : Run) (p : Fin 8) (k : Fin 2) : Link := (r.porch p).links[k]
def Run.modLink (r : Run) (p : Fin 8) (k : Fin 2) (f : Link → Link) : Run :=
  r.modPorch p fun x => { x with links := x.links.set k.val (f x.links[k]) k.isLt }
def Run.chan (r : Run) (c : Fin 16) : Chan := r.c.chans[c]
def Run.setChan (r : Run) (c : Fin 16) (x : Chan) : Run :=
  { r with c := { r.c with chans := r.c.chans.set c.val x c.isLt } }
def Run.modChan (r : Run) (c : Fin 16) (f : Chan → Chan) : Run := r.setChan c (f (r.chan c))
def Run.door (r : Run) (d : Fin 8) : Door := r.c.doors[d]
def Run.setDoor (r : Run) (d : Fin 8) (x : Door) : Run :=
  { r with c := { r.c with doors := r.c.doors.set d.val x d.isLt } }
def Run.modDoor (r : Run) (d : Fin 8) (f : Door → Door) : Run := r.setDoor d (f (r.door d))
def Run.modFab (r : Run) (f : Fabric → Fabric) : Run := { r with c := { r.c with fab := f r.c.fab } }
def Run.modFbx (r : Run) (f : Fbx → Fbx) : Run := { r with c := { r.c with fbx := f r.c.fbx } }
def Run.modTt (r : Run) (f : Tt → Tt) : Run := { r with c := { r.c with tt := f r.c.tt } }
def Run.modMod (r : Run) (f : Mod → Mod) : Run := { r with c := { r.c with mod := f r.c.mod } }
def Run.modImg (r : Run) (f : Img → Img) : Run := { r with c := { r.c with img := f r.c.img } }
def Run.modTime (r : Run) (f : Time → Time) : Run := { r with c := { r.c with time := f r.c.time } }
def Run.modThm (r : Run) (f : Thm → Thm) : Run := { r with c := { r.c with thm := f r.c.thm } }
def Run.modMtr (r : Run) (f : Mtr → Mtr) : Run := { r with c := { r.c with mtr := f r.c.mtr } }
def Run.modCrc (r : Run) (f : CrcEng → CrcEng) : Run := { r with c := { r.c with crc := f r.c.crc } }
def Run.modOut (r : Run) (f : Out → Out) : Run := { r with c := { r.c with out := f r.c.out } }

/-- The core passes a packet of `n` words into a crossing that it writes, or takes one from a crossing that it reads
(R489). -/
def Run.cross (r : Run) (i : XingId) (n : Nat) : Run :=
  { r with c := { r.c with xings := r.c.xings.mod i fun x => x.send n } }
def Run.took (r : Run) (i : XingId) (n : Nat) : Run :=
  { r with c := { r.c with xings := r.c.xings.mod i fun x => x.took n } }
/-- The full flag of a crossing (R33, R216). -/
def Run.xingFull (r : Run) (i : XingId) : Bool := (r.c.xings.get i).full i.depth

/-- A message leaves on a host link. -/
def Run.toHost (r : Run) (h : HostMsg) : Run :=
  { r with c := { r.c with xings := r.c.xings.out h, out := { r.c.out with host := r.c.out.host ++ [h] } } }

def allRooms : List (Fin 64) := List.finRange 64
def allPorches : List (Fin 8) := List.finRange 8
def allChans : List (Fin 16) := List.finRange 16

/-! ## Time -/

/-- The core's copy of FT in whole nanoseconds, from which every stamp is taken (R8, R491). -/
def Ctl.ftNs (c : Ctl) : Nat := c.ftCore / 10 ^ 10
/-- FT in whole nanoseconds, as TIM_FT_LO and TIM_FT_HI show it (R314; log entry 8, DESIGN CHOICE). -/
def Run.timFt (r : Run) : Nat := r.c.ft / 10 ^ 10
def Run.ftNs (r : Run) : Nat := r.c.ftNs
/-- `n` microseconds, in the units of `now`. -/
def usec (n : Nat) : Nat := n * 10000
def msec (n : Nat) : Nat := n * 10000000
/-- One core cycle, in the units of `now` (R7). -/
def Ctl.ccLen (c : Ctl) : Nat := if c.fuses.grade then 10 else 8
def Run.now (r : Run) : Nat := r.c.now

/-! ## Units, fences, modes -/

def unitRoom (m : Fin 64) : UnitNo := m
def unitChan (c : Fin 16) : UnitNo := 64 + c
def unitDoor (d : Fin 8) : UnitNo := 80 + d
def unitPorch (p : Fin 8) : UnitNo := 88 + p
def unitHouse (e : BitVec 6) : UnitNo := 128 + e.toNat

def Ctl.fencedU (c : Ctl) (u : UnitNo) : Bool := c.fbx.fenced.getLsbD u
def Run.fenced (r : Run) (u : UnitNo) : Bool := r.c.fencedU u
def Run.mode (r : Run) : Mode := r.c.mod.mode

/-- The encoding of R13. -/
def Mode.code : Mode → Nat
  | .off => 0 | .aux => 1 | .load => 2 | .check => 3 | .fill => 4 | .pantry => 5 | .join => 6 | .run => 7
  | .degraded => 8 | .drain => 9 | .safe => 10 | .window => 11
def Mode.ofCode (n : Nat) : Option Mode :=
  [Mode.off, .aux, .load, .check, .fill, .pantry, .join, .run, .degraded, .drain, .safe, .window][n]?

/-- The fabric runs in this mode. -/
def Mode.fabric (m : Mode) : Bool :=
  m = .join || m = .run || m = .degraded || m = .drain || m = .window || m = .safe

/-- This House's device ID (R35). -/
def Run.myId (r : Run) : BitVec 6 := BitVec.ofNat 6 (r.fld 0x10 5 0)

/-! ## Events -/

/-- The unit that reports under a source and sub (R373): none for the sources that no fence covers. -/
def evUnit (src sub : Nat) : Option UnitNo :=
  if src < 4 then some (16 * src + sub)
  else if src < 20 then some (64 + (src - 4))
  else if src < 28 then some (88 + (src - 20))
  else if src < 36 then some (80 + (src - 28))
  else none

/-- CAUSE of an event whose own name says it: 2 STATE, 4 TIMEOUT, 5 PARITY, 6 PROTOCOL, 7 LINK (R373; log entry 120,
DEDUCED). -/
def evCause (code : Nat) : Nat :=
  if code = Code.tagState then 2
  else if [Code.fillTimeout, Code.snoopTimeout, Code.reqTimeout, Code.ackTimeout, Code.imgTimeout].contains code then 4
  else if [Code.plruParity, Code.scnParity, Code.lchParity].contains code then 5
  else if [Code.snoopProtocol, Code.protocolErr, Code.hostProtocol].contains code then 6
  else if [Code.linkDown, Code.mgLinkDown].contains code then 7
  else 0

/-- ACCESS of an event whose own name says it: 2 write, 3 fill, 4 write-back, 5 snoop. -/
def evAccess (code : Nat) : Nat :=
  if [Code.lostWrite, Code.porchLostWrite].contains code then 2
  else if code = Code.fillTimeout then 3
  else if code = Code.lostWriteback then 4
  else if [Code.snoopProtocol, Code.snoopTimeout, Code.snoopLost].contains code then 5
  else 0

/-- The event as it is reported now: an injected one carries what the injection gives (R392). -/
def Run.stamped (r : Run) (e : Event) : Event :=
  { e with stamp := r.ftNs, det := r.c.now, cause := if e.cause = 0 && !e.inj then evCause e.code else e.cause,
           access := if e.access = 0 && !e.inj then evAccess e.code else e.access }

/-- Report an event (R373), stamped now. The events of a fenced unit are discarded and counted (R383). LINE_LOST and
TWIN_DEGRADED tell what becomes of a fenced channel's lines (R268): they are not the channel's own reports (log
entry 20). -/
def Run.report (r : Run) (e : Event) : Run :=
  let masked := e.code ≠ Code.wgFail && e.code ≠ Code.lineLost && e.code ≠ Code.twinDegraded && match evUnit e.src e.sub with
    | some u => r.fenced u
    | none => false
  if masked then r.count32 0x10020 1
  else r.modFbx fun f => { f with reported := f.reported ++ [r.stamped e] }

def Run.rmEvent (r : Run) (m : Fin 64) (code : Nat) (addr : Option PoolAddr := none) (key cause : Nat := 0)
    (path : List UnitNo := []) : Run :=
  r.report { code := code, src := m.val / 16, sub := m.val % 16, key := key, cause := cause, addr := addr,
             mKind := 2, mId := m, path := path }

def Run.pchEvent (r : Run) (p : Fin 8) (k : Nat) (code : Nat) (addr : Option PoolAddr := none)
    (access : Nat := 0) (path : List UnitNo := []) : Run :=
  r.report { code := code, src := 20 + p, sub := k, addr := addr, mKind := 1, mId := p, access := access,
             path := path }

def Run.chEvent (r : Run) (c : Fin 16) (code : Nat) (addr : Option PoolAddr := none) (key cause : Nat := 0)
    (mKind mId access : Nat := 0) : Run :=
  r.report { code := code, src := 4 + c, key := key, cause := cause, addr := addr, mKind := mKind, mId := mId,
             access := access }

def Run.dorEvent (r : Run) (d : Fin 8) (code : Nat) (key cause : Nat := 0) (path : List UnitNo := []) : Run :=
  r.report { code := code, src := 28 + d, key := key, cause := cause, mKind := 3, mId := d, path := path }

/-- An event of a source that is no Room, Porch, channel or Door. -/
def Run.sysEvent (r : Run) (src code : Nat) (cause : Nat := 0) (addr : Option PoolAddr := none)
    (path : List UnitNo := []) (mKind mId : Nat := 0) : Run :=
  r.report { code := code, src := src, cause := cause, addr := addr, path := path, mKind := mKind, mId := mId }

/-- Who writes a register: a management port, or the image loader (R421). -/
inductive Writer | port (g : MgPort) | loader
deriving DecidableEq, Repr

def Writer.src : Writer → Nat
  | .port .a => 44
  | .port .b => 45
  | .loader => 43

def Run.wrEvent (r : Run) (w : Writer) (code : Nat) : Run :=
  r.report { code := code, src := w.src, mKind := 5, mId := (match w with | .port .b => 1 | _ => 0), access := 7 }

/-! ## Interrupts -/

def Run.mg (r : Run) : MgPort → Mg
  | .a => r.c.mgA
  | .b => r.c.mgB
def Run.modMg (r : Run) (g : MgPort) (f : Mg → Mg) : Run :=
  match g with
  | .a => { r with c := { r.c with mgA := f r.c.mgA } }
  | .b => { r with c := { r.c with mgB := f r.c.mgB } }

/-- Raise an MSI-X vector on both ports and set its cause in both copies (R449, R450). -/
def Mg.raise (v : Nat) (g : Mg) : Mg :=
  { g with cause := g.cause ||| BitVec.ofNat 9 (1 <<< v), msix := g.msix ++ [v] }
def Run.vector (r : Run) (v : Nat) : Run :=
  { r with c := { r.c with mgA := r.c.mgA.raise v, mgB := r.c.mgB.raise v } }

/-! ## The slots of the Timetable -/

def Run.mapEntry (r : Run) (t k : Nat) : Nat := r.reg (0x801000 + t * 0x400 + 4 * k)

/-- The record of calendar `k` of table `t` in slot `n`: its first word, and the second word of a Cellar command
record (R210, R215); none when the map entry is not valid. -/
def Run.record (r : Run) (t k n : Nat) : Option (Nat × Nat) :=
  let e := r.mapEntry t k
  if e.testBit 31 then
    let base := bitsOf e 19 0
    let i := n % (64 <<< bitsOf e 22 20)
    if 160 ≤ k ∧ k < 176 then
      some (r.reg (0x820000 + 4 * (base + 2 * i)), r.reg (0x820000 + 4 * (base + 2 * i + 1)))
    else some (r.reg (0x820000 + 4 * (base + i)), 0)
  else none

/-- The codes that a record names, owner first (R209). -/
def recCodes (w : Nat) : List Nat :=
  [bitsOf w 7 0, bitsOf w 15 8, bitsOf w 23 16, bitsOf w 31 24].filter fun c => c ≠ 0xFF

/-- The record of calendar `k` in the current slot of the running table. -/
def Run.curRecord (r : Run) (k : Nat) : Option (Nat × Nat) := r.record r.c.tt.cur k r.c.tt.slot.toNat

/-- The Timetable runs, and calendar `k` has not granted in this cc (R207). -/
def Run.unused (r : Run) (k : Nat) : Bool := r.c.tt.run && !(r.c.used.any fun u => u.1 == k)

/-- Calendar `k` grants this cc's slot to requester `code`: of the codes that its record names, the code is the first
that had work as the cc began (R217; log entry 9, DESIGN CHOICE). -/
def Run.canGrant (r : Run) (k code : Nat) : Bool := r.unused k && r.c.slots.contains (k, code)

/-- Calendar `k` grants in this cc. -/
def Run.grant (r : Run) (k : Nat) (code : Nat := 0xFF) : Run :=
  { r with c := { r.c with used := (k, code) :: r.c.used } }

/-- Calendar `k` passes an idle slot to one of its idle-slot users (R218): no code that its record names had work. -/
def Run.canIdle (r : Run) (k : Nat) : Bool := r.canGrant k 0xFF

/-- Calendar `k` has a slot in this cc, whoever it goes to. -/
def Run.hasSlot (r : Run) (k : Nat) : Bool := r.unused k && r.c.slots.any fun s => s.1 == k

/-- Run `f` in a slot that calendar `k` grants to `code`; without such a slot nothing happens. -/
def Run.inSlot (r : Run) (k code : Nat) (f : Run → Run) : Run :=
  if r.canGrant k code then f (r.grant k code) else r

/-- Bits of one address in a vector of Rooms: the covering Room of table FB-ROOM-m (R213). -/
def Run.cover (r : Run) (m : Fin 64) : Fin 64 :=
  ⟨r.fld (0x800000 + 16 * (2 + m.val)) 13 8 % 64, Nat.mod_lt _ (by decide)⟩

/-- The Room that serves the blocks whose Room hash names Room `m`: the covering Room while FB-ROOM-m runs
(R169, R225). -/
def Run.serving (r : Run) (m : Fin 64) : Fin 64 :=
  if r.c.tt.cur = 2 + m.val && r.fenced (unitRoom m) then r.cover m else m

/-- Counter `k` of Room `m` adds `n` (R497): past 2^48 − 1 it wraps and sets OVF, and with IRQ raises vector 8.
Counter 8 is the cycle counter. -/
def Run.pmcAdd (r : Run) (m : Fin 64) (k n : Nat) : Run :=
  let key := m.val * 9 + k
  let v := (mget 0 r.m.pmc key).toNat
  let c := v % 2 ^ 48 + n
  let wraps := decide (2 ^ 48 ≤ c)
  let ovf := if wraps then 2 ^ 48 else v / 2 ^ 48 * 2 ^ 48
  let r := r.st (.pmc key (BitVec.ofNat 49 (ovf + c % 2 ^ 48)))
  r.when (wraps && decide (k < 8) && r.bit (rmBase m + 0x640 + 0x20 * k) 10) fun r => r.vector 8

/-- The signal of counter k of Room m has the value `n` > 0 in this cc (R495). -/
def Run.pmcSignal (r : Run) (m : Fin 64) (k n : Nat) (edge : Bool) : Run :=
  let key := m.val * 9 + k
  let again := r.c.pulsed.contains key
  let r := if edge then if again then r else r.pmcAdd m k (if mget false r.m.pmcPrev key then 0 else 1) else r.pmcAdd m k n
  if again then r else { r with c := { r.c with pulsed := key :: r.c.pulsed } }

/-- Room performance event `code` happens `n` times in this cc (R495, R496). -/
def Run.pulse (r : Run) (m : Fin 64) (code : Nat) (n : Nat := 1) : Run :=
  if n = 0 || r.bit 0xF00 0 then r
  else r.forEach (List.range 8) fun k r =>
    let ctl := r.reg (rmBase m + 0x640 + 0x20 * k)
    if bitsOf ctl 5 0 = code && ctl.testBit 7 then r.pmcSignal m k n (ctl.testBit 6) else r

/-- The Window may show this code of a block in this cc (R507 group 2). -/
def Run.see (r : Run) (blk code : Nat) : Run := { r with c := { r.c with seen := (blk, code) :: r.c.seen } }

end Sys2Proof.Machine
end

