-- ==== Sys2Proof/Machine/Operands.lean ====
section
/-! DEFINITION. From a host address to a channel: pool address fields, the Floorplan hashes, the region, class
and tenant tables as a request reads them, window segments, HDM decoders, and the bytes of a line. -/
namespace Sys2Proof.Machine
open Sys2Proof

/-! ## Pool addresses (R34) -/

def paDev (a : PoolAddr) : BitVec 6 := a.extractLsb' 42 6
def paRegion (a : PoolAddr) : BitVec 18 := a.extractLsb' 30 18
def paBlock (a : PoolAddr) : Block := a.extractLsb' 12 36
def paLineNo (a : PoolAddr) : Fin 16 := (a.extractLsb' 8 4).toFin
def paLine (a : PoolAddr) : BitVec 40 := a.extractLsb' 8 40
def paGran (a : PoolAddr) : BitVec 38 := a.extractLsb' 10 38
def paChunk (a : PoolAddr) : Nat := (a.extractLsb' 6 2).toNat
def blkPa (b : Block) : PoolAddr := b ++ 0#12
def linePa (l : BitVec 40) : PoolAddr := l ++ 0#8
def granPa (g : BitVec 38) : PoolAddr := g ++ 0#10
def lineBlk (l : BitVec 40) : Block := l.extractLsb' 4 36
def lineNo (l : BitVec 40) : Fin 16 := (l.extractLsb' 0 4).toFin
def blkLine (b : Block) (l : Fin 16) : BitVec 40 := b ++ BitVec.ofNat 4 l
/-- Offset of a block in its region. -/
def blkOff (b : Block) : Nat := b.toNat % 2 ^ 18
def blkRegion (b : Block) : BitVec 18 := b.extractLsb' 18 18

def allLines : List (Fin 16) := List.finRange 16

/-! ## Hashes (R49, R50) -/

/-- Parity of the low `fuel` bits of `n`. -/
def parity : Nat → Nat → Bool
  | 0, _ => false
  | k + 1, n => (n.testBit 0) != parity k (n / 2)

/-- The number whose bit k is `f k`, for k < n. -/
def gather : Nat → (Nat → Bool) → Nat
  | 0, _ => 0
  | k + 1, f => gather k f + b2n (f k) <<< k

/-- The 36-bit block mask of output bit k of the hash whose registers start at `base`. -/
def Run.blkMask (r : Run) (base k : Nat) : Nat := r.reg (base + 8 * k) ||| (r.fld (base + 8 * k + 4) 3 0 <<< 32)

def Run.blkHash (r : Run) (base n : Nat) (b : Block) : Nat :=
  gather n fun k => parity 36 (r.blkMask base k &&& b.toNat)

/-- The Room that the Room hash names for a block. -/
def Run.roomOf (r : Run) (b : Block) : Fin 64 := ⟨r.blkHash 0x800 6 b % 64, Nat.mod_lt _ (by decide)⟩
/-- The near-cache set of a block in its Room. -/
def Run.setOf (r : Run) (b : Block) : Nat := r.blkHash 0x840 15 b
/-- The Screen set of a granule in its Room. -/
def Run.scnSetOf (r : Run) (g : BitVec 38) : Nat :=
  gather 14 fun k =>
    parity 38 (((r.blkMask 0x8C0 k <<< 2) ||| r.fld (0x8C0 + 8 * k + 4) 5 4) &&& g.toNat)
/-- The 20-bit ordering identifier (R53). -/
def Run.ordId (r : Run) (p : Fin 8) (tenant : BitVec 12) (b : Block) : BitVec 20 :=
  BitVec.ofNat 20 ((p.val <<< 17) ||| gather 17 fun k =>
    parity 36 (r.blkMask 0x940 k &&& b.toNat) != parity 12 (r.fld (0x940 + 8 * k + 4) 27 16 &&& tenant.toNat))
/-- The rotation of a Cellar block. -/
def Run.rot (r : Run) (blk : Nat) : Nat := gather 4 fun k => parity 30 (r.reg (0x9D0 + 4 * k) &&& blk)

/-- A vector of the span of Room and set masks over pool address [31:12], reduced by the rows before it (R51). -/
def rankStep (rows : List Nat) (v : Nat) : List Nat :=
  let v := rows.foldl (fun v w => if v.testBit w.log2 then v ^^^ w else v) v
  if v = 0 then rows else rows ++ [v]

/-- Rank over GF(2) of the Room and set hashes on pool address [31:12] (R51). -/
def Run.hashRank (r : Run) : Nat :=
  let masks := (List.range 6).map (fun k => r.blkMask 0x800 k % 2 ^ 20) ++
    (List.range 15).map (fun k => r.blkMask 0x840 k % 2 ^ 20)
  (masks.foldl rankStep []).length

/-- Equations over pool address [31:12], one a number with the right-hand side in bit 20, in echelon form. -/
def eqStep (rows : List Nat) (v : Nat) : List Nat :=
  let v := rows.foldl (fun v w => if v.testBit (w % 2 ^ 20).log2 then v ^^^ w else v) v
  if v % 2 ^ 20 = 0 then rows
  else rows.map (fun w => if w.testBit (v % 2 ^ 20).log2 then w ^^^ v else w) ++ [v]

/-- The block address that a tag entry names (R51): pool address [47:32] is its tag, and [31:12] is what the
Room and set hashes map to its Room and set. -/
def Run.blockOf (r : Run) (m : Fin 64) (set : Nat) (tag : BitVec 16) : Block :=
  let hi := tag.toNat <<< 20
  let eqn (base k out : Nat) : Nat :=
    let mask := r.blkMask base k
    (mask % 2 ^ 20) ||| (b2n ((out.testBit k) != parity 36 (mask &&& hi)) <<< 20)
  let eqs := (List.range 6).map (fun k => eqn 0x800 k m.val) ++ (List.range 15).map (fun k => eqn 0x840 k set)
  let sol := eqs.foldl eqStep []
  let lo := sol.foldl (fun acc w => if w.testBit 20 then acc ||| (1 <<< (w % 2 ^ 20).log2) else acc) 0
  BitVec.ofNat 36 (hi ||| lo)

/-! ## Region, class and tenant tables (R40, R350, R352) -/

def rgnBase (n : BitVec 18) : Nat := 0x1000000 + n.toNat * 0x40

/-- A region entry. -/
structure Region where
  attr : Attr
  owner : BitVec 6
  twin : BitVec 6
  frame : Nat
deriving DecidableEq, Repr

/-- A region entry from its words 0, 1 and 2. -/
def Region.ofWords (w0 w1 w2 : Nat) : Region :=
  { attr := { kind := BitVec.ofNat 2 w0, mirror := w0.testBit 2, stream := w0.testBit 3, nearc := w0.testBit 4,
              tenant := BitVec.ofNat 12 w1, cls := BitVec.ofNat 6 (bitsOf w1 21 16) },
    owner := BitVec.ofNat 6 w2, twin := BitVec.ofNat 6 (bitsOf w2 13 8), frame := bitsOf w2 27 16 }

def Run.region (r : Run) (n : BitVec 18) : Region :=
  Region.ofWords (r.reg (rgnBase n)) (r.reg (rgnBase n + 4)) (r.reg (rgnBase n + 8))

/-- Device ID that is home to a region. -/
def rgnHome (n : BitVec 18) : BitVec 6 := n.extractLsb' 12 6

def kindDirect : BitVec 2 := 1
def kindPrivate : BitVec 2 := 2
def kindShared : BitVec 2 := 3

/-- R41 lets this House's Porches access the region. -/
def Run.porchMay (r : Run) (n : BitVec 18) (g : Region) : Bool :=
  if g.attr.kind = kindDirect then rgnHome n = r.myId
  else if g.attr.kind = kindPrivate then g.owner = r.myId && rgnHome n ≠ r.myId
  else g.attr.kind = kindShared

/-- Ways of each set that the House uses (R45). -/
def Run.nearWays (r : Run) : Nat := r.fld 0x400 20 16
def Run.chGib (r : Run) : Nat := r.fld 0x400 8 0
/-- CFG_HOME_FRAMES.FRAMES (R45). -/
def Run.homeFrames (r : Run) : Nat := 16 * r.chGib - 8 * r.nearWays

/-- The class table entry of class c (R350). -/
structure Cls where
  nearEn : Bool
  wthru : Bool
  prefetch : Nat
  lcode : BitVec 2
  rgran : Nat
  epoch : BitVec 8
  ways : BitVec 16
deriving DecidableEq, Repr

def clsBase (c : BitVec 6) : Nat := 0xC00000 + c.toNat * 0x20

def Run.cls (r : Run) (c : BitVec 6) : Cls :=
  let w := r.reg (clsBase c)
  { nearEn := w.testBit 0, wthru := w.testBit 1, prefetch := bitsOf w 3 2, lcode := BitVec.ofNat 2 (bitsOf w 5 4),
    rgran := bitsOf w 8 6, epoch := BitVec.ofNat 8 (bitsOf w 23 16),
    ways := BitVec.ofNat 16 (r.reg (clsBase c + 4)) }

def tntBase (t : BitVec 12) : Nat := 0xC10000 + t.toNat * 0x10

/-- Check 6 of R332. -/
def Run.tenantMay (r : Run) (t : BitVec 12) (p : Fin 8) : Bool :=
  t ≠ 0 && r.bit (tntBase t) 0 && r.bit (tntBase t) (8 + p.val)

/-- Current occupancy of a tenant in blocks (R353). -/
def Run.occ (r : Run) (t : BitVec 12) : Nat := mget 0 r.m.occ t.toNat
def Run.quota (r : Run) (t : BitVec 12) : Nat := r.fld (tntBase t + 4) 25 0
/-- The at-quota bit (R354). -/
def Run.atQuota (r : Run) (t : BitVec 12) : Bool := decide (r.quota t ≤ r.occ t)
def Run.over (r : Run) (t : BitVec 12) : Nat := r.occ t - r.quota t

/-- This House is home to the block. -/
def Run.isHome (r : Run) (b : Block) : Bool := b.extractLsb' 30 6 = r.myId

/-- This House may near-cache the block for a request with these attributes (R24, R41): a remote-homed
near-cacheable region, with some way in use. -/
def Run.nearable (r : Run) (b : Block) (a : Attr) : Bool :=
  a.nearc && !(r.isHome b) && decide (0 < r.nearWays) && (a.kind = kindShared || a.kind = kindPrivate)

/-! ## Cellar placement (R45–R48) -/

/-- The Cellar block of home frame `frame` that holds block `b` (R46). -/
def homeCell (frame : Nat) (b : Block) : Nat := frame * 262144 + blkOff b
/-- CFG_NEAR_BASE.BLOCK (R45). -/
def Run.nearBase (r : Run) : Nat := r.homeFrames * 262144
/-- The Cellar block of set s, way w of Room m (R47). -/
def Run.nearCell (r : Run) (m : Fin 64) (set way : Nat) : Nat :=
  r.nearBase + (m.val * 32768 + set) * r.nearWays + way
/-- The channel of line l of Cellar block `blk` (R48). -/
def Run.chanOf (r : Run) (blk : Nat) (l : Fin 16) : Fin 16 :=
  ⟨(l.val + r.rot blk) % 16, Nat.mod_lt _ (by decide)⟩
/-- The line of Cellar block `blk` that channel c holds. -/
def Run.lineIn (r : Run) (blk : Nat) (c : Fin 16) : Fin 16 :=
  ⟨(c.val + 16 - r.rot blk) % 16, Nat.mod_lt _ (by decide)⟩

/-! ## Decoders and window segments (R36, R37, R329–R331) -/

/-- PCHp_CTRL.BIF. -/
def Run.bif (r : Run) (p : Fin 8) : Bool := r.bit (pchBase p) 1

def pow2log (n : Nat) : Nat := n.log2

/-- The DPA that a committed decoder gives an HPA in its range (R330). -/
def Dec.toDpa (d : Dec) (hpa : Nat) : Option Nat :=
  if d.committed && decide (d.hpaBase.toNat ≤ hpa ∧ hpa < d.hpaBase.toNat + d.size.toNat) then
    let o := hpa - d.hpaBase.toNat
    let g := pow2log d.ig
    let w := pow2log d.iw
    some (d.dpaBase.toNat + ((o >>> (g + w)) <<< g) + o % 2 ^ g)
  else none

/-- The HPA that a committed decoder gives a DPA in its range (R331). -/
def Dec.toHpa (d : Dec) (dpa : Nat) : Option Nat :=
  if d.committed && decide (d.dpaBase.toNat ≤ dpa ∧ dpa < d.dpaBase.toNat + d.size.toNat / d.iw) then
    let o := dpa - d.dpaBase.toNat
    let g := pow2log d.ig
    let w := pow2log d.iw
    some (d.hpaBase.toNat + (((o >>> g) <<< (g + w)) ||| (d.pos <<< g) ||| (o % 2 ^ g)))
  else none

/-- The segments that serve link k of Porch p (R36). -/
def Run.segs (r : Run) (p : Fin 8) (k : Fin 2) : List Nat :=
  if r.bif p then (List.range 32).map (· + 32 * k.val) else if k = 0 then List.range 64 else []

/-- A window segment: enabled, first DPA GiB, size in GiB, first region. -/
structure Seg where
  v : Bool
  dpa : Nat
  size : Nat
  pool : Nat
deriving DecidableEq, Repr

def Seg.ofWords (w0 w1 w2 : Nat) : Seg := ⟨w0.testBit 31, bitsOf w0 21 0, bitsOf w1 12 0, bitsOf w2 17 0⟩
def segBase (p : Fin 8) (s : Nat) : Nat := pchBase p + 0x800 + s * 0x10
def Run.seg (r : Run) (p : Fin 8) (s : Nat) : Seg :=
  Seg.ofWords (r.reg (segBase p s)) (r.reg (segBase p s + 4)) (r.reg (segBase p s + 8))

def Seg.holds (g : Seg) (dpa : Nat) : Bool :=
  g.v && decide (g.dpa * 2 ^ 30 ≤ dpa ∧ dpa < (g.dpa + g.size) * 2 ^ 30)

/-- R37. -/
def Run.dpaToPa (r : Run) (p : Fin 8) (k : Fin 2) (dpa : Nat) : Option PoolAddr :=
  (r.segs p k).findSome? fun s =>
    let g := r.seg p s
    if g.holds dpa then some (BitVec.ofNat 48 (g.pool * 2 ^ 30 + (dpa - g.dpa * 2 ^ 30))) else none

/-- The decoders of link k (R328): 0–7 at x16, four for each link when bifurcated. -/
def Run.decs (r : Run) (p : Fin 8) (k : Fin 2) : List Dec :=
  (r.link p k).decs.toList.take (if r.bif p then 4 else 8)

def Run.hpaToDpa (r : Run) (p : Fin 8) (k : Fin 2) (hpa : BitVec 52) : Option Nat :=
  (r.decs p k).findSome? fun d => d.toDpa hpa.toNat

/-- Every HPA of link k that names a pool address (R331), without repeats. -/
def Run.paToHpas (r : Run) (p : Fin 8) (k : Fin 2) (pa : PoolAddr) : List (BitVec 52) :=
  ((r.segs p k).filterMap fun s =>
    let g := r.seg p s
    if g.v && decide (g.pool * 2 ^ 30 ≤ pa.toNat ∧ pa.toNat < (g.pool + g.size) * 2 ^ 30) then
      let dpa := g.dpa * 2 ^ 30 + (pa.toNat - g.pool * 2 ^ 30)
      ((r.decs p k).findSome? fun d => d.toHpa dpa).map (BitVec.ofNat 52)
    else none).dedup

def allLinks : List (Fin 2) := [0, 1]

/-- The links, by Porch and link number, that have a segment mapping the pool address. -/
def Run.linksOf (r : Run) (pa : PoolAddr) : List (Fin 8 × Fin 2) :=
  allPorches.flatMap fun p => allLinks.filterMap fun k =>
    if (r.segs p k).any (fun s =>
        let g := r.seg p s
        g.v && decide (g.pool * 2 ^ 30 ≤ pa.toNat ∧ pa.toNat < (g.pool + g.size) * 2 ^ 30))
    then some (p, k) else none

/-! ## Bytes of a line -/

/-- Every bit of the bytes that the mask names. -/
def maskBits (m : ByteMask) : LineData :=
  (List.range 256).foldl (fun acc i => if m.getLsbD i then acc ||| (0xFF#2048 <<< (8 * i)) else acc) 0

/-- The bytes of `new` that the mask names, and the other bytes of `old`. -/
def mergeLine (old new : LineData) (m : ByteMask) : LineData :=
  let b := maskBits m
  (old &&& ~~~b) ||| (new &&& b)

def fullMask : ByteMask := BitVec.allOnes 256

/-- A 64 B chunk placed at its chunk number in the line. -/
def placeData (d : BitVec 512) (chunk : Nat) : LineData := (d.setWidth 2048) <<< (512 * chunk)
def placeMask (be : BitVec 64) (chunk : Nat) : ByteMask := (be.setWidth 256) <<< (64 * chunk)
def chunkOf (d : LineData) (chunk : Nat) : BitVec 512 := d.extractLsb' (512 * chunk) 512
def chunkMask (chunk : Nat) : ByteMask := (BitVec.allOnes 64).setWidth 256 <<< (64 * chunk)

/-- How many bits of a mask are set. -/
def popcount {w : Nat} (m : BitVec w) : Nat := (List.range w).foldl (fun n i => n + b2n (m.getLsbD i)) 0

def setBit16 (v : BitVec 16) (i : Fin 16) : BitVec 16 := v ||| (1#16 <<< i.val)
def clrBit16 (v : BitVec 16) (i : Fin 16) : BitVec 16 := v &&& ~~~(1#16 <<< i.val)

end Sys2Proof.Machine
end

