-- ==== Sys2Proof/Machine/Hallway.lean ====
section
/-! DEFINITION. The Hallway: where its stops lie, the path and cost of a transfer, lanes and collisions, and transfers
that wait for their slots (R16, R17, R179, R211, R220, R236). -/
namespace Sys2Proof.Machine
open Sys2Proof

/-! ## Stops and paths (R16, R17) -/

/-- The injection calendar of each stop's user (R214). -/
def porchCal (p : Fin 8) : Nat := 64 + p.val
def roomCal (m : Fin 64) : Nat := 72 + m.val
def chanCal (c : Fin 16) : Nat := 136 + c.val
def doorCal (d : Fin 8) : Nat := 152 + d.val

/-- Directions of a link out of a stop: north, south, east, west. An edge link into a stop carries the direction in
which its attachment lies, plus 4. -/
inductive Dir | n | s | e | w
deriving DecidableEq, Repr

def Dir.no : Dir → Nat
  | .n => 0 | .s => 1 | .e => 2 | .w => 3

/-- Where the user of an injection calendar sits: row, column, and the edge it is attached to, a Room to none. -/
structure Stop where
  row : Nat
  col : Nat
  edge : Option Dir := none
deriving DecidableEq, Repr

def stopOf (k : Nat) : Stop :=
  if k < 72 then { row := 0, col := k - 64, edge := some .n }
  else if k < 136 then { row := (k - 72) / 8, col := (k - 72) % 8 }
  else if k < 144 then { row := k - 136, col := 0, edge := some .w }
  else if k < 152 then { row := k - 144, col := 7, edge := some .e }
  else { row := 7, col := k - 152, edge := some .s }

/-- A link: the stop that it leaves or enters, and its direction. -/
def linkNo (row col dir : Nat) : Nat := (row * 8 + col) * 8 + dir

/-- Links of a vertical leg in column `col`, and of a horizontal leg in row `row`. -/
def vertical (col a b : Nat) : List Nat :=
  if a ≤ b then (List.range (b - a)).map fun i => linkNo (a + i) col 1
  else (List.range (a - b)).map fun i => linkNo (a - i) col 0
def horizontal (row a b : Nat) : List Nat :=
  if a ≤ b then (List.range (b - a)).map fun i => linkNo row (a + i) 2
  else (List.range (a - b)).map fun i => linkNo row (a - i) 3

/-- The links of the path from the user of one calendar to that of another: the edge hop in, the column, the row, and
the edge hop out (R17, R220; log entry 110, DEDUCED). -/
def hallPath (k j : Nat) : List Nat :=
  let a := stopOf k
  let b := stopOf j
  (a.edge.map fun d => linkNo a.row a.col (4 + d.no)).toList ++ vertical a.col a.row b.row ++ horizontal b.row a.col b.col ++
    (b.edge.map fun d => linkNo b.row b.col d.no).toList

/-- The stops on a path, each as 8 × row + column. -/
def pathStops (k j : Nat) : List Nat :=
  let b := stopOf j
  (hallPath k j).map (· / 8) ++ [8 * b.row + b.col]

/-- Core cycles that a transfer over `n` hops costs (R17). -/
def hallCost (n : Nat) : Nat := 1 + (n + 1) / 2

/-- The cc, counted from the slot's, in which each link of a path is used: two hops in a cc. -/
def pathSteps (path : List Nat) : List (Nat × Nat) := path.zipIdx.map fun x => (x.1, 1 + x.2 / 2)

/-! ## Transfers -/

/-- The calendar of the stop that a load goes to; a message to another House goes to the Door `d` of its route. -/
def Load.dest (d : Fin 8) : Load → Nat
  | .item _ m _ | .room m _ _ | .ret m _ => roomCal m
  | .ans (.host _ p _) _ | .ans (.land _ p) _ | .ans (.rsv _ p _ _) _ | .bi p _ _ _ _ => porchCal p
  | .ans _ _ => doorCal d
  | .cel c _ | .late c _ => chanCal c
  | .msg _ _ => doorCal d
  | .transit e _ => doorCal e

/-- A transfer leaves its stop for the stop of calendar `j`. Transfers of one cc share a lane; two that use one link in
one step are both corrupted (R236). -/
def Run.launch (r : Run) (k j : Nat) (x : Load) (queued : Bool := false) : Run :=
  let path := hallPath k j
  let steps := pathSteps path
  let hit := (r.c.lanes.filter fun l => steps.contains (l.1, l.2.1)).map fun l => l.2.2
  let no := r.c.flyNo
  let f : Fly :=
    { no := no, queued := queued, k := k, dst := j, due := r.c.cc + hallCost path.length, load := x, bad := !hit.isEmpty }
  { r with c := { r.c with
      fly := (r.c.fly.map fun y => if hit.contains y.no then { y with bad := true } else y) ++ [f],
      flyNo := no + 1, lanes := r.c.lanes ++ steps.map fun s => (s.1, s.2, no) } }

/-! ## Word queues (R132) -/

/-- A line joins the queue, as four words (R132). -/
def WordQ.add (q : WordQ) (no : Nat) : WordQ := { q with lines := q.lines ++ [(no, 4)] }

/-- The next word pushed, and the lines that remain to be pushed. -/
def WordQ.next (q : WordQ) : Option ((Nat × Bool) × List (Nat × Nat)) :=
  match q.lines with
  | [] => none
  | (no, n) :: ls => some ((no, decide (n ≤ 1)), if n ≤ 1 then ls else (no, n - 1) :: ls)

/-- One cc of a queue `depth` words deep (R132): a word is pushed unless the queue is full, and a word is popped when a
whole line is in it; a push into an empty queue never falls through. The answer names the word that is popped. -/
def WordQ.step (q : WordQ) (depth : Nat) : WordQ × Option (Nat × Bool) :=
  let push := if q.words.length < depth then q.next else none
  let pop := if 0 < q.packets then q.words.head? else none
  let up := match push with
    | some x => b2n x.1.2
    | none => 0
  let down := match pop with
    | some x => b2n x.2
    | none => 0
  ({ lines := match push with
        | some x => x.2
        | none => q.lines,
     words := (if pop.isSome then q.words.tail else q.words) ++ (push.map (·.1)).toList,
     packets := q.packets + up - down }, pop)

/-- The last word of a line has left its queue: the transfer goes on. -/
def Run.wordsOut (r : Run) (x : Option (Nat × Bool)) : Run :=
  match x with
  | some (no, true) =>
    { r with c := { r.c with fly := r.c.fly.map fun f =>
        if f.no = no then { f with queued := false, due := max f.due (r.c.cc + 1) } else f } }
  | _ => r

/-- A transfer joins those that wait at its stop. -/
def Run.post (r : Run) (k code : Nat) (x : Load) (retire : Option Src := none) : Run :=
  { r with c := { r.c with wait := r.c.wait ++ [{ k := k, code := code, load := x, retire := retire }] } }

/-- Transfers that wait, or are on their way. -/
def Run.inHall (r : Run) (f : Load → Bool) : Bool := r.c.wait.any (fun x => f x.load) || r.c.fly.any fun x => f x.load

end Sys2Proof.Machine
end

