-- ==== Sys2Proof/Machine/Meters.lean ====
section
/-! DEFINITION. Tenant occupancy and meters (R353, R360–R368), latency histograms (R502–R504), and the commands
that close windows and count overflows. -/
namespace Sys2Proof.Machine
open Sys2Proof

/-! ## Charges -/

/-- The five meters of R360, in the order of R370. -/
inductive Meter | rd | wr | near | fabric | cellar
deriving DecidableEq, Repr

def Meter.idx : Meter → Nat
  | .rd => 0 | .wr => 1 | .near => 2 | .fabric => 3 | .cellar => 4

def mtrKey (bank : Bool) (t : Nat) (k : Meter) : Nat := (b2n bank * 4096 + t) * 5 + k.idx

/-- Add to one meter of one bank; the count wraps at 2^63 and sets OVF (R367). -/
def Run.meterAdd (r : Run) (bank : Bool) (t : Nat) (k : Meter) (n : Nat) : Run :=
  if n = 0 then r
  else
    let v := (mget 0 r.m.mtr (mtrKey bank t k)).toNat
    let c := v % 2 ^ 63 + n
    let ovf := if 2 ^ 63 ≤ c then 2 ^ 63 else v / 2 ^ 63 * 2 ^ 63
    r.st (.mtr (mtrKey bank t k) (BitVec.ofNat 64 (ovf + c % 2 ^ 63)))

/-- The bank that a charge with this stamp goes to (R363). -/
def Run.stampBank (r : Run) (stamp : Stamp) : Bool :=
  if r.c.mtr.settling && decide (stamp < r.c.mtr.boundary) then !r.c.mtr.bank else r.c.mtr.bank

/-- The last automatic boundary, a multiple of WIN_S s (R365). -/
def Run.autoBoundary (r : Run) : Stamp :=
  let w := r.fld 0xC00800 27 16 * 10 ^ 9
  if w = 0 then 0 else r.ftNs / w * w

/-- An automatic boundary has been reached and not been dealt with (R365). -/
def Run.autoDue (r : Run) : Bool := r.bit 0xC00800 0 && r.c.mtr.opened && decide (r.c.mtr.autoDone < r.autoBoundary)

/-- The earliest FT at which the live window can end: charges stamped below it are the window's for good. -/
def Run.nextEnd (r : Run) : Stamp := if r.autoDue then r.autoBoundary else r.ftNs

def Run.charge (r : Run) (t : BitVec 12) (k : Meter) (n : Nat) (stamp : Stamp) : Run :=
  let bank := r.stampBank stamp
  let r := r.meterAdd bank t.toNat k n
  r.when (decide (0 < n) && bank = r.c.mtr.bank) fun r =>
    let d : Dated := { key := t.toNat * 5 + k.idx, n := n, stamp := stamp }
    r.modMtr fun m => { m with dated := (m.dated ++ [d]).filter fun (d : Dated) => decide (r.nextEnd ≤ d.stamp) }

/-- A charge of the old live bank whose stamp is not below the boundary moves to the new one; an OVF that it has caused
stays with the window that ends (R363, R367). -/
def Run.moveCharge (r : Run) (live : Bool) (d : Dated) : Run :=
  let key := mtrKey (!live) 0 .rd + d.key
  let v := (mget 0 r.m.mtr key).toNat
  let r := r.st (.mtr key (BitVec.ofNat 64 (v / 2 ^ 63 * 2 ^ 63 + (v % 2 ^ 63 + 2 ^ 63 - d.n) % 2 ^ 63)))
  let dst := mtrKey live 0 .rd + d.key
  let w := (mget 0 r.m.mtr dst).toNat
  r.st (.mtr dst (BitVec.ofNat 64 (w / 2 ^ 63 * 2 ^ 63 + (w % 2 ^ 63 + d.n) % 2 ^ 63)))

/-! ## Occupancy -/

/-- Charge NEAR_BNS for the interval that ends at `ft`, split at a boundary that is due (R362, R363). -/
def Run.accrue (r : Run) (t : Nat) (ft : Stamp) : Run :=
  let since := mget 0 r.m.occFt t
  let n := mget 0 r.m.occ t
  let b := if r.autoDue then min ft (max since r.autoBoundary) else ft
  let r := r.meterAdd r.c.mtr.bank t .near (n * (b - since))
  (r.charge (BitVec.ofNat 12 t) .near (n * (ft - b)) ft).st (.occFt t (max since ft))

/-- Trim gets work in every Room: a tenant's OVER has become non-zero, or a WAY_MASK has lost a bit (R356). -/
def Run.trimWake (r : Run) : Run :=
  r.forEach allRooms fun m r => r.modRoom m fun y => { y with trimWork := true, trimClean := 0 }

/-- A tenant's occupancy becomes `n`, at this cc's FT (R353). -/
def Run.setOcc (r : Run) (t : BitVec 12) (n : Nat) : Run :=
  let quota := r.fld (0xC10000 + t.toNat * 0x10 + 4) 25 0
  let wakes := decide (mget 0 r.m.occ t.toNat ≤ quota ∧ quota < n)
  let r := (r.accrue t.toNat r.ftNs).st (.occ t.toNat n)
  r.when wakes Run.trimWake

/-! ## Histograms (R502–R504) -/

def histKey (p : Fin 8) (bank : Bool) (bin : Nat) : Nat := (p.val * 2 + b2n bank) * 32 + bin

/-- The bin of a latency of `l` cc (R503). -/
def histBin (l base shift : Nat) : Nat := if l < base then 0 else min 31 (1 + ((l - base) >>> shift))

/-- Count a latency of `l` cc at Porch p, under the settings with which the request was admitted (R513); the count
reaches its bin with the next cc (R504). -/
def Run.histCount (r : Run) (p : Fin 8) (cfg l : Nat) : Run :=
  let bin := histBin l (bitsOf cfg 31 20) (bitsOf cfg 18 16)
  (r.modPorch p fun x => { x with histNow := x.histNow ++ [(bin, cfg.testBit 9)] }).peak (pchBase p + 0xC04) (min 0xFFFF l)

/-- One count reaches its bin of the live bank; a wrap sets OVF (R497, R503). -/
def Run.histAdd (r : Run) (p : Fin 8) (bin : Nat) (irq : Bool) : Run :=
  let key := histKey p (r.porch p).histBank bin
  let v := (mget 0 r.m.hist key).toNat
  let wraps := decide (2 ^ 48 ≤ v % 2 ^ 48 + 1)
  let ovf := if wraps then 2 ^ 48 else v / 2 ^ 48 * 2 ^ 48
  let r := r.st (.hist key (BitVec.ofNat 49 (ovf + (v + 1) % 2 ^ 48)))
  r.when wraps fun r => (r.modPorch p fun x => { x with histWrap := key :: x.histWrap }).when irq fun r => r.vector 8

/-- The counts of the cc that ends reach their bins. -/
def Run.histEnd (r : Run) : Run :=
  r.forEach allPorches fun p r =>
    let now := (r.porch p).histNow
    (r.modPorch p fun x => { x with histNow := [], histWrap := [] }).forEach now fun x r => r.histAdd p x.1 x.2

/-- The request counts in the histogram of its Porch (R502): KIND and CLASS as PCHp_HIST_CFG asks. -/
def Run.histTakes (r : Run) (p : Fin 8) (write : Bool) (cls : BitVec 6) : Bool :=
  let cfg := r.reg (pchBase p + 0xC00)
  cfg.testBit 10 && (bitsOf cfg 8 7 = 2 || bitsOf cfg 8 7 = b2n write) &&
    (!cfg.testBit 6 || bitsOf cfg 5 0 = cls.toNat)

/-- A histogram snapshot in every Porch (R504). A bin of the bank that is held from now on and that has wrapped in this
cc shows its last value, with OVF. -/
def Run.histSnapshot (r : Run) : Run :=
  let r := r.forEach allPorches fun p r =>
    let old := (r.porch p).histBank
    let wrapped := (r.porch p).histWrap.filter fun k => decide (histKey p old 0 ≤ k ∧ k < histKey p old 32)
    let r := r.forEach wrapped fun k r => r.st (.hist k (BitVec.allOnes 49))
    let r := r.st (.drop .hist (histKey p (!old) 0) (histKey p (!old) 32))
    r.modPorch p fun x => { x with histBank := !old }
  { r with c := { r.c with hsnapSeq := r.c.hsnapSeq + 1 } }

/-! ## Windows -/

/-- Take a snapshot at boundary FT `b` (R363): split every NEAR_BNS interval, swap the banks, clear the new live
bank, move the charges stamped at or above `b` into it, and open the next window. -/
def Run.meterSnapshot (r : Run) (b : Stamp) (manual : Bool) : Run :=
  let r := r.forEach (r.m.occ.map (·.1)) fun t r => r.accrue t b
  let live := !r.c.mtr.bank
  let r := r.st (.drop .mtr (mtrKey live 0 .rd) (mtrKey live 4096 .rd))
  let later := r.c.mtr.dated.filter fun d => decide (b ≤ d.stamp)
  let r := r.forEach later fun d r => r.moveCharge live d
  let deg := b2n (r.mode = .degraded) + 2 * b2n (r.mode = .safe) + 16 * b2n (!r.c.time.locked)
  let r := r.modMtr fun m =>
    { m with bank := live, settling := true, closed := false, merged := false, liveSeq := m.liveSeq + 1,
             setStart := m.liveStart, boundary := b, liveStart := b, snapCc := r.c.cc, dated := later,
             setFlags := (m.flagsLive ||| (if manual then 4 else 0)), flagsLive := BitVec.ofNat 5 deg }
  r.when (r.bit 0xF04 1) Run.histSnapshot

/-- METER_SNAPSHOT_AUTO (R365, R366): FT has reached a multiple of WIN_S s that has not been dealt with. -/
def Run.meterAuto (r : Run) : Run :=
  let b := r.autoBoundary
  if r.autoDue then
    let r := r.modMtr fun m => { m with autoDone := b }
    if r.c.mtr.settling || (r.c.mtr.closed && !r.c.mtr.acked) then r.modMtr fun m => { m with merged := true }
    else r.meterSnapshot b false
  else r

def execMeterSnapshotAuto (s : State) : Host.Outcome State Fault Refusal :=
  .next (Run.finish s (Run.start s).meterAuto)

/-- MTR_SNAP with GO (R365, R366): with an automatic boundary in the same cc there is one snapshot, the automatic
one; while a bank settles or the closed bank is not acknowledged the write is ignored and logged. -/
def Run.meterManual (r : Run) (w : Writer) : Run :=
  let x := r.c.mtr
  if x.settling && decide (x.snapCc = r.c.cc) && !x.setFlags.getLsbD 2 then r
  else if x.settling || (x.closed && !x.acked) then r.wrEvent w Code.meterBusy
  else if r.autoDue then r.meterAuto
  else r.meterSnapshot r.ftNs true

/-- A request that bears on the settling bank has not retired yet (R364). -/
def Ent.early (b : Stamp) (e : Ent) : Bool := decide (e.item.tin < b) && !(e.sent && e.retired)

def Src.early (b : Stamp) : Src → Stamp → Bool
  | .fab _, tin => decide (tin < b)
  | _, _ => false

/-- Every request admitted or delivered before FT `b` has retired. -/
def Run.settled (r : Run) (b : Stamp) : Bool :=
  (allPorches.all fun p => (r.porch p).store.all fun e => !(e.early b)) &&
  (r.c.fab.inbox.all fun x => decide (b ≤ x.2.1)) && (r.c.fab.kept.all fun x => decide (b ≤ x.2.1)) &&
  !(r.inHall fun x => match x with
    | .msg _ t => decide (t < b)
    | _ => false) &&
  allRooms.all fun m =>
    ((r.room m).waiters.all fun w => !(w.item.src.early b w.item.tin)) &&
    (r.room m).wbuf.all fun e => decide (b ≤ e.tin)

/-- Some meter of a bank has OVF set. -/
def Run.bankOvf (r : Run) (bank : Bool) : Bool :=
  r.m.mtr.any fun e => decide (mtrKey bank 0 .rd ≤ e.1 ∧ e.1 < mtrKey bank 4096 .rd) && e.2.getLsbD 63

/-- The settling bank becomes closed (R364). -/
def Run.meterEnd (r : Run) : Run :=
  let ovf : BitVec 5 := if r.bankOvf (!r.c.mtr.bank) then 8 else 0
  (r.modMtr fun m =>
    { m with settling := false, closed := true, acked := false, seqNo := m.liveSeq,
             winStart := m.setStart, winEnd := m.boundary, flagsWin := m.setFlags ||| ovf }).vector 6

/-- METER_CLOSE (R364). -/
def Run.meterClose (r : Run) : Run :=
  if r.c.mtr.settling && decide (r.c.mtr.snapCc + 4096 ≤ r.c.cc) && r.settled r.c.mtr.boundary then r.meterEnd
  else r

def execMeterClose (s : State) : Host.Outcome State Fault Refusal := .next (Run.finish s (Run.start s).meterClose)

/-- A write of MTR_ACK (R366). -/
def Run.meterAck (r : Run) (w : Writer) (v : Nat) : Run :=
  if r.c.mtr.closed && v = r.c.mtr.seqNo % 2 ^ 32 then
    r.modMtr fun m => { m with closed := false, acked := true, lastAck := w32 v }
  else r.wrEvent w Code.meterBusy

/-- The meters as FILL or a reset leaves them (R368). -/
def Run.meterClear (r : Run) : Run :=
  let r := r.st (.drop .mtr 0 (mtrKey true 4096 .rd))
  let r := r.st (.drop .occ 0 4096)
  let r := r.st (.drop .occFt 0 4096)
  { r with c := { r.c with mtr := {} } }

/-- The first window opens when the House enters JOIN (R368). -/
def Run.meterOpen (r : Run) : Run :=
  if r.c.mtr.opened then r
  else r.modMtr fun m => { m with opened := true, liveStart := r.ftNs, autoDone := r.ftNs,
                                  flagsLive := if r.c.time.locked then 0 else 16 }

/-- Something that MTR_WIN_FLAGS shows happens in the live window. -/
def Run.windowFlag (r : Run) (b : BitVec 5) : Run := r.modMtr fun m => { m with flagsLive := m.flagsLive ||| b }

/-! ## Overflow of the cycle counter and of valued events (R494–R497) -/

/-- The value of valued event `code` in Room m in this cc (R496). -/
def Run.pmcValue (r : Run) (m : Fin 64) (code : Nat) : Nat :=
  let x := r.room m
  if code = 0x20 then x.trks.length
  else if code = 0x21 then x.cohs.length
  else if code = 0x22 then x.wbuf.length
  else if code = 0x23 then x.mud.length
  else if code = 0x24 then x.waiters.length
  else if code = 0x25 then b2n x.closed
  else if code = 0x26 then b2n (r.c.thm.pwr[m.val]?.getD .awake ≠ .awake)
  else if code = 0x27 then x.rsvs.length
  else 0

/-- The signal of counter k of Room m for a valued event (R495); 0 when it does not count one. -/
def Run.pmcLevel (r : Run) (m : Fin 64) (k : Nat) : Nat :=
  let ctl := r.reg (rmBase m + 0x640 + 0x20 * k)
  if ctl.testBit 7 && decide (0x20 ≤ bitsOf ctl 5 0) then
    let v := r.pmcValue m (bitsOf ctl 5 0)
    let thr := r.fld (rmBase m + 0x644 + 0x20 * k) 9 0
    if thr = 0 then v else b2n (decide (thr ≤ v))
  else 0

/-- What counter k of Room m adds in this cc from the clock alone: the cycle counter 1, a valued event its
signal, in edge mode 1 when the signal was zero in the cc before (R494, R495). -/
def Run.pmcTick (r : Run) (m : Fin 64) (k : Nat) : Nat :=
  if k = 8 then 1
  else
    let v := r.pmcLevel m k
    if r.bit (rmBase m + 0x640 + 0x20 * k) 6 then
      b2n (decide (0 < v) && !(mget false r.m.pmcPrev (m.val * 9 + k)))
    else v

/-- COUNTER_WRAP (R497): the counter passes 2^48 − 1 in this cc. -/
def Run.counterWrap (r : Run) (m : Fin 64) (k : Fin 9) : Run :=
  let key := m.val * 9 + k.val
  if !(r.bit 0xF00 0) && !(r.c.wrapped.contains key) &&
      decide (2 ^ 48 ≤ (mget 0 r.m.pmc key).toNat % 2 ^ 48 + r.pmcTick m k) then
    let r := r.pmcAdd m k (r.pmcTick m k)
    { r with c := { r.c with wrapped := key :: r.c.wrapped } }
  else r

def execCounterWrap (m : Fin 64) (k : Fin 9) (s : State) : Host.Outcome State Fault Refusal :=
  .next (Run.finish s ((Run.start s).counterWrap m k))

end Sys2Proof.Machine
end

