-- ==== Sys2Proof/Machine/Porch.lean ====
section
/-! DEFINITION. The Porch: ingress checks and admission, the Landing, injection and response return
(R114–R120, R177–R182, R332–R345). -/
namespace Sys2Proof.Machine
open Sys2Proof

/-! ## Host event logs (R328, R347) -/

/-- Put a record in one log of a link: 64 records each, then overflow; the link's policy decides the interrupt. -/
def Run.hostLog (r : Run) (p : Fin 8) (k : Fin 2) (log : EvLog) (rec' : EvRec) (hpa : Option (BitVec 52)) : Run :=
  let l := r.link p k
  if 64 ≤ (l.logs.filter fun e => e.log = log).length then
    r.modLink p k fun l => { l with overflow := if l.overflow.contains log then l.overflow else l.overflow ++ [log] }
  else
    let r := r.modLink p k fun l => { l with logs := l.logs ++ [{ log := log, rec' := rec', hpa := hpa, ft := r.ftNs }] }
    let i := match log with | .info => 0 | .warn => 1 | .fail => 2 | .fatal => 3
    r.when (l.up && ((l.evPolicy[i]?.getD 0) &&& 3) = 1) fun r => r.toHost (.msix p k 0)

/-- Report what happened at a pool address to every link that maps it, with the lowest HPA (R347). -/
def Run.hostReport (r : Run) (pa : PoolAddr) (log : EvLog) (rec' : EvRec) : Run :=
  r.forEach (r.linksOf pa) fun pk r =>
    r.hostLog pk.1 pk.2 log rec' (((r.paToHpas pk.1 pk.2 pa).map (·.toNat)).min?.map (BitVec.ofNat 52))

/-! ## The request store -/

def Ent.open' (e : Ent) : Bool := !e.sent

def Run.ent (r : Run) (p : Fin 8) (uid : Nat) : Option Ent := (r.porch p).store.find? fun e => e.uid = uid
/-- Change one entry; entries that have completed and retired leave the store (R340). -/
def Run.modEnt (r : Run) (p : Fin 8) (uid : Nat) (f : Ent → Ent) : Run :=
  r.modPorch p fun x =>
    { x with store := (x.store.map fun e => if e.uid = uid then f e else e).filter fun e => !(e.sent && e.retired) }

/-- The entry is a reservation operation of a slot. -/
def Ent.slotOp (e : Ent) : Bool := match e.item.src with
  | .rsv _ _ _ _ => true
  | _ => false

/-- The answer of an admitted request comes to its Porch; it is discarded when its link has gone down (R345), but that
of a reservation operation still ends its slot's operation. -/
def Run.answerEnt (r : Run) (p : Fin 8) (uid : Nat) (a : Ans) : Run :=
  r.modEnt p uid fun e =>
    if e.ans.isSome then e else { e with ans := some a, stage := .atPorch, answeredAt := r.now, sent := e.sent || (e.gone && !e.slotOp) }

/-! ## Identifier queues (R177, R180) -/

/-- An admitted request of an identifier, or a Landing drain of it: its place in admission order, its Room, whether it
has still to be injected, whether it is issued again and is not yet in the covering Room, and whether it has
completed. -/
structure InQueue where
  place : Nat
  room : Fin 64
  waiting : Bool
  again : Bool
  done : Bool
deriving DecidableEq, Repr

/-- The queue of an identifier: its requests, and its Landing drains that have been sent. -/
def Porch.queue (x : Porch) (oid : BitVec 20) : List InQueue :=
  ((x.store.filter fun e => e.item.oid = oid).map fun e =>
      ⟨e.uid, e.room, e.stage = .waiting, e.reissue, e.sent⟩) ++
    (x.landSent.filter fun d => d.item.oid = oid).map fun d =>
      ⟨d.place, d.room, d.stage = .waiting, d.reissue, d.done⟩

/-- The one of a queue that was admitted first. -/
def oldestOf : List InQueue → Option InQueue
  | [] => none
  | e :: es => match oldestOf es with
    | some o => if o.place < e.place then some o else some e
    | none => some e

/-- The current Room of a queue is `room`, or nothing of it is open (R180). -/
def inRoom (q : List InQueue) (room : Fin 64) : Bool :=
  (oldestOf (q.filter fun e => !e.done)).all fun o => o.room = room

/-- No request of the queue has still to go ahead: at its Porch, or issued again and not yet in the covering Room
(R178, R182). -/
def allGone (q : List InQueue) (again : Bool) : Bool := q.all fun e => !e.waiting && (again || !e.again)

/-- Open requests whose Room is not their identifier's current Room count once as held (R180). -/
def Run.ordHolds (r : Run) (p : Fin 8) : Run :=
  let x := r.porch p
  let held (e : Ent) : Bool :=
    e.stage = .waiting && e.ans.isNone && !e.held &&
      !(inRoom ((x.queue e.item.oid).filter fun y => decide (y.place < e.uid)) e.room)
  let n := (x.store.filter held).length
  if n = 0 then r
  else (r.modPorch p fun x => { x with store := x.store.map fun e => if held e then { e with held := true } else e }).pchCount
    p 0x504 n

/-- The Room retires the request (R223). -/
def Run.retireEnt (r : Run) (p : Fin 8) (uid : Nat) : Run := r.modEnt p uid fun e => { e with retired := true }

/-- A Landing drain changes; one whose entry is Free and which its Room has retired is kept no longer (R223). -/
def Run.modSent (r : Run) (p : Fin 8) (seq : Nat) (f : LandSent → LandSent) : Run :=
  r.modPorch p fun x =>
    { x with landSent := (x.landSent.map fun d => if d.seq = seq then f d else d).filter fun d => !(d.done && d.retired) }

/-! ## The Landing (R114–R120) -/

/-- How many entries a core cycle has freed, with `n` more. -/
def freedMore (x : Nat × Nat) (cc n : Nat) : Nat × Nat := if n = 0 then x else if x.1 = cc then (cc, x.2 + n) else (cc, n)
/-- Entries of a buffer that this core cycle cannot allocate: those in use, and those freed in it (R131). -/
def takenIn (x : Nat × Nat) (cc used : Nat) : Nat := if x.1 = cc then used + x.2 else used

/-- Landing entries become Free: those that `f` names. -/
def Run.landDrop (r : Run) (p : Fin 8) (f : Land → Bool) : Run :=
  let gone := (r.porch p).lands.filter f
  let r := r.modPorch p fun x =>
    { x with lands := x.lands.filter fun e => !(f e), lndFreed := freedMore x.lndFreed r.c.cc gone.length }
  r.forEach gone fun e r => r.modSent p e.seq fun d => { d with done := true }

/-- What the Landing entries of a line hold together, newer bytes over older (R119): data, mask and poison. -/
def landView (ls : List Land) (line : BitVec 40) : LineData × ByteMask × Bool :=
  (ls.filter fun e => e.line = line).foldl (fun acc e =>
    (mergeLine acc.1 e.data e.mask, acc.2.1 ||| e.mask,
      if e.poison then true else if e.mask = fullMask then false else acc.2.2)) (0, 0, false)

def Porch.hasLand (x : Porch) (line : BitVec 40) : Bool := x.lands.any fun e => e.line = line
/-- A Landing entry lies in the granule of 2^(8+g) bytes at `pa`. -/
def Porch.landInGran (x : Porch) (pa : PoolAddr) (g : Nat) : Bool :=
  x.lands.any fun e => decide (e.line.toNat >>> g = (paLine pa).toNat >>> g)

/-! ## Admission -/

def isRead : ROp → Bool
  | .memRd | .memRdData => true
  | _ => false
def isWrite : ROp → Bool
  | .memWr | .memWrPtl => true
  | _ => false

/-- The bytes of its chunk that a write writes. -/
def reqBytes (q : HostReq) (op : ROp) : BitVec 64 := if op = .memWr then BitVec.allOnes 64 else q.be

/-- The item that an admitted host request becomes. -/
def Run.mkItem (r : Run) (q : HostReq) (op : ROp) (pa : PoolAddr) (a : Attr) (uid : Nat) : Item :=
  { src := .host uid q.p q.k, op := op, meta' := q.meta', pa := pa, attr := a,
    oid := r.ordId q.p a.tenant (paBlock pa),
    data := if isWrite op then placeData q.data (paChunk pa) else 0,
    mask := if isWrite op then placeMask (reqBytes q op) (paChunk pa) else 0,
    poison := isWrite op && q.poison, tin := r.ftNs }

/-- Charge RD_BYTES or WR_BYTES at admission (R360, R361). -/
def Run.chargeReq (r : Run) (q : HostReq) (op : ROp) (t : BitVec 12) : Run :=
  if isRead op then r.charge t .rd 64 r.ftNs
  else if isWrite op then r.charge t .wr (popcount (reqBytes q op)) r.ftNs
  else r

/-- Put an admitted request in the store. -/
def Run.enqueue (r : Run) (q : HostReq) (it : Item) (ans : Option Ans) (landWait : Bool := false)
    (land : Option Nat := none) : Run :=
  let x := r.porch q.p
  let room := r.roomOf (paBlock it.pa)
  let e : Ent :=
    { uid := x.nextUid, k := q.k, tag := q.tag, hpa := q.hpa, item := it, room := room,
      stage := if ans.isSome then .atPorch else .waiting, ans := ans, retired := ans.isSome, admitAt := r.now,
      answeredAt := if ans.isSome then r.now else 0, landWait := landWait, land := land,
      limitUs := r.fld (pchBase q.p + 0x34) 15 0, stallUs := r.fld (pchBase q.p + 0x38) 15 0,
      hist := (isRead it.op || isWrite it.op) && r.histTakes q.p (isWrite it.op) it.attr.cls,
      histCfg := r.reg (pchBase q.p + 0xC00) }
  (r.modPorch q.p fun x => { x with store := x.store ++ [e], nextUid := x.nextUid + 1 }).ordHolds q.p

/-- The request waits in its link's buffer with its credit. -/
def Run.buffer (r : Run) (b : Buffered) : Run := r.modLink b.q.p b.q.k fun l => { l with buf := l.buf ++ [b] }

/-- A request that has passed its checks and waits in a buffer of the Porch under this identifier. -/
def Run.oidWaits (r : Run) (p : Fin 8) (oid : BitVec 20) : Bool :=
  allLinks.any fun k => (r.link p k).buf.any fun b => match b.chk with
    | some (pa, a) => r.ordId p a.tenant (paBlock pa) = oid
    | none => false

/-- A Streaming write with MetaValue I or No-Op takes the Landing (R115); others with A or S go to the Room. -/
def toLanding (op : ROp) (m : MetaVal) (a : Attr) : Bool :=
  isWrite op && a.stream && (m = .i || m = .noOp)

/-- Insert a Streaming write: merge into the Open entry of its line, or open a Free one; none when it has to
wait (R115, R118, R120). -/
def Run.landInsert (r : Run) (p : Fin 8) (it : Item) : Option (Run × Nat) :=
  let x := r.porch p
  match x.lands.find? fun e => e.line = paLine it.pa && !e.draining with
  | some e =>
    let full := it.mask = fullMask
    let r := r.modPorch p fun x => { x with lands := x.lands.map fun e' =>
      if e'.seq = e.seq then
        { e' with data := mergeLine e'.data it.data it.mask, mask := e'.mask ||| it.mask,
                  poison := if it.poison then true else if full then false else e'.poison }
      else e' }
    some (r.pchCount p 0x40C 1, e.seq)
  | none =>
    if 128 ≤ takenIn x.lndFreed r.c.cc x.lands.length then none
    else
      let e : Land :=
        { seq := x.nextSeq, line := paLine it.pa, attr := it.attr, oid := it.oid, data := it.data, mask := it.mask,
          poison := it.poison, openedCc := r.c.cc, room := r.roomOf (paBlock it.pa), tin := it.tin, place := x.nextUid }
      let r := r.modPorch p fun x => { x with lands := x.lands ++ [e], nextSeq := x.nextSeq + 1 }
      some (r.peak (pchBase p + 0x408) (x.lands.length + 1), x.nextSeq)

/-- Admit a request that has passed every check (R177), or leave it in its buffer. -/
def Run.admitReq (r : Run) (b : Buffered) (pa : PoolAddr) (a : Attr) : Run :=
  let q := b.q
  let it := r.mkItem q b.op pa a (r.porch q.p).nextUid
  let x := r.porch q.p
  let wait := { b with chk := some (pa, a) }
  if b.op = .memWrPtl && q.be = 0 then r.enqueue q it (some .done)
  else if r.oidWaits q.p it.oid || decide (2048 ≤ x.store.length) then r.buffer wait
  else if toLanding b.op q.meta' a then
    if x.store.any fun e => e.landWait && e.stage = .waiting && e.item.oid = it.oid then r.buffer wait
    else match r.landInsert q.p it with
      | some (r, seq) => (r.chargeReq q b.op a.tenant).enqueue q it (some .done) false (some seq)
      | none => (r.buffer { wait with waited := true }).when (!b.waited) fun r => r.pchCount q.p 0x410 1
  else if isRead b.op && x.hasLand (paLine pa) then
    let (d, m, bad) := landView x.lands (paLine pa)
    let r := r.chargeReq q b.op a.tenant
    if bad then (r.enqueue q it (some (.data 0 true))).pchCount q.p 0x414 1
    else if m &&& chunkMask (paChunk pa) = chunkMask (paChunk pa) then
      (r.enqueue q it (some (.data (chunkOf d (paChunk pa)) false))).pchCount q.p 0x414 1
    else r.enqueue q it none true
  else (r.chargeReq q b.op a.tenant).enqueue q it none (isWrite b.op && a.stream)

/-! ## Checks (R332, R333) -/

/-- The outcome of the six checks. -/
inductive Chk
  | fail (n : Fin 6) (pa : Option PoolAddr)
  | ok (pa : PoolAddr) (a : Attr)
deriving DecidableEq, Repr

/-- Checks 3 to 6 of R332, on a host address. -/
def Run.checkAddr (r : Run) (p : Fin 8) (k : Fin 2) (dpa : Option Nat) : Chk :=
  match dpa with
  | none => .fail 2 none
  | some d =>
    match r.dpaToPa p k d with
    | none => .fail 3 none
    | some pa =>
      let g := r.region (paRegion pa)
      if !(r.porchMay (paRegion pa) g) then .fail 4 (some pa)
      else if !(r.tenantMay g.attr.tenant p) then .fail 5 (some pa)
      else .ok pa g.attr

def Run.check (r : Run) (q : HostReq) : Chk :=
  if !(r.porch q.p).opened || r.mode = .safe then .fail 0 none
  else if q.tee || q.rsvd then .fail 1 none
  else r.checkAddr q.p q.k (r.hpaToDpa q.p q.k q.hpa)

/-- The Minor event and the counter of a failed check: at most one event for each check and link in 1 ms. -/
def Run.checkEvent (r : Run) (p : Fin 8) (k : Fin 2) (n : Fin 6) (pa : Option PoolAddr)
    (rec' : Option (BitVec 52)) : Run :=
  let r := r.pchCount p (0x100 + 4 * n.val) 1
  let again : Bool := match (r.link p k).chkLast.toList[n.val]?.join with
    | some t => decide (r.now < t + msec 1)
    | none => false
  if again then r
  else
    let r := r.modLink p k fun l => { l with chkLast := l.chkLast.set n.val (some r.now) n.isLt }
    let r := r.pchEvent p k (Code.reqClosed + n.val) pa
    match rec' with
    | some h => r.hostLog p k .warn .media (some h)
    | none => r

/-- Answer a request that failed check `n` (R333). -/
def Run.refuse (r : Run) (q : HostReq) (op : ROp) (n : Fin 6) (pa : Option PoolAddr) : Run :=
  let rec' := if isRead op || (isWrite op && n ≠ 0) then some q.hpa else none
  let r := (r.checkEvent q.p q.k n pa rec').see (64 + q.p.val) (n.val + 1)
  if isWrite op && n = 0 && r.mode = .safe then r.buffer { q := q, op := op }
  else r.modPorch q.p fun x =>
    { x with refused := x.refused ++ [{ k := q.k, tag := q.tag, read := isRead op, poison := isRead op }] }

/-- A request arrives whole, or is taken from its buffer again. -/
def Run.ingress (r : Run) (q : HostReq) (op : ROp) : Run :=
  if !(r.link q.p q.k).up then r
  else if r.mode = .drain then r.buffer { q := q, op := op }
  else match r.check q with
    | .fail n pa => r.refuse q op n pa
    | .ok pa a => r.admitReq { q := q, op := op } pa a

/-- Take the waiting requests of a Porch again, in arrival order, while it admits requests. -/
def Run.pump (r : Run) (p : Fin 8) : Run :=
  if r.mode = .run || r.mode = .degraded || r.mode = .window then
    r.forEach allLinks fun k r =>
      let bs := (r.link p k).buf
      let r := r.modLink p k fun l => { l with buf := [] }
      r.forEach bs fun b r => match b.chk with
        | some (pa, a) => r.admitReq b pa a
        | none => r.ingress b.q b.op
  else r

/-- The Porch has closed: its waiting requests are answered under R28 (R434). -/
def Run.pumpClosed (r : Run) (p : Fin 8) : Run :=
  r.forEach allLinks fun k r =>
    let bs := (r.link p k).buf
    let r := r.modLink p k fun l => { l with buf := [] }
    r.forEach bs fun b r => r.ingress b.q b.op

/-- A message of a link that is up comes out of its ingress crossing (R489; log entry 115, DESIGN CHOICE). -/
def Run.linkTook (r : Run) (p : Fin 8) (k : Fin 2) (data : Bool) : Run :=
  r.when (r.link p k).up fun r => r.took (.ingress p k) (msgWords data)

/-- A request arrives from its host. -/
def Run.hostReq (r : Run) (q : HostReq) (op : ROp) : Run := (r.linkTook q.p q.k (isWrite op)).ingress q op

def execMemRd (q : HostReq) (s : State) : Host.Outcome State Fault Refusal :=
  .next (Run.finish s ((Run.start s).hostReq q .memRd))
def execMemRdData (q : HostReq) (s : State) : Host.Outcome State Fault Refusal :=
  .next (Run.finish s ((Run.start s).hostReq q .memRdData))
def execMemWr (q : HostReq) (s : State) : Host.Outcome State Fault Refusal :=
  .next (Run.finish s ((Run.start s).hostReq q .memWr))
def execMemWrPtl (q : HostReq) (s : State) : Host.Outcome State Fault Refusal :=
  .next (Run.finish s ((Run.start s).hostReq q .memWrPtl))
def execMemInv (q : HostReq) (s : State) : Host.Outcome State Fault Refusal :=
  .next (Run.finish s ((Run.start s).hostReq q .memInv))
def execMemClnEvct (q : HostReq) (s : State) : Host.Outcome State Fault Refusal :=
  .next (Run.finish s ((Run.start s).hostReq q .memClnEvct))

/-- MemSpecRd goes through checks 1 and 2 and no further; it gets no response (R332). -/
def Run.specRd (r : Run) (q : HostReq) : Run :=
  if !(r.link q.p q.k).up then r
  else if !(r.porch q.p).opened || r.mode = .safe then r.checkEvent q.p q.k 0 none none
  else if q.tee || q.rsvd then r.checkEvent q.p q.k 1 none none
  else r

def execMemSpecRd (q : HostReq) (s : State) : Host.Outcome State Fault Refusal :=
  .next (Run.finish s (((Run.start s).linkTook q.p q.k false).specRd q))

/-! ## Barriers end (R187–R190, R197) -/

/-- The entry still waits for a twin's acknowledgement, or for the home's acknowledgement of a Mirror forward. -/
def WbEnt.atRisk (e : WbEnt) : Bool := e.needTwin || e.twinLater || (e.attr.mirror && e.needAck)

/-- Drop from every barrier of the Porch what it no longer waits for: Landing entries that are free, requests
that have completed, and entries whose writes a twin or a home has acknowledged. -/
def Run.barSweep (r : Run) (p : Fin 8) : Run :=
  r.modPorch p fun x =>
    { x with bars := x.bars.map fun b =>
        { b with lands := b.lands.filter fun n => x.lands.any fun e => e.seq = n,
                 uids := b.uids.filter fun u => x.store.any fun e => e.uid = u && !e.sent,
                 risks := b.risks.filter fun y => (r.room y.1).wbuf.any fun e => e.seq = y.2 && e.atRisk } }

/-- Nothing is left that the barrier waits for, but Fuse box events. -/
def Bar.met (b : Bar) : Bool := b.lands.isEmpty && b.uids.isEmpty && b.markers = 0 && b.risks.isEmpty

/-- Note when a SYNC has nothing else left to wait for. -/
def Run.barMet (r : Run) (p : Fin 8) : Run :=
  r.modPorch p fun x =>
    { x with bars := x.bars.map fun b => if b.met && b.metAt.isNone then { b with metAt := some r.now } else b }

/-- The barrier is over; a SYNC waits too for the Fuse box events that were reported before everything else had ended
(R189; log entry 102, DEDUCED). -/
def Run.barOver (r : Run) (b : Bar) : Bool :=
  b.ended || (b.met && (b.kind ≠ .sync || !(r.c.fbx.reported.any fun e => b.metAt.all fun t => decide (e.det ≤ t))))

/-- The value that the read of PCH_DRAIN or PCH_SYNC returns (R191). -/
def Bar.value (b : Bar) : Nat := b2n b.err + 2 * b2n b.late + 4 * b2n (b.twin && b.kind = .sync)

/-- A barrier that is over ends: its read completes, or the management sync is done. -/
def Run.barEnd (r : Run) (p : Fin 8) (b : Bar) : Run :=
  let r := r.modPorch p fun x => { x with bars := x.bars.filter fun b' => b'.id ≠ b.id }
  match b.kind with
  | .msync => (r.modPorch p fun x => { x with msyncDone := true }).vector 5
  | .drain =>
    let r := r.toHost (.view p b.k 0x1000 (w32 b.value))
    r.when b.err fun r => r.pchCount p 0x510 1
  | .sync =>
    let r := r.toHost (.view p b.k 0x1004 (w32 b.value))
    r.when b.err fun r => r.pchCount p 0x510 1

/-- Every barrier of the Porch that is over ends; those of one link in arrival order (R188). -/
def Run.barCheck (r : Run) (p : Fin 8) : Run :=
  let r := (r.barSweep p).barMet p
  let bs := (r.porch p).bars
  r.forEach bs fun b r =>
    let first := !((r.porch p).bars.any fun b' =>
      decide (b'.id < b.id) && b'.k = b.k && b'.kind ≠ .msync && b.kind ≠ .msync)
    r.when (r.barOver b && first) fun r => r.barEnd p b

/-- Barriers that wait for no request or Landing entry may end. -/
def Run.barsCheck (r : Run) : Run :=
  r.forEach (allPorches.filter fun p => (r.porch p).bars.any fun b => b.kind = .sync) fun p r => r.barCheck p

/-! ## Reservation completions -/

/-- Reads of RESULT that waited are answered once no store of the slot is in progress (R199). -/
def Run.resultReads (r : Run) (p : Fin 8) (k : Fin 2) (slot : Fin 32) : Run :=
  let s := (r.link p k).rsv[slot]
  if s.stores ≠ 0 then r
  else
    let r := r.modLink p k fun l => { l with rsv := l.rsv.set slot.val { s with resultWait := 0 } slot.isLt }
    r.forEach (List.range s.resultWait) fun _ r =>
      r.toHost (.view p k (0x2018 + slot.val * 0x40) (s.result.setWidth 32))

/-- What the host sees when a reservation operation completes (R200, R202): the slot's result, and the read that
waits; the read of a reserving load whose link has gone down since (`gone`) is no longer there. -/
def Run.rsvFinish (r : Run) (p : Fin 8) (k : Fin 2) (slot : Fin 32) (op : ROp) (a : Ans) (gone : Bool := false) : Run :=
  let set (r : Run) (f : RsvSlot → RsvSlot) : Run :=
    r.modLink p k fun l => { l with rsv := l.rsv.set slot.val (f l.rsv[slot]) slot.isLt }
  let off := 0x2000 + slot.val * 0x40
  match op, a with
  | .rsvLoad, .data d bad =>
    let lo : Word := d.extractLsb' 0 32
    let hi : Word := d.extractLsb' 32 32
    let wide := (r.link p k).rsv[slot].wide
    let r := set r fun s => { s with loadLo := lo, loadHi := hi, result := if bad then 3 else 0, loadWait := false }
    if gone then r
    else
      let r := if bad then r.toHost (.viewPoison p k (off + 8)) else r.toHost (.view p k (off + 8) lo)
      r.when wide fun r => r.toHost (.view p k (off + 0xC) hi)
  | .rsvLoad, .done =>
    let wide := (r.link p k).rsv[slot].wide
    let r := set r fun s => { s with loadLo := 0xFFFFFFFF, loadHi := 0xFFFFFFFF, result := 3, loadWait := false }
    if gone then r
    else (r.toHost (.view p k (off + 8) 0xFFFFFFFF)).when wide fun r => r.toHost (.view p k (off + 0xC) 0xFFFFFFFF)
  | _, .done =>
    (set (r.pchCount p 0x524 1) fun s => { s with result := 1, stores := s.stores - 1 }).resultReads p k slot
  | _, .data _ bad =>
    (set (r.pchCount p 0x528 1) fun s => { s with result := if bad then 3 else 2, stores := s.stores - 1 }).resultReads p k
      slot

def isRsv : ROp → Bool
  | .rsvLoad | .rsvStore => true
  | _ => false

/-- The entry may complete: no earlier request of its identifier is still open (R178). -/
def Porch.inTurn (x : Porch) (e : Ent) : Bool :=
  !((x.store.takeWhile fun e' => e'.uid ≠ e.uid).any fun e' => !e'.sent && e'.item.oid = e.item.oid)

/-- Reservation operations that are answered and in turn complete. -/
def Run.rsvFlush (r : Run) (p : Fin 8) : Run :=
  r.forEach (r.porch p).store fun e r =>
    match e.ans, e.item.src with
    | some a, .rsv _ _ k slot =>
      if !e.sent && (r.porch p).inTurn e then
        let r := r.modEnt p e.uid fun e => { e with sent := true }
        r.rsvFinish p k slot e.item.op a e.gone
      else r
    | _, _ => r

/-- What may follow when requests of a Porch complete or its entries free. -/
def Run.porchSettle (r : Run) (p : Fin 8) : Run := (((r.rsvFlush p).ordHolds p).barCheck p).pump p

/-- A request sets out over the Hallway from a Porch to a Room (R179). -/
def Run.toHall (r : Run) (p : Fin 8) (m : Fin 64) (it : Item) : Run :=
  r.launch (porchCal p) (roomCal m) (.item p m it)

/-- A Landing drain sets out, by way of the drain queue (R132). -/
def Run.toHallWords (r : Run) (p : Fin 8) (m : Fin 64) (it : Item) : Run :=
  let no := r.c.flyNo
  (r.launch (porchCal p) (roomCal m) (.item p m it) true).modPorch p fun x => { x with drainQ := x.drainQ.add no }

/-! ## Injection (R179, R180, R224, R225) -/

/-- The entry may be injected: every earlier request of its identifier has gone ahead, its Room is the identifier's
current Room or all of them have completed, its Room is not fenced, and its Landing wait is over. -/
def Run.canInject (r : Run) (p : Fin 8) (e : Ent) : Bool :=
  let x := r.porch p
  let before := (x.queue e.item.oid).filter fun y => decide (y.place < e.uid)
  e.stage = .waiting && allGone before e.reissue && inRoom before e.room &&
    !(r.fenced (unitRoom (r.serving e.room))) &&
    !(e.landWait && (if isRsv e.item.op then x.landInGran e.item.pa (r.cls e.item.attr.cls).rgran
                     else x.hasLand (paLine e.item.pa)))

/-- BIRsp of a link whose earlier RwD has all been injected (R142) wait no longer; they are taken in Coherence. -/
def Run.biReady (r : Run) (p : Fin 8) (w : BiWait) : Bool :=
  !((r.porch p).store.any fun e => w.uids.contains e.uid && e.stage = .waiting)

/-- A Landing drain that a fence has called back may set out again (R225). -/
def Run.canResend (r : Run) (p : Fin 8) (d : LandSent) : Bool :=
  let before := ((r.porch p).queue d.item.oid).filter fun y => decide (y.place < d.place)
  d.stage = .waiting && allGone before true && inRoom before d.room && !(r.fenced (unitRoom (r.serving d.room)))

/-- A Landing drain sets out again. -/
def Run.resend (r : Run) (p : Fin 8) (code : Nat) (d : LandSent) : Run :=
  r.inSlot (porchCal p) code fun r =>
    (r.modSent p d.seq fun d => { d with stage := .injected }).toHallWords p (r.serving d.room) d.item

/-- An admitted request sets out. -/
def Run.injectEnt (r : Run) (p : Fin 8) (code : Nat) (e : Ent) : Run :=
  r.inSlot (porchCal p) code fun r =>
    ((r.modEnt p e.uid fun e => { e with stage := .injected }).toHall p (r.serving e.room) e.item).pump p

/-- Inject the oldest entry that `sel` names and that may be injected: a class code, or 0x55 for what is issued again,
Landing drains among them. -/
def Run.inject (r : Run) (p : Fin 8) (sel : Nat) : Run :=
  let x := r.porch p
  match x.store.find? fun e => (if sel = 0x55 then e.reissue else e.item.attr.cls.toNat = sel) && r.canInject p e,
      if sel = 0x55 then x.landSent.find? fun d => r.canResend p d else none with
  | some e, some d => if d.place < e.uid then r.resend p sel d else r.injectEnt p sel e
  | some e, none => r.injectEnt p sel e
  | none, some d => r.resend p sel d
  | none, none => r

def execRequestInject (p : Fin 8) (sel : Nat) (s : State) : Host.Outcome State Fault Refusal :=
  .next (Run.finish s ((Run.start s).inject p sel))

/-! ## Landing drains (R116–R118) -/

/-- The entry is eligible to drain (R116, R131), no older entry of its line is still Draining (R118), and its drain
passes no request of its identifier that was admitted before the write that opened it (R178, R186; log entry 101,
DEDUCED). -/
def Run.landEligible (r : Run) (p : Fin 8) (e : Land) : Bool :=
  let x := r.porch p
  let ctl := r.reg (pchBase p + 0x400)
  let q := x.queue e.oid
  !e.draining && decide (e.openedCc < r.c.cc) && allGone (q.filter fun y => decide (y.place < e.place)) false &&
    inRoom q e.room &&
    (e.mask = fullMask || decide (e.openedCc + bitsOf ctl 15 0 ≤ r.c.cc) ||
      decide (bitsOf ctl 23 16 < x.lands.length) || e.force || x.bars.any (fun b => b.kind ≠ .msync) ||
      r.mode = .drain) &&
    !(x.lands.any fun e' => e'.line = e.line && e'.draining) &&
    !(r.fenced (unitRoom (r.serving e.room)))

/-- The write that an entry's drain is (R116, R117). -/
def Land.item (e : Land) (p : Fin 8) : Item :=
  { src := .land e.seq p, op := .memWrPtl, meta' := .i, pa := linePa e.line, attr := e.attr, oid := e.oid,
    data := e.data, mask := e.mask, poison := e.poison, tin := e.tin }

/-- LANDING_DRAIN: a drain that a fence has called back goes first; else the oldest eligible entry becomes Draining and
goes to its Room as one write. -/
def Run.landDrain (r : Run) (p : Fin 8) : Run :=
  match (r.porch p).landSent.find? fun d => r.canResend p d with
  | some d => r.resend p 0x54 d
  | none => match (r.porch p).lands.find? fun e => r.landEligible p e with
    | some e =>
      r.inSlot (porchCal p) 0x54 fun r =>
        let sent : LandSent := { seq := e.seq, place := (r.porch p).nextUid, room := e.room, item := e.item p }
        let r := r.modPorch p fun x =>
          { x with lands := x.lands.map fun y => if y.seq = e.seq then { y with draining := true } else y,
                   landSent := x.landSent ++ [sent], nextUid := x.nextUid + 1 }
        r.toHallWords p (r.serving e.room) sent.item
    | none => r

def execLandingDrain (p : Fin 8) (s : State) : Host.Outcome State Fault Refusal :=
  .next (Run.finish s ((Run.start s).landDrain p))

/-- LANDING_ENTRY_FREE: the first acceptance that has come back frees its entry (R117). -/
def Run.landFree (r : Run) (p : Fin 8) : Run :=
  match (r.porch p).lndAcks with
  | n :: rest =>
    ((r.modPorch p fun x => { x with lndAcks := rest }).landDrop p fun e => e.seq = n).porchSettle p
  | [] => r

def execLandingEntryFree (p : Fin 8) (s : State) : Host.Outcome State Fault Refusal :=
  .next (Run.finish s ((Run.start s).landFree p))

/-! ## Response return (R342, R347, R502) -/

/-- The response of one entry starts on its link. -/
def Run.respond (r : Run) (p : Fin 8) (e : Ent) (a : Ans) : Run :=
  let r := match a with
    | .data d bad =>
      let r := r.toHost (.drs p e.k e.tag d bad)
      if bad then (r.pchCount p 0x118 1).hostLog p e.k .fail .media (some e.hpa) else r
    | .done => r.toHost (.ndr p e.k e.tag)
  let r := r.when e.hist fun r => r.histCount p e.histCfg ((r.now - e.admitAt + r.c.ccLen - 1) / r.c.ccLen)
  let r := match e.land with
    | some n => r.modPorch p fun x => { x with lands := x.lands.map fun (l : Land) =>
        if l.seq = n && !(l.links.contains e.k) then { l with links := l.links ++ [e.k] } else l }
    | none => r
  let r := r.modEnt p e.uid fun e => { e with sent := true }
  r.porchSettle p

/-- The oldest answered entry of a class whose turn has come and whose link has room (R216). -/
def Run.nextResponse (r : Run) (p : Fin 8) (sel : Nat) : Option (Ent × Ans) :=
  let x := r.porch p
  x.store.findSome? fun e => match e.ans with
    | some a =>
      if e.item.attr.cls.toNat = sel && !e.sent && !(isRsv e.item.op) && x.inTurn e && !(r.xingFull (.egress p e.k)) then
        some (e, a)
      else none
    | none => none

/-- RESPONSE_RETURN: in a response-return slot of class `sel`; with `sel` 64 or above, the oldest response of a
refused request, in a slot that the calendar names a class for. While the Timetable is stopped a response needs no
slot (R27, R30). -/
def Run.responseReturn (r : Run) (p : Fin 8) (sel : Nat) : Run :=
  if sel < 64 then
    match r.nextResponse p sel with
    | some (e, a) => if r.c.tt.run then r.inSlot (184 + p.val) sel fun r => r.respond p e a else r.respond p e a
    | none => r
  else match (r.porch p).refused with
    | x :: rest =>
      if (!r.c.tt.run || r.hasSlot (184 + p.val)) && !(r.xingFull (.egress p x.k)) then
        let r := r.when r.c.tt.run fun r => r.grant (184 + p.val)
        let r := r.modPorch p fun y => { y with refused := rest }
        if x.read then (r.toHost (.drs p x.k x.tag 0 x.poison)).pchCount p 0x118 1 else r.toHost (.ndr p x.k x.tag)
      else r
    | [] => r

def execResponseReturn (p : Fin 8) (sel : Nat) (s : State) : Host.Outcome State Fault Refusal :=
  .next (Run.finish s ((Run.start s).responseReturn p sel))

/-! ## Watchdogs (R342, R343) -/

/-- REQ_TIMEOUT: an admitted request has had no answer for PCHp_REQ_TIMEOUT.US outside SAFE. -/
def Run.reqTimeout (r : Run) (p : Fin 8) : Run :=
  match (r.porch p).store.find? fun e => e.ans.isNone && decide (e.admitAt + usec e.limitUs ≤ r.now) with
  | some e =>
    if r.mode = .safe then r
    else r.pchEvent p e.k Code.reqTimeout (some e.item.pa) (path := [unitPorch p, unitRoom (r.serving e.room)])
  | none => r

def execReqTimeout (p : Fin 8) (s : State) : Host.Outcome State Fault Refusal :=
  .next (Run.finish s ((Run.start s).reqTimeout p))

/-- HOST_STALL: a message of the link has waited PCHp_CRED_STALL.US; logged once while it waits. -/
def Run.hostStall (r : Run) (p : Fin 8) (k : Fin 2) : Run :=
  let mine := (r.porch p).store.filter fun e => e.k = k && e.ans.isSome && !e.sent && !(isRsv e.item.op)
  match mine.find? fun e => decide (e.answeredAt + usec e.stallUs ≤ r.now) with
  | some e =>
    if mine.any (·.stalled) then r
    else ((r.modEnt p e.uid fun e => { e with stalled := true }).pchEvent p k Code.hostStall).pchCount p 0x11C 1
  | none => r

def execHostStall (p : Fin 8) (k : Fin 2) (s : State) : Host.Outcome State Fault Refusal :=
  .next (Run.finish s ((Run.start s).hostStall p k))

end Sys2Proof.Machine
end

