-- ==== Sys2Proof/Machine/HostView.lean ====
section
/-! DEFINITION. What a host does outside CXL.mem requests: barriers and reservations through its host view, HDM
decoder commits, mailbox commands, and its link coming and going (R187–R204, R326–R345). -/
namespace Sys2Proof.Machine
open Sys2Proof

/-! ## Barriers (R187, R189, R197) -/

/-- Landing entries that hold a write of link k whose completion has been sent. -/
def Porch.covered (x : Porch) (k : Fin 2) : List Nat :=
  (x.lands.filter fun e => e.links.contains k).map (·.seq)

/-- Requests of link k that have been admitted and have not completed. -/
def Porch.openUids (x : Porch) (k : Fin 2) : List Nat :=
  (x.store.filter fun e => e.k = k && !e.sent).map (·.uid)

def Run.addBar (r : Run) (p : Fin 8) (b : Bar) : Run :=
  r.modPorch p fun x => { x with bars := x.bars ++ [{ b with id := x.nextBar }], nextBar := x.nextBar + 1 }

/-- A barrier of link k started now. -/
def Run.newBar (r : Run) (p : Fin 8) (k : Fin 2) (kind : BarKind) (lands uids : List Nat) (markers : BitVec 64) :
    Bar :=
  { id := 0, k := k, kind := kind, lands := lands, uids := uids, markers := markers, startAt := r.now,
    by' := r.now + usec (r.fld (pchBase p + 0x508) 15 0) }

/-- DRAIN_READ (R187). -/
def Run.drainRead (r : Run) (p : Fin 8) (k : Fin 2) : Run :=
  if (r.link p k).up then
    (r.addBar p (r.newBar p k .drain ((r.porch p).covered k) [] 0)).barCheck p
  else r

def execDrainRead (p : Fin 8) (k : Fin 2) (s : State) : Host.Outcome State Fault Refusal :=
  .next (Run.finish s ((Run.start s).drainRead p k))

/-- Transfers of Porch p that have not entered Room m yet. -/
def Run.behind (r : Run) (p : Fin 8) (m : Fin 64) : Nat :=
  let mine : Load → Bool
    | .item p' m' _ => p' = p && m' = m
    | _ => false
  r.c.hall.countP (fun h => h.p = p && h.m = m) + r.c.fly.countP fun f => mine f.load

/-- SYNC_READ (R189): the barrier, and one marker for each Room behind the Porch's transfers to it. -/
def Run.syncRead (r : Run) (p : Fin 8) (k : Fin 2) : Run :=
  if (r.link p k).up then
    let x := r.porch p
    let r := r.addBar p (r.newBar p k .sync (x.covered k) (x.openUids k) (BitVec.allOnes 64))
    r.forEach allRooms fun m r =>
      r.modRoom m fun y => { y with markers := y.markers ++ [{ bar := x.nextBar, p := p, behind := r.behind p m }] }
  else r

def execSyncRead (p : Fin 8) (k : Fin 2) (s : State) : Host.Outcome State Fault Refusal :=
  .next (Run.finish s ((Run.start s).syncRead p k))

/-- PCHp_MSYNC is busy. -/
def Porch.msyncBusy (x : Porch) : Bool := x.bars.any fun b => b.kind = .msync

/-- PCHp_MSYNC with GO (R197); the writer's illegal write is logged while it is busy. -/
def Run.msyncGo (r : Run) (w : Writer) (p : Fin 8) : Run :=
  let x := r.porch p
  if x.msyncBusy then r.wrEvent w Code.illegalWrite
  else
    let lands := (x.lands.filter fun e => !e.links.isEmpty).map (·.seq)
    let uids := (x.store.filter fun e => !e.sent).map (·.uid)
    let r := r.addBar p (r.newBar p 0 .msync lands uids 0)
    (r.modPorch p fun x => { x with msyncDone := false }).barCheck p

/-! ## Reservations at the Porch (R199, R200, R202) -/

/-- The slot exists on this link (R199). -/
def Run.rsvSlot (r : Run) (p : Fin 8) (slot : Fin 32) : Bool := !(r.bif p) || decide (slot.val < 16)

def Run.modSlot (r : Run) (p : Fin 8) (k : Fin 2) (slot : Fin 32) (f : RsvSlot → RsvSlot) : Run :=
  r.modLink p k fun l => { l with rsv := l.rsv.set slot.val (f l.rsv[slot]) slot.isLt }

/-- A reservation of Room m is broken (R203). -/
def Run.rsvBreak (r : Run) (m : Fin 64) (f : Rsv → Bool) : Run :=
  let n := ((r.room m).rsvs.filter f).length
  if n = 0 then r
  else
    let r := r.modRoom m fun y => { y with rsvs := y.rsvs.filter fun v => !(f v) }
    (r.rmCount m 0x3C4 n).pulse m 0x14 n

/-- DPA of the 8 B word that a slot names. -/
def RsvSlot.dpa (s : RsvSlot) : Nat := (s.addrHi.toNat <<< 32) ||| (s.addrLo.toNat / 8 * 8)

/-- The Porch checks of a reservation operation; it names a DPA, so the opcode and decode checks do not apply. -/
def Run.rsvCheck (r : Run) (p : Fin 8) (k : Fin 2) (dpa : Nat) : Chk :=
  if !(r.porch p).opened || r.mode = .safe then .fail 0 none else r.checkAddr p k (some dpa)

/-- The item of a reservation operation: its 8 B word placed in its line. -/
def Run.rsvItem (r : Run) (p : Fin 8) (k : Fin 2) (slot : Fin 32) (op : ROp) (pa : PoolAddr) (a : Attr)
    (word : BitVec 64) : Item :=
  let i := pa.toNat % 256
  { src := .rsv (r.porch p).nextUid p k slot, op := op, meta' := if op = .rsvLoad then .a else .i, pa := pa,
    attr := a, oid := r.ordId p a.tenant (paBlock pa),
    data := if op = .rsvStore then (word.setWidth 2048) <<< (8 * i) else 0,
    mask := if op = .rsvStore then (0xFF#256) <<< i else 0, tin := r.ftNs }

def Run.rsvEnqueue (r : Run) (p : Fin 8) (k : Fin 2) (it : Item) : Run :=
  r.enqueue { p := p, k := k, tag := 0, hpa := 0, meta' := .noOp, data := 0, be := 0, poison := false, tee := false,
              rsvd := false } it none true

/-- RSV_LOAD (R200): a read of LOAD_LO, or one 64 bits wide of LOAD_LO and then LOAD_HI (R199). -/
def Run.rsvLoad (r : Run) (p : Fin 8) (k : Fin 2) (slot : Fin 32) (wide : Bool) : Run :=
  let off := 0x2008 + slot.val * 0x40
  if !(r.link p k).up then r
  else if !(r.rsvSlot p slot) then
    (r.toHost (.view p k off 0)).when wide fun r => r.toHost (.view p k (off + 4) 0)
  else
    let r := r.modSlot p k slot fun s => { s with wide := wide }
    let r := r.forEach allRooms fun m r => r.rsvBreak m fun v => v.p = p && v.k = k && v.slot = slot
    match r.rsvCheck p k ((r.link p k).rsv[slot]).dpa with
    | .fail n pa => (r.checkEvent p k n pa none).rsvFinish p k slot .rsvLoad .done
    | .ok pa a =>
      let r := r.charge a.tenant .rd 8 r.ftNs
      let r := r.modSlot p k slot fun s => { s with loadWait := true }
      r.rsvEnqueue p k (r.rsvItem p k slot .rsvLoad pa a 0)

def execRsvLoad (p : Fin 8) (k : Fin 2) (slot : RsvRead) (s : State) : Host.Outcome State Fault Refusal :=
  .next (Run.finish s ((Run.start s).rsvLoad p k slot.slot slot.wide))

/-- RSV_STORE (R202): a write of STORE_HI starts the conditional store. -/
def Run.rsvStore (r : Run) (p : Fin 8) (k : Fin 2) (slot : Fin 32) (hi : Word) : Run :=
  if !(r.link p k).up || !(r.rsvSlot p slot) then r
  else
    let r := r.modSlot p k slot fun s => { s with storeHi := hi, stores := s.stores + 1 }
    let x := (r.link p k).rsv[slot]
    match r.rsvCheck p k x.dpa with
    | .fail n pa => (r.checkEvent p k n pa none).rsvFinish p k slot .rsvStore (.data 0 true)
    | .ok pa a => r.rsvEnqueue p k (r.rsvItem p k slot .rsvStore pa a (hi ++ x.storeLo))

def execRsvStore (p : Fin 8) (k : Fin 2) (slot : Fin 32) (hi : Word) (s : State) :
    Host.Outcome State Fault Refusal :=
  .next (Run.finish s ((Run.start s).rsvStore p k slot hi))

/-- RSV_RESULT_READ (R199): it waits while a store of the slot is in progress. -/
def Run.rsvResult (r : Run) (p : Fin 8) (k : Fin 2) (slot : Fin 32) : Run :=
  let off := 0x2018 + slot.val * 0x40
  let x := (r.link p k).rsv[slot]
  if !(r.link p k).up then r
  else if !(r.rsvSlot p slot) then r.toHost (.view p k off 0)
  else if x.stores ≠ 0 then r.modSlot p k slot fun s => { s with resultWait := s.resultWait + 1 }
  else r.toHost (.view p k off (x.result.setWidth 32))

def execRsvResultRead (p : Fin 8) (k : Fin 2) (slot : Fin 32) (s : State) : Host.Outcome State Fault Refusal :=
  .next (Run.finish s ((Run.start s).rsvResult p k slot))

/-! ## Other host-view registers (R336–R338) -/

/-- A write to a read-only host-view register: ignored and logged (R338). -/
def Run.viewRo (r : Run) (p : Fin 8) (k : Fin 2) : Run := r.pchEvent p k Code.csrAccessHost

/-- PCH_HV_INFO (R337). -/
def Run.hvInfo (r : Run) (p : Fin 8) (k : Fin 2) : Word :=
  w32 (packWord [(0, r.myId.toNat), (6, p.val), (9, k.val), (10, b2n (r.bif p)), (16, r.mode.code), (20, b2n (r.porch p).opened)])

/-- What a Porch reports of its memory to a host: active while the Porch is open (R28). -/
def Run.memActive (r : Run) (p : Fin 8) : Bool := (r.porch p).opened

/-- What a host's read of a host-view register returns that starts nothing (R191, R199, R336, R337): the status
registers, and a slot's ADDR, LOAD_HI and STORE words. -/
def Run.hostView (r : Run) (p : Fin 8) (k : Fin 2) (off : Nat) : Word :=
  if off = 0 then r.hvInfo p k
  else if off = 8 then w32 r.ftNs
  else if off = 0xC then (r.link p k).hvFtHi
  else if 0x2000 ≤ off ∧ off < 0x2800 then
    let slot : Fin 32 := ⟨(off - 0x2000) / 0x40 % 32, Nat.mod_lt _ (by decide)⟩
    let s := (r.link p k).rsv[slot]
    if !(r.rsvSlot p slot) then 0
    else match (off - 0x2000) % 0x40 with
      | 0 => s.addrLo
      | 4 => s.addrHi
      | 0xC => s.loadHi
      | 0x10 => s.storeLo
      | 0x14 => s.storeHi
      | _ => 0
  else 0

/-- A host's read of such a register: the read of PCH_HV_FT_LO latches the upper word (R337). The opcode table has no
row for it (log entry 103). -/
def Run.hostViewRead (r : Run) (p : Fin 8) (k : Fin 2) (off : Nat) : Run :=
  let r' := if off = 8 then r.modLink p k fun l => { l with hvFtHi := w32 (r.ftNs / 2 ^ 32) } else r
  r'.toHost (.view p k off (r.hostView p k off))

/-- A host write to the host view. Offsets with no register ignore it (R336). -/
def Run.hostViewWrite (r : Run) (p : Fin 8) (k : Fin 2) (off : Nat) (v : Word) : Run :=
  if !(r.link p k).up || off % 4 ≠ 0 then r
  else if off = 0 || off = 8 || off = 0xC || off = 0x1000 || off = 0x1004 then r.viewRo p k
  else if 0x2000 ≤ off ∧ off < 0x2800 then
    let slot : Fin 32 := ⟨(off - 0x2000) / 0x40 % 32, Nat.mod_lt _ (by decide)⟩
    let i := (off - 0x2000) % 0x40
    if !(r.rsvSlot p slot) then r
    else if i = 0 then r.modSlot p k slot fun s => { s with addrLo := v &&& 0xFFFFFFF8 }
    else if i = 4 then r.modSlot p k slot fun s => { s with addrHi := v &&& 0xFFFFF }
    else if i = 0x10 then r.modSlot p k slot fun s => { s with storeLo := v }
    else if i = 0x14 then r.rsvStore p k slot v
    else if i = 8 || i = 0xC || i = 0x18 then r.viewRo p k
    else r
  else r

def execHostViewWrite (p : Fin 8) (k : Fin 2) (off : BitVec 20) (v : Word) (s : State) :
    Host.Outcome State Fault Refusal :=
  .next (Run.finish s ((Run.start s).hostViewWrite p k off.toNat v))

/-! ## HDM decoders (R328, R329) -/

def Dec.dpaSize (d : Dec) : Nat := d.size.toNat / d.iw

/-- The DPA base of decoder n (R329). -/
def dpaBaseOf (ds : List Dec) (n : Nat) (skip : BitVec 52) : Nat :=
  ((ds.take n).filter (·.committed)).foldl (fun acc d => acc + d.dpaSize + d.dpaSkip.toNat) skip.toNat

/-- The four conditions of R329. -/
def Run.decOk (r : Run) (p : Fin 8) (k : Fin 2) (n : Nat) (d : Dec) : Bool :=
  let lo := d.dpaBase.toNat
  let hi := lo + d.dpaSize
  [1, 2, 4, 8, 16].contains d.iw && [256, 512, 1024, 2048, 4096, 8192, 16384].contains d.ig &&
    decide (hi ≤ r.fld (pchBase p + 0x20 + 4 * k.val) 12 0 * 2 ^ 30) && (r.link p k).biEn &&
    (r.decs p k).zipIdx.all fun e =>
      e.2 = n || !e.1.committed || decide (hi ≤ e.1.dpaBase.toNat) || decide (e.1.dpaBase.toNat + e.1.dpaSize ≤ lo)

/-- HDM_DECODER_COMMIT (R329). -/
def Run.hdmCommit (r : Run) (p : Fin 8) (k : Fin 2) (h : HdmCommit) : Run :=
  let ds := r.decs p k
  if !(r.link p k).up || decide (ds.length ≤ h.n.val) then r
  else
    let d : Dec :=
      { committed := true, hpaBase := h.hpaBase, size := h.size, iw := h.iw, ig := h.ig, dpaSkip := h.dpaSkip,
        dpaBase := BitVec.ofNat 52 (dpaBaseOf ds h.n.val h.dpaSkip), pos := h.pos }
    let d := if h.iw ≠ 0 && r.decOk p k h.n.val d then d else { committed := false, err := true }
    r.modLink p k fun l => { l with decs := l.decs.set h.n.val d h.n.isLt }

def execHdmDecoderCommit (p : Fin 8) (k : Fin 2) (h : HdmCommit) (s : State) : Host.Outcome State Fault Refusal :=
  .next (Run.finish s ((Run.start s).hdmCommit p k h))

/-! ## Mailbox (R328; opcodes and payloads of CXL 3.1, log entry 18, PRESUMED) -/

def evLogOf (b : Byte) : Option EvLog :=
  if b = 0 then some .info else if b = 1 then some .warn else if b = 2 then some .fail
  else if b = 3 then some .fatal else none

def leBytes : Nat → Nat → List Byte
  | 0, _ => []
  | k + 1, n => BitVec.ofNat 8 n :: leBytes k (n / 256)

/-- Drop the oldest `n` records of one log. -/
def dropLog (log : EvLog) : Nat → List HostEvent → List HostEvent
  | 0, es => es
  | _, [] => []
  | n + 1, e :: es => if e.log = log then dropLog log n es else e :: dropLog log (n + 1) es

/-- MAILBOX_COMMAND: carried out, or answered Unsupported (R328). -/
def Run.mailbox (r : Run) (p : Fin 8) (k : Fin 2) (c : MailCmd) : Run :=
  let l := r.link p k
  let ok (r : Run) (recs : List HostEvent := []) (bs : List Byte := []) : Run :=
    r.toHost (.mailbox p k c.opcode true recs bs)
  let log := (c.payload[0]?).bind evLogOf
  if !l.up then r
  else if c.opcode = 0x4000 then ok r [] (leBytes 8 (r.fld (pchBase p + 0x20 + 4 * k.val) 12 0 * 4))
  else if c.opcode = 0x0100 then
    match log with
    | some g => ok r (l.logs.filter fun e => e.log = g)
    | none => r.toHost (.mailbox p k c.opcode false [] [])
  else if c.opcode = 0x0101 then
    match log with
    | some g =>
      let all := (c.payload[1]?.getD 0).getLsbD 0
      let n := (c.payload[2]?.getD 0).toNat
      ok (r.modLink p k fun l =>
        { l with logs := if all then l.logs.filter fun e => e.log ≠ g else dropLog g n l.logs,
                 overflow := l.overflow.filter fun x => x ≠ g })
    | none => r.toHost (.mailbox p k c.opcode false [] [])
  else if c.opcode = 0x0102 then ok r [] l.evPolicy
  else if c.opcode = 0x0103 then ok (r.modLink p k fun l => { l with evPolicy := c.payload.take 4 })
  else if c.opcode = 0x0300 then ok r [] l.timestamp
  else if c.opcode = 0x0301 then ok (r.modLink p k fun l => { l with timestamp := c.payload.take 8 })
  else if c.opcode = 0x0400 || c.opcode = 0x0401 then ok r
  else r.toHost (.mailbox p k c.opcode false [] [])

def execMailboxCommand (p : Fin 8) (k : Fin 2) (c : MailCmd) (s : State) : Host.Outcome State Fault Refusal :=
  .next (Run.finish s ((Run.start s).mailbox p k c))

/-! ## Links (R326–R328, R339, R345) -/

/-- The link may train: its Porch is enabled and not fenced, the link exists, and the mode permits training
(R27, R28, R326). -/
def Run.mayTrain (r : Run) (p : Fin 8) (k : Fin 2) : Bool :=
  r.bit (pchBase p) 0 && !(r.fenced (unitPorch p)) && (k = 0 || r.bif p) &&
    r.mode ≠ .off && r.mode ≠ .aux && r.mode ≠ .load

/-- HOST_LINK_UP: the link enters L0, with its decoders uncommitted, and advertises its credits. -/
def Run.linkUp (r : Run) (p : Fin 8) (k : Fin 2) (speed : BitVec 4) (width : BitVec 5) (biEn ide blk : Bool) : Run :=
  if r.mayTrain p k && !(r.link p k).up && r.c.jtag = .none then
    let c := r.reg (pchBase p + 0x30)
    let h := if r.bif p then 2 else 1
    r.modLink p k fun l =>
      { l with up := true, speed := speed, width := width, biEn := biEn, biBlk := blk, ide := ide,
               decs := Vector.replicate 8 {},
               credits := (bitsOf c 9 0 / h, bitsOf c 19 10 / h, bitsOf c 29 20 / h) }
  else r

def execHostLinkUp (p : Fin 8) (k : Fin 2) (speed : BitVec 4) (width : BitVec 5) (biEn ide blk : Bool) (s : State) :
    Host.Outcome State Fault Refusal :=
  .next (Run.finish s ((Run.start s).linkUp p k speed width biEn ide blk))

/-- The link is down: waiting requests and waiting reads of its host view are gone, and the answers of its
admitted requests are discarded (R334, R345). -/
def Run.linkLost (r : Run) (p : Fin 8) (k : Fin 2) : Run :=
  let r := r.modLink p k fun l =>
    { l with up := false, speed := 0, width := 0, biEn := false, biBlk := false, ide := false, buf := [], bi := [], conf := [],
             credits := (0, 0, 0), rsv := l.rsv.map fun s => { s with loadWait := false, resultWait := 0 } }
  let r := r.modPorch p fun x =>
    { x with store := (x.store.map fun e => if e.k = k then { e with gone := true, sent := e.sent || (e.ans.isSome && !e.slotOp) } else e).filter
               fun e => !(e.sent && e.retired),
             refused := x.refused.filter fun e => e.k ≠ k,
             bars := x.bars.filter fun b => b.k ≠ k || b.kind = .msync }
  r.porchSettle p

/-- HOST_LINK_DOWN (R345). -/
def Run.linkDown (r : Run) (p : Fin 8) (k : Fin 2) : Run :=
  if (r.link p k).up then (r.pchEvent p k Code.linkDown).linkLost p k else r

def execHostLinkDown (p : Fin 8) (k : Fin 2) (s : State) : Host.Outcome State Fault Refusal :=
  .next (Run.finish s ((Run.start s).linkDown p k))

/-- PERST (R543): a fundamental reset of the link, with the effects of R345; its host view starts anew. -/
def Run.perst (r : Run) (p : Fin 8) (k : Fin 2) : Run :=
  (r.linkDown p k).modLink p k fun l =>
    { l with rsv := Vector.replicate 32 {}, evPolicy := [], timestamp := [], hvFtHi := 0, devFatal := false }

def execPerst (p : Fin 8) (k : Fin 2) (s : State) : Host.Outcome State Fault Refusal :=
  .next (Run.finish s ((Run.start s).perst p k))

end Sys2Proof.Machine
end

