-- ==== Sys2Proof/Machine/LineCode.lean ====
section
/-! DEFINITION. How a line lies in DRAM and on the data bus, its metadata word, and the Reed–Solomon line code
(R241, R243, R245–R250). -/
namespace Sys2Proof.Machine
open Sys2Proof

/-! ## DRAM geometry and commands (R241, R243) -/

/-- Where a line lies in its channel. `col` is the column of its first burst. -/
structure Place where
  rank : Nat
  bg : Nat
  bank : Nat
  row : Nat
  col : Nat
deriving DecidableEq, Repr

/-- How many rank bits a channel has. -/
def Chan.rankBits (x : Chan) : Nat := if x.ranks = 0 then 0 else if x.ranks = 1 then 1 else 2
def bgOf (idx : Nat) : Nat := idx % 8
def Chan.rankOf (x : Chan) (idx : Nat) : Nat := (idx >>> 5) % 2 ^ x.rankBits
def bankOf (idx : Nat) : Nat := (idx >>> 3) % 4
def Chan.colOf (x : Chan) (idx : Nat) : Nat := 32 * ((idx >>> (5 + x.rankBits)) % 64)
/-- The row: 16 bits for 16 Gb devices, 17 for 32 Gb devices. -/
def Chan.rowOf (x : Chan) (idx : Nat) : Nat := (idx >>> (11 + x.rankBits)) % 2 ^ (if x.dens then 17 else 16)
def Chan.place (x : Chan) (idx : Nat) : Place :=
  { rank := x.rankOf idx, bg := bgOf idx, bank := bankOf idx, row := x.rowOf idx, col := x.colOf idx }

/-- The n-th line index of a rank and bank group. -/
def Chan.nthLine (x : Chan) (rank bg n : Nat) : Nat :=
  bg ||| ((n % 4) <<< 3) ||| (rank <<< 5) ||| ((n / 4) <<< (5 + x.rankBits))

/-- The commands of one access, to both subchannels in lockstep: the activation in the slot, and two column commands, the
second with auto-precharge, which closes the row. -/
def Chan.access (x : Chan) (c : Fin 16) (write : Bool) (idx : Nat) : List Ddr :=
  let p := x.place idx
  let cas (n : Nat) (last : Bool) (after : Nat) : Ddr :=
    { c := c, op := .cas write last, rank := p.rank, bg := p.bg, bank := p.bank, addr := p.col + 16 * n, after := after }
  [{ c := c, op := .act, rank := p.rank, bg := p.bg, bank := p.bank, addr := p.row, after := 0 },
   cas 0 false Config.tRcd, cas 1 true (Config.tRcd + Config.tCcdL)]

/-! ## The data bus (R245, R246) -/

/-- The bits of a line as the DRAM holds them: 256 bytes of data, encrypted, and 64 spare bytes. -/
structure Raw where
  data : BitVec 2048 := 0
  spare : BitVec 512 := 0
deriving DecidableEq, Repr

/-- Devices 0–7 and 16–17 form subchannel A, the others subchannel B. -/
def subchannelA (k : Nat) : Bool := decide (k < 8) || k = 16 || k = 17

/-- The lowest bit of what device k drives in beat t of burst j: of the line's bytes, or of its spare bytes. -/
def busBit (k j t : Nat) : Nat :=
  if k < 16 then 8 * (128 * j + 8 * t) + 4 * k else 8 * (32 * j + 2 * t) + 4 * (k - 16)

def Raw.nibble (x : Raw) (k j t : Nat) : BitVec 4 :=
  if k < 16 then x.data.extractLsb' (busBit k j t) 4 else x.spare.extractLsb' (busBit k j t) 4

/-- The device that drives symbol s. -/
def symDevice (s : Nat) : Nat := s / 8

/-- Symbol s: one device's nibbles of four beats of a burst. -/
def Raw.sym (x : Raw) (s : Nat) : BitVec 16 :=
  let n (i : Nat) : BitVec 4 := x.nibble (symDevice s) (s / 4 % 2) (4 * (s % 4) + i)
  n 3 ++ n 2 ++ n 1 ++ n 0

/-- The line with the bits `v` of symbol s flipped. -/
def Raw.flip (x : Raw) (s : Nat) (v : BitVec 16) : Raw :=
  (List.range 4).foldl (fun y i =>
    let n := (v.extractLsb' (4 * i) 4)
    let at' := busBit (symDevice s) (s / 4 % 2) (4 * (s % 4) + i)
    if s < 128 then { y with data := y.data ^^^ (n.setWidth 2048 <<< at') }
    else { y with spare := y.spare ^^^ (n.setWidth 512 <<< at') }) x

/-! ## The metadata word (R247) -/

def metaBits (md : Meta) : BitVec 48 :=
  (0#2 ++ md.lcode ++ md.way ++ md.epoch ++ md.state ++ BitVec.ofBool md.poison ++ BitVec.ofBool md.dirty ++ md.tenant ++
    md.tagSh : BitVec 48)

/-- One bit of CRC-16 with polynomial 0x1021. -/
def crcStep (crc : BitVec 16) (b : Bool) : BitVec 16 :=
  let x := crc <<< 1
  if crc.getLsbD 15 == b then x else x ^^^ 0x1021#16

/-- SCHK: CRC-16 with initial value 0xFFFF over six bytes, low byte first, each from its high bit on. -/
def schk (w : BitVec 48) : BitVec 16 :=
  (List.range 48).foldl (fun crc i => crcStep crc (w.getLsbD (8 * (i / 8) + 7 - i % 8))) 0xFFFF#16

def metaWord (md : Meta) : BitVec 64 := schk (metaBits md) ++ metaBits md

/-- SCHK of a metadata word agrees with its fields. -/
def schkOk (w : BitVec 64) : Bool := schk (w.extractLsb' 0 48) = w.extractLsb' 48 16

def metaOf (w : BitVec 64) : Meta :=
  { tagSh := w.extractLsb' 0 16, tenant := w.extractLsb' 16 12, dirty := w.getLsbD 28, poison := w.getLsbD 29,
    state := w.extractLsb' 30 2, epoch := w.extractLsb' 32 8, way := w.extractLsb' 40 4, lcode := w.extractLsb' 44 2 }

/-! ## GF(2^16) (R248) -/

abbrev Gf := BitVec 16

/-- α·a, in the field of x^16 + x^12 + x^3 + x + 1. -/
def gfShift (a : Gf) : Gf := (a <<< 1) ^^^ (if a.getLsbD 15 then 0x100B#16 else 0)

def gfMulFrom : Nat → Gf → Gf → Gf → Gf
  | 0, _, _, acc => acc
  | n + 1, a, b, acc => gfMulFrom n (gfShift a) (b >>> 1) (if b.getLsbD 0 then acc ^^^ a else acc)
def gfMul (a b : Gf) : Gf := gfMulFrom 16 a b 0

/-- α^n. -/
def gfExp : Nat → Gf
  | 0 => 1
  | n + 1 => gfShift (gfExp n)

def gfInvFrom : Nat → Gf → Gf → Gf
  | 0, _, acc => acc
  | n + 1, a, acc => gfInvFrom n (gfMul a a) (gfMul acc (gfMul a a))
/-- The inverse: the power 2^16 − 2, the product of the powers 2 to 2^15. -/
def gfInv (a : Gf) : Gf := gfInvFrom 15 a 1

/-! A polynomial is the list of its coefficients, the constant one first. -/

def polyEval (p : List Gf) (x : Gf) : Gf := p.foldr (fun c acc => c ^^^ gfMul acc x) 0

def polyAdd : List Gf → List Gf → List Gf
  | [], q => q
  | p, [] => p
  | a :: p, b :: q => (a ^^^ b) :: polyAdd p q

def polyScale (a : Gf) (p : List Gf) : List Gf := p.map (gfMul a)
def polyMul (p q : List Gf) : List Gf := p.foldr (fun a acc => polyAdd (polyScale a q) (0 :: acc)) []

/-- The polynomial without the zeros of its highest degrees. -/
def polyTrim (p : List Gf) : List Gf := (p.reverse.dropWhile fun a => a = 0).reverse

/-- Quotient and remainder by a trimmed polynomial. -/
def polyDiv (q : List Gf) : Nat → List Gf → List Gf → List Gf × List Gf
  | 0, p, quo => (quo, polyTrim p)
  | n + 1, p, quo =>
    let p := polyTrim p
    if q = [] ∨ p.length < q.length then (quo, p)
    else
      let a := gfMul (p.getLastD 0) (gfInv (q.getLastD 0))
      let mono := List.replicate (p.length - q.length) 0 ++ [a]
      polyDiv q n (polyAdd p (polyMul mono q)) (polyAdd quo mono)

/-- The formal derivative, in characteristic 2. -/
def polyDeriv (p : List Gf) : List Gf := p.zipIdx.tail.map fun x => if x.2 % 2 = 1 then x.1 else 0

/-! ## The code (R248, R249) -/

/-- Parity symbols of a strength. -/
def paritySyms (lc : BitVec 2) : Nat := if lc = 0 then 8 else if lc = 1 then 16 else if lc = 2 then 24 else 28

/-- Symbol s lies in the codeword of a strength. -/
def inCodeword (lc : BitVec 2) (s : Nat) : Bool := decide (s < 128) || decide ((s - 128) % 8 ≤ paritySyms lc / 4)

/-- The symbol of the i-th parity position: in spare-byte order, ECC devices 16 to 19 within each group. -/
def paritySym (i : Nat) : Nat := 8 * (16 + i % 4) + 1 + i / 4

/-- The symbols of positions c_0 to c_(P+131). -/
def codePlaces (lc : BitVec 2) : List Nat :=
  (List.range (paritySyms lc)).map paritySym ++ [128, 136, 144, 152] ++ List.range 128

/-- The generator polynomial with P roots. -/
def generator (n : Nat) : List Gf := (List.range n).foldl (fun g i => polyMul g [gfExp i, 1]) [1]

/-- One message symbol, from the highest degree down, through the division by the generator. -/
def parityStep (g rem : List Gf) (a : Gf) : List Gf :=
  let b := a ^^^ rem.getLastD 0
  polyAdd (0 :: rem.dropLast) (polyScale b g.dropLast)

/-- The line as it is written: data as DRAM holds it, metadata and parity; unused parity positions hold zero (R253). -/
def encodeRaw (data : BitVec 2048) (md : Meta) : Raw :=
  let x : Raw := { data := data, spare := (metaWord md).setWidth 512 }
  let n := paritySyms md.lcode
  let msg := ((codePlaces md.lcode).drop n).map x.sym
  let par := msg.foldr (fun a rem => parityStep (generator n) rem a) (List.replicate n 0)
  par.zipIdx.foldl (fun y s => y.flip (paritySym s.2) s.1) x

/-- Euclid's algorithm on x^P and the syndromes, until the remainder's degree is below half of `stop`: the locator of the
errors and their evaluator. -/
def euclid (stop : Nat) : Nat → List Gf → List Gf → List Gf → List Gf → List Gf × List Gf
  | 0, _, r, _, t => (t, r)
  | k + 1, r0, r, t0, t =>
    if 2 * r.length < stop + 2 ∨ r = [] then (t, r)
    else
      let (q, rem) := polyDiv r (r0.length + 1) r0 []
      euclid stop k r rem t (polyAdd t0 (polyMul q t))

/-- Bounded-distance decoding with `n` parity symbols and these erased positions: the codeword with e + 2t ≤ P from the
word, if there is one. -/
def rsDecode (n : Nat) (erased : List Nat) (word : List Gf) : Option (List Gf) :=
  let synd (w : List Gf) := (List.range n).map fun j => polyEval w (gfExp j)
  let s := synd word
  let gam := erased.foldl (fun p i => polyMul p [1, gfExp i]) [1]
  let t := polyTrim ((polyMul s gam).take n)
  let (lam, om) := euclid (n + erased.length) (n + 1) (List.replicate n 0 ++ [1]) t [] [1]
  let psi := polyTrim (polyMul lam gam)
  let dpsi := polyDeriv psi
  let fixed := word.zipIdx.map fun x =>
    let inv := gfInv (gfExp x.2)
    if polyEval psi inv = 0 then x.1 ^^^ gfMul (gfExp x.2) (gfMul (polyEval om inv) (gfInv (polyEval dpsi inv))) else x.1
  let wrong := (word.zip fixed).zipIdx.filter fun x => x.1.1 ≠ x.1.2 && !(erased.contains x.2)
  if (synd fixed).all (fun a => a = 0) && decide (erased.length + 2 * wrong.length ≤ n) then some fixed else none

/-! ## Errors of a read -/

/-- The bits of symbol s that the read finds flipped. -/
def errAt (e : ErrPat) (s : Nat) : BitVec 16 := (e.syms.filter fun x => x.1 = s).foldl (fun v x => v ^^^ x.2) 0

/-- The symbols that are in error. -/
def errAll (e : ErrPat) : List Nat := (e.syms.map (·.1)).dedup.filter fun s => errAt e s ≠ 0

/-- Symbols of the codeword that are in error, erased ones included. -/
def badSyms (lc : BitVec 2) (e : ErrPat) : List Nat := (errAll e).filter (inCodeword lc)

/-- Erased symbols of a strength with this marked device (R249). -/
def erasures (lc : BitVec 2) : Option Nat → Nat
  | none => 0
  | some d => if d < 16 then 8 else 1 + paritySyms lc / 4

/-- The symbol errors that the decoder sees beyond the erased device. -/
def errSyms (lc : BitVec 2) (mark : Option Nat) (e : ErrPat) : List Nat :=
  (badSyms lc e).filter fun s => mark ≠ some (symDevice s)

/-- The strength corrects the errors: e + 2t ≤ P (R249). -/
def decodes (lc : BitVec 2) (mark : Option Nat) (e : ErrPat) : Bool :=
  decide (erasures lc mark + 2 * (errSyms lc mark e).length ≤ paritySyms lc)

/-- The flipped bits of a read, as a line of their own. -/
def flipsOf (e : ErrPat) : Raw := e.syms.foldl (fun y s => y.flip s.1 s.2) {}

/-! ## Decoding (R250) -/

/-- The line as DRAM holds it (R254; log entry 3, DESIGN CHOICE). -/
def Line.raw (x : Line) : Raw := encodeRaw (match x.crypt with
  | none => x.data
  | some k => Config.xtsCipher k x.data) x.md

/-- The metadata word of a line as a read with the errors `e` finds it. -/
def Line.rawWord (x : Line) (e : ErrPat) : BitVec 64 := metaWord x.md ^^^ (flipsOf e).spare.extractLsb' 0 64

/-- A line with other bits than those that were written. -/
def Line.ofRaw (x : Line) (y : Raw) : Line :=
  { data := match x.crypt with
      | none => y.data
      | some k => if y.data = Config.xtsCipher k x.data then x.data else Config.xtsPlain k y.data,
    crypt := x.crypt, md := metaOf (y.spare.extractLsb' 0 64) }

/-- The decoder at strength `lc`, on a line that was written at another: the codeword that it finds, as a line, and
whether it is consistent. -/
def Line.miscorrect (x : Line) (mark : Option Nat) (e : ErrPat) (lc : BitVec 2) : Option (Line × Bool) :=
  let a := x.raw
  let b := flipsOf e
  let y : Raw := { data := a.data ^^^ b.data, spare := a.spare ^^^ b.spare }
  let places := codePlaces lc
  let erased := (places.zipIdx.filter fun s => mark = some (symDevice s.1)).map (·.2)
  (rsDecode (paritySyms lc) erased (places.map y.sym)).map fun w =>
    let z : Raw := (places.zip w).foldl (fun y s => y.flip s.1 (y.sym s.1 ^^^ s.2)) y
    let word := z.spare.extractLsb' 0 64
    (x.ofRaw z, schkOk word && (metaOf word).lcode = lc)

/-- What the decoder makes of the line at strength `lc`, and whether that is consistent: at the strength the line was
written with, the line itself exactly when e + 2t ≤ P (R249; log entry 14, DEDUCED). -/
def Line.decodeAt (x : Line) (mark : Option Nat) (e : ErrPat) (lc : BitVec 2) : Option (Line × Bool) :=
  if lc = x.md.lcode then (if decodes lc mark e then some (x, true) else none) else x.miscorrect mark e lc

/-- The line that the decoder accepts: at the strength that the raw metadata record, when SCHK passes on them, and
otherwise at the one strength with a consistent result (R250). -/
def Line.decode (x : Line) (mark : Option Nat) (e : ErrPat) : Option Line :=
  let w := x.rawWord e
  if schkOk w then (x.decodeAt mark e (metaOf w).lcode).map (·.1)
  else match ((List.range 4).filterMap fun lc => x.decodeAt mark e (BitVec.ofNat 2 lc)).filter (·.2) with
    | [y] => some y.1
    | _ => none

end Sys2Proof.Machine
end

