-- ==== Sys2Proof/Machine/Cellar.lean ====
section
/-! DEFINITION. The Cellar: lines in DRAM, the line code, the repeat corrector and the remap table, and the issue of
commands in their slots (R239–R259). -/
namespace Sys2Proof.Machine
open Sys2Proof

/-! ## Lines -/

def dramKey (c : Fin 16) (idx : Nat) : Nat := c.val * 2 ^ 30 + idx

/-- The remap entry that stands for a line index (R257). -/
def Chan.remapOf (x : Chan) (idx : Nat) : Option (Fin 8) :=
  (List.finRange 8).find? fun i => x.remap[i] = some idx

/-- The line at a line index, from its remap line when it has one (R257). -/
def Run.line (r : Run) (c : Fin 16) (idx : Nat) : Line :=
  match (r.chan c).remapOf idx with
  | some i => mget Line.unwritten r.m.remap (c.val * 8 + i.val)
  | none => mget Line.unwritten r.m.dram (dramKey c idx)

def Run.putLine (r : Run) (c : Fin 16) (idx : Nat) (x : Line) : Run :=
  match (r.chan c).remapOf idx with
  | some i => r.st (.remap (c.val * 8 + i.val) x)
  | none => r.st (.dram (dramKey c idx) x)

/-- The 512-bit key slot of a tenant (R358). -/
def Run.tenantKey (r : Run) (t : BitVec 12) : BitVec 512 :=
  BitVec.ofNat 512 ((List.range 16).foldl (fun acc w => acc ||| ((mget 0 r.m.keys (t.toNat * 16 + w)).toNat <<< (32 * w))) 0)

/-- The key and tweak a line of the tenant at the pool address is encrypted under; none for tenant 0 (R254). -/
def Run.crypt (r : Run) (t : BitVec 12) (pa : PoolAddr) : Option (BitVec 560) :=
  if t = 0 then none else some (r.tenantKey t ++ linePa (paLine pa))

/-- A line as its writer supplies it (R253). -/
def Run.encrypt (r : Run) (t : BitVec 12) (pa : PoolAddr) (d : LineData) (md : Meta) : Line :=
  { data := d, crypt := r.crypt t pa, md := md }

/-- The data that a line decrypts to (R254; log entry 3, DESIGN CHOICE). -/
def Run.decrypt (r : Run) (t : BitVec 12) (pa : PoolAddr) (x : Line) : LineData :=
  let k := r.crypt t pa
  if x.crypt = k then x.data else Config.xtsWrong x.crypt k x.data

/-! ## The line code (R248–R250) -/

/-- The marked device of a rank (R251). -/
def Run.mark (r : Run) (c : Fin 16) (rank : Nat) : Option Nat :=
  let w := r.reg (celBase c + 4 + 4 * rank)
  if w.testBit 7 then some (bitsOf w 4 0) else none

/-- The line that the decoder makes of what it reads, in this rank (R250). -/
def Run.decode (r : Run) (c : Fin 16) (rank : Nat) (x : Line) (e : ErrPat) : Option Line := x.decode (r.mark c rank) e

/-- What reading a line gives: its data and poison mark, or uncorrectable with the cause of R373
(1 CODE, 2 STATE, 3 SHADOW). -/
inductive Rd
  | ok (d : LineData) (poison : Bool)
  | ue (cause : Nat)
deriving DecidableEq, Repr

/-- The shadow compare of R252 step 5. -/
def Meta.shadowEq (a b : Meta) : Bool :=
  a.state = 2 && a.tagSh = b.tagSh && a.tenant = b.tenant && a.epoch = b.epoch && a.way = b.way

/-- Steps 1 to 6 of R252 on a line that meets the errors `e` in rank `rank` of channel c. -/
def Run.rdLine (r : Run) (c : Fin 16) (rank : Nat) (x : Line) (e : ErrPat) (t : BitVec 12) (pa : PoolAddr)
    (near : Option Meta) : Rd :=
  match r.decode c rank x e with
  | none => .ue 1
  | some y =>
    if y.md.state = 0 then .ok 0 false
    else if y.md.state = 3 then .ue 2
    else if near.any fun n => !(y.md.shadowEq n) then .ue 3
    else .ok (r.decrypt t pa y) y.md.poison

/-- The metadata of a line that the Cellar trusts, with the line itself where it is correctable: SCHK lets it trust the
metadata alone (R247). -/
def Run.shadow (r : Run) (c : Fin 16) (rank : Nat) (x : Line) (e : ErrPat) : Option (Meta × Option Line) :=
  match r.decode c rank x e with
  | some y => some (y.md, some y)
  | none => if schkOk (x.rawWord e) then some (metaOf (x.rawWord e), none) else none

/-- The errors of a read that reach the decoder: none when a remap line stands for the line index (R257). -/
def Run.errOf (r : Run) (c : Fin 16) (idx : Nat) (e : ErrPat) : ErrPat :=
  if ((r.chan c).remapOf idx).isSome then {} else e

/-! ## Corrections: device counts, repeat corrector, remap (R251, R255–R259) -/

/-- Count a corrected line: CE, and DEV_HIT for each device with enough symbols in error (R251). -/
def Run.countCorrected (r : Run) (c : Fin 16) (rank : Nat) (lc : BitVec 2) (e : ErrPat) (count : Bool) : Run :=
  let syms := badSyms lc e
  let r := r.when count fun r => r.count32 (celBase c + 0x20) 1
  r.forEach (List.range 20) fun d r =>
    if r.fld 0x110004 3 0 ≤ (syms.filter fun s => symDevice s = d).length ∧ 0 < r.fld 0x110004 3 0 then
      (r.count16 (celBase c + 0x100 + 4 * (20 * rank + d)) 1).chEvent c Code.devHit none (20 * rank + d)
    else r

/-- An uncorrectable line counts, and RANK_UE is raised when its errors span two devices (R374). -/
def Run.countUe (r : Run) (c : Fin 16) (rank : Nat) (lc : BitVec 2) (cause : Nat) (e : ErrPat)
    (addr : Option PoolAddr) : Run :=
  let r := r.count32 (celBase c + 0x24) 1
  let r := r.when (cause = 3) fun r => r.count32 (celBase c + 0x28) 1
  r.when (cause = 1 && decide (2 ≤ ((badSyms lc e).map symDevice).dedup.length)) fun r =>
    r.chEvent c Code.rankUe addr rank 1

/-- What a read counts that is no demand read and no scrub read: a corrected line, or one that no strength decodes. -/
def Run.countRead (r : Run) (c : Fin 16) (rank : Nat) (x : Line) (e : ErrPat) (addr : Option PoolAddr) : Run :=
  if (r.decode c rank x e).isNone then r.countUe c rank x.md.lcode 1 e addr
  else if (badSyms x.md.lcode e).isEmpty then r
  else r.countCorrected c rank x.md.lcode e true

/-- Put a line that was corrected again after its rewrite into the remap table (R257, R258): true when the table
has room. -/
def Run.remapLine (r : Run) (c : Fin 16) (idx : Nat) : Run × Bool :=
  match (List.finRange 8).find? fun i => (r.chan c).remap[i] = none with
  | some i =>
    let x := r.line c idx
    let r := r.modChan c fun y => { y with remap := y.remap.set i.val (some idx) i.isLt,
                                           cam := y.cam.filter fun e => e.line ≠ idx }
    (r.st (.remap (c.val * 8 + i.val) x), true)
  | none => (r.count32 (celBase c + 0x34) 1, false)

/-- The Counting entry that R259 replaces. -/
def camVictim (cam : List CamEnt) : Option CamEnt :=
  (cam.filter fun e => e.st = .counting).foldl (fun best e => match best with
    | none => some e
    | some b => if e.count < b.count || (e.count = b.count && e.seq < b.seq) then some e else some b) none

/-- One correction of a line goes to the repeat corrector (R255–R259); the flag says that the remap table was
full. -/
def Run.repeatCount (r : Run) (c : Fin 16) (idx : Nat) : Run × Bool :=
  let x := r.chan c
  let n := r.fld 0x110000 2 0
  let add (y : Chan) (cam : List CamEnt) : Chan :=
    { y with cam := cam ++ [{ line := idx, count := 1, st := if n ≤ 1 then .pending else .counting, seq := y.camSeq }],
             camSeq := y.camSeq + 1 }
  if (x.remapOf idx).isSome then (r, false)
  else match x.cam.find? fun e => e.line = idx with
    | some e =>
      match e.st with
      | .counting =>
        (r.modChan c fun y => { y with cam := y.cam.map fun (e' : CamEnt) =>
          if e'.line = idx then
            { e' with count := e'.count + 1, st := if n ≤ e'.count + 1 then .pending else .counting }
          else e' }, false)
      | .pending => (r, false)
      | .rewritten => let (r, ok) := r.remapLine c idx; (r, !ok)
    | none =>
      if x.cam.length < 16 then (r.modChan c fun y => add y y.cam, false)
      else match camVictim x.cam with
        | some v => (r.modChan c fun y => add y (y.cam.filter fun e => e.line ≠ v.line), false)
        | none => (r.count32 (celBase c + 0x30) 1, false)

/-! ## Command slots (R210, R216, R218, R233) -/

/-- Length of tRFC in cc: 295 ns (the spec's example), and 410 ns for 32 Gb devices (log entry 107, PRESUMED). -/
def Run.tRfc (r : Run) (c : Fin 16) : Nat :=
  ((if (r.chan c).dens then 4100 else 2950) + r.c.ccLen - 1) / r.c.ccLen

/-- The slots of a Timetable period in which a channel's calendar has a refresh record of a rank. -/
def Run.refreshSlots (r : Run) (c : Fin 16) (rank : Nat) : List Nat :=
  (List.range 4096).filter fun n => match r.record r.c.tt.cur (160 + c.val) n with
    | some (_, w) => bitsOf w 1 0 = 1 && bitsOf w 6 5 = rank
    | none => false

/-- The slots midway between consecutive refresh records, the last of a period and the first of the next among
them. -/
def midways : List Nat → List Nat
  | [] => []
  | a :: l => (a :: l).zipWith (fun x y => (x + (y - x) / 2) % 4096) (l ++ [a + 4096])

/-- The current slot lies within tRFC of an extra refresh of the channel (R233). -/
def Run.extraRefresh (r : Run) (c : Fin 16) : Bool :=
  let x := r.chan c
  x.tcr2x && (List.range (2 ^ x.rankBits)).any fun rank =>
    (midways (r.refreshSlots c rank)).any fun mid => decide ((r.c.tt.slot.toNat % 4096 + 4096 - mid) % 4096 < r.tRfc c)

/-- The record of the current slot is a data access that fits an access to `idx` (R216) and does not pass unused
for an extra refresh (R233); a write finds room in its crossing (R33). -/
def Run.recFits (r : Run) (c : Fin 16) (write : Bool) (idx : Nat) : Bool :=
  match r.curRecord (160 + c.val) with
  | some (_, w) =>
    bitsOf w 1 0 = 0 && w.testBit 7 = write && bitsOf w 4 2 = bgOf idx && bitsOf w 6 5 = (r.chan c).rankOf idx &&
      !(r.extraRefresh c) && !(write && r.xingFull (.celWrite c))
  | none => false

/-- The commands of an access go to the DRAM, but for a remapped line (R241, R257); the line of a write goes through the
Cellar write crossing (R489). -/
def Run.ddr (r : Run) (c : Fin 16) (write : Bool) (idx : Nat) : Run :=
  let r := r.when write fun r => r.cross (.celWrite c) lineWords
  if ((r.chan c).remapOf idx).isSome then r
  else r.modOut fun o => { o with ddr := o.ddr ++ (r.chan c).access c write idx }

/-- A line comes back through the Cellar read crossing (R489). -/
def Run.lineBack (r : Run) (c : Fin 16) : Run := r.took (.celRead c) lineWords

/-- An idle Cellar-command slot fits an access to `idx` (R218). -/
def Run.idleFits (r : Run) (c : Fin 16) (write : Bool) (idx : Nat) : Bool :=
  r.canIdle (160 + c.val) && r.recFits c write idx

/-- REPEAT_CORRECT_WRITE (R255): the oldest Pending entry whose rank and bank group the idle slot fits is
rewritten. The corrected line is what the model's DRAM holds. -/
def Run.repeatWrite (r : Run) (c : Fin 16) : Run :=
  if r.fenced (unitChan c) then r
  else match (r.chan c).cam.find? fun e => e.st = .pending && r.idleFits c true e.line with
    | some e =>
      let r := r.grant (160 + c.val)
      let r := r.modChan c fun y => { y with cam := y.cam.map fun (e' : CamEnt) =>
        if e'.line = e.line then { e' with st := .rewritten } else e' }
      ((r.ddr c true e.line).count32 (celBase c + 0x2C) 1).charge 0 .cellar 1 r.ftNs
    | none => r

def execRepeatCorrectWrite (c : Fin 16) (s : State) : Host.Outcome State Fault Refusal :=
  .next (Run.finish s ((Run.start s).repeatWrite c))

/-! ## The command queue (R244, R210) -/

/-- A demand write that reaches the channel cancels a Pending corrective write of its line (R256). -/
def Run.cancelRepeat (r : Run) (c : Fin 16) (idx : Nat) : Run :=
  r.modChan c fun y =>
    { y with cam := y.cam.map fun (e : CamEnt) => if e.line = idx && e.st = .pending then { e with st := .rewritten } else e }

/-- A command reaches channel c. -/
def Run.celPush (r : Run) (c : Fin 16) (x : CelCmd) : Run :=
  (r.when x.write fun r => r.cancelRepeat c x.idx).modChan c fun y => { y with queue := y.queue ++ [x] }

def CelCmd.isRmw (x : CelCmd) : Bool := match x.purpose with
  | some (.rmw _ _) => true
  | _ => false

/-- The oldest command of Room `m` that fits the slot and waits for no earlier one of its line index (R244). -/
def Run.nextCmd (r : Run) (c : Fin 16) (m : Nat) : Option (Nat × CelCmd) :=
  let x := r.chan c
  ((x.queue.zipIdx.find? fun e =>
    (r.serving e.1.m).val = m && r.recFits c e.1.write e.1.idx &&
      !((x.queue.take e.2).any fun e' => e'.idx = e.1.idx) &&
      !(x.flight.any fun e' => e'.isRmw && e'.idx = e.1.idx))).map fun e => (e.2, e.1)

/-- A demand write that issues leaves nothing to do for a waiting poison or recovery rewrite of its line (log entry 19,
DEDUCED). -/
def Run.freshWrite (r : Run) (c : Fin 16) (idx : Nat) : Run :=
  r.modChan c fun y =>
    { y with poisonQ := y.poisonQ.filter fun i => i ≠ idx, twinQ := y.twinQ.filter fun i => i ≠ idx }

/-- The line waits for its poison rewrite (R261). -/
def Run.poisonLater (r : Run) (c : Fin 16) (idx : Nat) : Run :=
  r.modChan c fun y => { y with poisonQ := if y.poisonQ.contains idx then y.poisonQ else y.poisonQ ++ [idx] }

/-- The line is to be rewritten with what a recovery read brings (R261, R263). -/
def Run.twinLater (r : Run) (c : Fin 16) (idx : Nat) : Run :=
  r.modChan c fun y => { y with twinQ := if y.twinQ.contains idx then y.twinQ else y.twinQ ++ [idx] }

/-- The write buffer entry's Cellar write has been taken (R105): the entry frees when nothing else is awaited. -/
def WbEnt.done (e : WbEnt) : Bool := e.st = .issued && !e.needCel && !e.needAck && !e.needTwin && !e.twinLater

end Sys2Proof.Machine
end

