-- ==== Sys2Proof/Machine/Fabric.lean ====
section
/-! DEFINITION. Falow messages: their types, their bits, and their way to a Door (R161, R290–R295, R308–R313). -/
namespace Sys2Proof.Machine
open Sys2Proof

/-! ## Message types (R293) -/

namespace Op
def fillP : BitVec 8 := 0x01
def fillS : BitVec 8 := 0x02
def fillO : BitVec 8 := 0x03
def upgrade : BitVec 8 := 0x04
def rdU : BitVec 8 := 0x05
def wrU : BitVec 8 := 0x06
def wb : BitVec 8 := 0x07
def mirrorWr : BitVec 8 := 0x08
def data : BitVec 8 := 0x20
def ackO : BitVec 8 := 0x21
def wrAck : BitVec 8 := 0x22
def invAck : BitVec 8 := 0x23
def recallAck : BitVec 8 := 0x24
def invData : BitVec 8 := 0x25
def recallData : BitVec 8 := 0x26
def inv : BitVec 8 := 0x40
def rcl : BitVec 8 := 0x41
def heartbeat : BitVec 8 := 0x60
end Op

/-- GRANT values of DATA (R292). -/
def grantP : BitVec 2 := 0
def grantS : BitVec 2 := 1
def grantO : BitVec 2 := 2
def grantU : BitVec 2 := 3

/-- Frames of a message type; none for an OP that the table does not list. -/
def opFrames (op : BitVec 8) : Option Nat :=
  if [0x06, 0x07, 0x08, 0x20, 0x25, 0x26].contains op.toNat then some 3
  else if [0x01, 0x02, 0x03, 0x04, 0x05, 0x21, 0x22, 0x23, 0x24, 0x40, 0x41, 0x60].contains op.toNat then some 1
  else none

/-- CLASS of a message type (R291): 0 request, 1 response, 2 snoop, 4 management. -/
def opClass (op : BitVec 8) : Nat :=
  if op.toNat < 0x20 then 0 else if op.toNat < 0x40 then 1 else if op.toNat < 0x60 then 2 else 4

/-! ## Bits (R292) -/

/-- The message bytes, 112 to a frame. -/
def msgBits (f : FMsg) : BitVec 2688 :=
  let nfr := (opFrames f.op).getD 1
  let w0 := f.dst.toNat + f.src.toNat * 2 ^ 6 + f.hops.toNat * 2 ^ 12 + f.op.toNat * 2 ^ 16 + nfr * 2 ^ 24
  let w1 := f.eseq.toNat + f.tag.toNat * 2 ^ 16
  let w2 := f.addr.toNat % 2 ^ 32
  let w3 := f.addr.toNat / 2 ^ 32 + f.tenant.toNat * 2 ^ 8 + f.kind.toNat * 2 ^ 20 + b2n f.mirror * 2 ^ 22 +
    b2n f.poison * 2 ^ 23 + b2n f.noinst * 2 ^ 24 + b2n f.twin * 2 ^ 25 + b2n f.held * 2 ^ 26 + b2n f.last * 2 ^ 27 +
    f.grant.toNat * 2 ^ 28
  let w4 := f.mask.toNat + f.word4hi.toNat * 2 ^ 16
  let h := BitVec.ofNat 2688 (w0 + w1 * 2 ^ 32 + w2 * 2 ^ 64 + w3 * 2 ^ 96 + w4 * 2 ^ 128)
  if nfr = 3 then h ||| ((f.bmask.setWidth 2688) <<< 160) ||| ((f.line.setWidth 2688) <<< 416) else h

/-- The message that these bytes spell. -/
def msgOfBits (b : BitVec 2688) : FMsg :=
  { dst := b.extractLsb' 0 6, src := b.extractLsb' 6 6, hops := b.extractLsb' 12 4, op := b.extractLsb' 16 8,
    eseq := b.extractLsb' 32 16, tag := b.extractLsb' 48 16,
    addr := b.extractLsb' 96 8 ++ b.extractLsb' 64 32, tenant := b.extractLsb' 104 12, kind := b.extractLsb' 116 2,
    mirror := b.getLsbD 118, poison := b.getLsbD 119, noinst := b.getLsbD 120, twin := b.getLsbD 121,
    held := b.getLsbD 122, last := b.getLsbD 123, grant := b.extractLsb' 124 2, mask := b.extractLsb' 128 16,
    word4hi := b.extractLsb' 144 16, bmask := b.extractLsb' 160 256, line := b.extractLsb' 416 2048 }

/-- The frames that carry a message, in order. -/
def msgFrames (f : FMsg) : List TxFrame :=
  let n := (opFrames f.op).getD 1
  (List.range n).map fun i =>
    { cls := opClass f.op, pos := if n = 1 then 0 else if i = 0 then 1 else if i + 1 = n then 3 else 2,
      bytes := (msgBits f).extractLsb' (896 * i) 896, msg := if i + 1 = n then some f else none }

/-! ## New messages -/

/-- TAG (R292): the Room and an index in it (log entry 13, DESIGN CHOICE). -/
def mkTag (m : Fin 64) (idx : Nat) : BitVec 16 := BitVec.ofNat 16 (m.val + idx * 64)
def msgRoom (f : FMsg) : Fin 64 := ⟨f.tag.toNat % 64, Nat.mod_lt _ (by decide)⟩
def msgIdx (f : FMsg) : Nat := f.tag.toNat / 64

/-- A message about a line of a region with these attributes. -/
def Run.mkMsg (r : Run) (op : BitVec 8) (dst : BitVec 6) (line : BitVec 40) (a : Attr) (tag : BitVec 16) : FMsg :=
  { dst := dst, src := r.myId, hops := 0, op := op, eseq := 0, tag := tag, addr := line, tenant := a.tenant,
    kind := a.kind, mirror := a.mirror, poison := false, noinst := false, twin := false, held := false, last := false,
    grant := 0, mask := 0, word4hi := 0, bmask := if opFrames op = some 3 then fullMask else 0, line := 0 }

/-- An answer to a message, to its sender and with its TAG. -/
def Run.mkReply (r : Run) (f : FMsg) (op : BitVec 8) : FMsg :=
  { f with dst := f.src, src := r.myId, hops := 0, op := op, eseq := 0, poison := false, noinst := false,
           twin := false, held := false, last := false, grant := 0, mask := 0, word4hi := 0,
           bmask := if opFrames op = some 3 then fullMask else 0, line := 0 }

/-! ## Houses -/

def Run.peer (r : Run) (e : BitVec 6) : Peer := r.c.fab.peers[e.toFin]
def Run.modPeer (r : Run) (e : BitVec 6) (f : Peer → Peer) : Run :=
  r.modFab fun x => { x with peers := x.peers.set e.toNat (f x.peers[e.toFin]) e.isLt }
/-- House e has been declared dead (R311). -/
def Run.dead (r : Run) (e : BitVec 6) : Bool := (r.peer e).dead
/-- The House that a House sends a block's requests and write-backs to (R172, R313). -/
def Run.homeOf (r : Run) (b : Block) (mirror : Bool) : BitVec 6 :=
  let h := b.extractLsb' 30 6
  if mirror && r.dead h then (r.region (blkRegion b)).twin else h
/-- This House serves the block as its home, or as its acting home (R172). -/
def Run.actsHome (r : Run) (b : Block) (mirror : Bool) : Bool := r.homeOf b mirror = r.myId
/-- The other House that holds a copy of a Mirror line (R313). -/
def Run.partner (r : Run) (b : Block) : BitVec 6 :=
  if r.isHome b then (r.region (blkRegion b)).twin else b.extractLsb' 30 6

/-! ## Routes (R308) -/

inductive Route | go (d : Fin 8) | wait | none
deriving DecidableEq, Repr

def Run.doorUsable (r : Run) (d : Fin 8) : Bool := (r.door d).up && !(r.fenced (unitDoor d))
/-- The Door is fenced and its fallback table does not run yet (R319). -/
def Run.doorSeam (r : Run) (d : Fin 8) : Bool := r.fenced (unitDoor d) && decide (r.c.tt.cur ≠ 82 + d.val)
def Run.doorLost (r : Run) (d : Fin 8) : Bool :=
  r.fenced (unitDoor d) || !(r.bit (dorBase d + 4) 0) || !(r.bit (dorBase d + 8) 15) || (r.door d).mismatch

def fin8 (n : Nat) : Fin 8 := ⟨n % 8, Nat.mod_lt _ (by decide)⟩

def Run.route (r : Run) (e : BitVec 6) : Route :=
  let w := r.reg (0x190000 + 4 * e.toNat)
  let pri := fin8 (bitsOf w 2 0)
  let alt := fin8 (bitsOf w 6 4)
  let pv := w.testBit 3
  let av := w.testBit 7
  if pv && r.doorUsable pri then .go pri
  else if pv && r.doorSeam pri then .wait
  else if av && r.doorUsable alt then .go alt
  else if (pv && !(r.doorLost pri)) || (av && (!(r.doorLost alt) || r.doorSeam alt)) then .wait
  else .none

/-! ## Sending (R308, R310, R312) -/

/-- Queue a message's frames on a Door. A new message of this House takes its HOPS, and charges FABRIC_BYTES when it
carries a line (R308, R360); a message in transit or sent again keeps its HOPS. -/
def Run.toDoor (r : Run) (d : Fin 8) (f : FMsg) (stamp : Stamp) : Run :=
  let h := if f.hops = 0 then BitVec.ofNat 4 (r.fld (0x190000 + 4 * f.dst.toNat) 11 8) else f.hops
  let r := r.modDoor d fun x => { x with txq := x.txq ++ msgFrames { f with hops := h } }
  r.when (f.hops = 0 && opFrames f.op = some 3) fun r => r.charge f.tenant .fabric 256 stamp

/-- The units that an operation toward House e uses (R373): the Doors of its route, and the House. -/
def Run.routePath (r : Run) (e : BitVec 6) : List UnitNo :=
  let w := r.reg (0x190000 + 4 * e.toNat)
  let pri := fin8 (bitsOf w 2 0)
  (if w.testBit 3 then [unitDoor pri] else []) ++
    (if w.testBit 7 && !(w.testBit 3 && r.doorUsable pri) then [unitDoor (fin8 (bitsOf w 6 4))] else []) ++
    [unitHouse e]

/-- A message that this House cannot send: its destination is dead, or no route exists. -/
def Run.discard (r : Run) (noRoute : Bool) (e : BitVec 6) : Run :=
  (r.count32 0x190128 1).when noRoute fun r => r.sysEvent 50 Code.noRoute (path := r.routePath e)

/-- Route a numbered message, or let it wait at its source behind those of its destination that wait. -/
def Run.emit (r : Run) (f : FMsg) (stamp : Stamp) : Run :=
  if r.dead f.dst then r.discard false f.dst
  else if r.c.fab.waiting.any fun w => w.1.dst = f.dst && opClass w.1.op = opClass f.op then
    r.modFab fun x => { x with waiting := x.waiting ++ [(f, stamp)] }
  else match r.route f.dst with
    | .go d => r.toDoor d f stamp
    | .wait => r.modFab fun x => { x with waiting := x.waiting ++ [(f, stamp)] }
    | .none => r.discard true f.dst

def fin3 (n : Nat) : Fin 3 := ⟨n % 3, Nat.mod_lt _ (by decide)⟩

/-- A message takes its number in its class toward its House (R310). -/
def Run.number (r : Run) (f : FMsg) : Run × FMsg :=
  let k := opClass f.op
  if k < 3 then
    let n := (r.peer f.dst).txEseq[fin3 k]
    (r.modPeer f.dst fun p => { p with txEseq := p.txEseq.set (k % 3) (n + 1) (Nat.mod_lt _ (by decide)) },
      { f with eseq := n })
  else (r, f)

/-- Originate a message: number it in its class toward its House (R310), and send it. -/
def Run.sendMsg (r : Run) (f : FMsg) (stamp : Stamp) : Run :=
  if r.dead f.dst then r.discard false f.dst
  else let (r, f) := r.number f; r.emit f stamp

/-- A message sets out from the stop of injection calendar `k`, in a slot of `code` (R211). While the Timetable stands
it leaves at once (R27, R30). -/
def Run.hallMsg (r : Run) (k : Nat) (f : FMsg) (stamp : Stamp) (code : Nat := 0x58) (retire : Option Src := none) : Run :=
  if r.c.tt.run then r.post k code (.msg f stamp) retire else r.sendMsg f stamp

/-- A message to House e can leave: it has a route, or never will have one. -/
def Run.canSend (r : Run) (e : BitVec 6) : Bool := r.dead e || r.route e ≠ .wait

/-- A message leaves the stop of calendar `k` in its slot, for the Door of its route; `queued` says that its line goes
through the stop's word queue. -/
def Run.msgGo (r : Run) (k : Nat) (f : FMsg) (stamp : Stamp) (queued : Bool := false) : Run :=
  if r.dead f.dst then r.discard false f.dst
  else match r.route f.dst with
    | .go d => let (r, f) := r.number f; r.launch k (doorCal d) (.msg f stamp) queued
    | .wait => r.post k 0x58 (.msg f stamp)
    | .none => r.discard true f.dst

/-- A load is a message to House e. -/
def Load.goesTo (e : BitVec 6) : Load → Bool
  | .msg f _ => f.dst = e
  | _ => false

/-- The frames of a Door's queue without this House's own messages to House e that the Door has not begun, and how many
such messages there were (R312). `open'` lists the classes whose message is being taken out. -/
def dropTo (e : BitVec 6) : List Nat → List TxFrame → List TxFrame × Nat
  | _, [] => ([], 0)
  | open', f :: fs =>
    let out := f.via.isNone && f.cls ≠ 3 &&
      (if f.pos = 0 || f.pos = 1 then f.bytes.extractLsb' 0 6 = e else open'.contains f.cls)
    if out then
      let ends := f.pos = 0 || f.pos = 3
      let (gs, n) := dropTo e (if ends then open'.filter fun c => c ≠ f.cls else f.cls :: open') fs
      (gs, if ends then n + 1 else n)
    else
      let (gs, n) := dropTo e open' fs
      (f :: gs, n)

/-- House e has been declared dead: this House's messages to it that have not left are discarded and counted (R312). -/
def Run.discardTo (r : Run) (e : BitVec 6) : Run :=
  let n := r.c.fab.waiting.countP (fun w => w.1.dst = e) + r.c.wait.countP (fun w => w.load.goesTo e) +
    r.c.fly.countP fun f => f.load.goesTo e
  let r := r.modFab fun x => { x with waiting := x.waiting.filter fun w => w.1.dst ≠ e }
  let r := { r with c := { r.c with wait := r.c.wait.filter fun w => !(w.load.goesTo e),
                                    fly := r.c.fly.filter fun f => !(f.load.goesTo e) } }
  let r := r.when (decide (0 < n)) fun r => r.count32 0x190128 n
  r.forEach allPorches fun d r =>
    let (q, k) := dropTo e [] (r.door d).txq
    if k = 0 then r else (r.modDoor d fun x => { x with txq := q }).count32 0x190128 k

/-- Send what waited for a route, oldest first. -/
def Run.flushWaiting (r : Run) : Run :=
  let ws := r.c.fab.waiting
  let r := r.modFab fun x => { x with waiting := [] }
  r.forEach ws fun w r => r.emit w.1 w.2

end Sys2Proof.Machine
end

