-- ==== Sys2Proof/Machine/Room.lean ====
section
/-! DEFINITION. The shared operations of a Room: waiters and answers, tags and replacement, near-copy writes, the
write buffer and the Mudroom (R55–R81, R102–R128, R271, R272). -/
namespace Sys2Proof.Machine
open Sys2Proof

/-- The lowest number not in the list. -/
def lowestFree (used : List Nat) (n : Nat) : Nat := ((List.range n).find? fun i => !(used.contains i)).getD n

/-! ## Waiters (R74, R76) -/

/-- Two items keep their order in a Room: one identifier (R74), or one House and one block (R162). -/
def sameOrder (a b : Item) : Bool :=
  match a.src, b.src with
  | .fab f, .fab g => f.src = g.src && paBlock a.pa = paBlock b.pa
  | .fab _, _ => false
  | _, .fab _ => false
  | .house, _ => false
  | _, .house => false
  | _, _ => a.oid = b.oid

/-- The waiters with one more: behind those of its order when an earlier one of them holds it back, else in front of
them, so that an item that waits again keeps its turn (R74). -/
def putWaiter (w : Waiter) (ws : List Waiter) : List Waiter :=
  if w.why = .oid then ws ++ [w]
  else ws.takeWhile (fun x => !(sameOrder x.item w.item)) ++ w :: ws.dropWhile fun x => !(sameOrder x.item w.item)

/-- The wait is for the item's own coherence tracker, which holds its granule or block meanwhile (R147). -/
def Why.isOwn : Why → Bool
  | .own _ | .ownWay _ _ => true
  | _ => false

def Src.isFab : Src → Bool
  | .fab _ => true
  | _ => false

/-- What an item that waits has already met: its snoops, while its own tracker holds what they covered; for one line of a
fabric request its directory condition (R151); and the broadcast of R170, after which the Screen knows every copy. Any
other item meets its conditions again when it re-enters. -/
def Item.waiting (it : Item) (why : Why) : Item :=
  { it with snooped := it.snooped && why.isOwn, granted := it.granted && it.src.isFab }

/-- An item becomes a waiter; with 8 or fewer entries free the Room closes its entry (R76). -/
def Run.addWaiter (r : Run) (m : Fin 64) (it : Item) (why : Why) (ans : Option (LineData × Bool) := none) : Run :=
  r.modRoom m fun y =>
    { y with waiters := putWaiter { item := it.waiting why, why := why, ans := ans } y.waiters,
             closed := y.closed || decide (504 ≤ y.waiters.length + 1) }

/-- A waiter leaves; with 32 or more entries free the Room reopens. -/
def Run.dropWaiter (r : Run) (m : Fin 64) (i : Nat) : Run :=
  r.modRoom m fun y =>
    { y with waiters := y.waiters.eraseIdx i,
             closed := y.closed && decide (480 < y.waiters.length - 1) }

/-- Waiters that fit leave the list, in order. -/
def Run.pullWaiters (r : Run) (m : Fin 64) (f : Waiter → Bool) : Run × List Waiter :=
  let ws := (r.room m).waiters.filter f
  (r.modRoom m fun y =>
    let left := y.waiters.filter fun w => !(f w)
    { y with waiters := left, closed := y.closed && decide (480 < left.length) }, ws)

/-! ## Answers and retirement -/

/-- The Room retires what an item came from (R223). -/
def Run.retire (r : Run) : Src → Run
  | .host uid p _ => (r.retireEnt p uid).pump p
  | .rsv uid p _ _ => (r.retireEnt p uid).pump p
  | .land seq p => r.modSent p seq fun d => { d with retired := true }
  | .fab f => r.modFab fun x => { x with kept := x.kept.eraseP fun e => e.1 = f }
  | .house => r

/-- The bytes a reservation word takes in its line. -/
def rsvWord (d : LineData) (pa : PoolAddr) : BitVec 512 := (d.extractLsb' (8 * (pa.toNat % 256)) 64).setWidth 512

/-- The answer of a Room or a channel has reached its Porch. -/
def Run.answered (r : Run) (s : Src) (a : Ans) : Run :=
  match s with
  | .host uid p _ => r.answerEnt p uid a
  | .rsv uid p _ _ => (r.answerEnt p uid a).porchSettle p
  | .land seq p => r.modPorch p fun x => { x with lndAcks := x.lndAcks ++ [seq] }
  | _ => r

/-- An answer sets out toward the Porch of its source from the stop of injection calendar `k`, in a slot of code 0x56.
While the Timetable stands it arrives at once (R27, R30). -/
def Run.answer (r : Run) (k : Nat) (s : Src) (a : Ans) (retire : Bool) : Run :=
  if r.c.tt.run then r.post k 0x56 (.ans s a) (if retire then some s else none)
  else (r.answered s a).when retire fun r => r.retire s

/-- The DATA of the first line of a fabric request waits for its slot, once the line has come; with the last of them the
Room retires the request. -/
def Run.fabPost (r : Run) (m : Fin 64) (x : FabOut) : Run :=
  match x.lines with
  | (l, some (d, p, k)) :: ls =>
    if x.posted then r
    else
      let r := r.modRoom m fun y => { y with fabOut := y.fabOut.map fun z => if z.f = x.f then { z with posted := true } else z }
      let g := { r.mkReply x.f Op.data with addr := blkLine (lineBlk x.f.addr) l, grant := x.grant, line := d, poison := p }
      r.post k 0x58 (.msg g x.tin) (if ls.isEmpty then some (.fab x.f) else none)
  | _ => r

/-- A line of a fabric request has come, at the stop of calendar `k` (R68). -/
def Run.fabLineIn (r : Run) (m : Fin 64) (k : Nat) (f : FMsg) (l : Fin 16) (d : LineData) (poison : Bool) : Run :=
  let put (y : Fin 16 × Option (LineData × Bool × Nat)) := if y.1 = l then (l, some (d, poison, k)) else y
  let f' (x : FabOut) : FabOut := if x.f = f then { x with lines := x.lines.map put } else x
  let r := r.modRoom m fun y => { y with fabOut := y.fabOut.map f' }
  match (r.room m).fabOut.find? fun x => x.f = f with
  | some x => r.fabPost m x
  | none => r

/-- The first DATA of a fabric request has left: the next one follows. -/
def Run.fabNext (r : Run) (m : Fin 64) (x : FabOut) : Run :=
  let f' (y : FabOut) : Option FabOut :=
    if y.f ≠ x.f then some y else if y.lines.length ≤ 1 then none else some { y with lines := y.lines.tail, posted := false }
  let r := r.modRoom m fun y => { y with fabOut := y.fabOut.filterMap f' }
  match (r.room m).fabOut.find? fun y => y.f = x.f with
  | some y => r.fabPost m y
  | none => r

/-- A read's line, or the completion of a request that carries no data, leaves the stop of calendar `k` for the item's
source. -/
def Run.answerData (r : Run) (m : Fin 64) (k : Nat) (it : Item) (d : LineData) (poison : Bool) : Run :=
  match it.src with
  | .host _ _ _ => r.answer k it.src (if isRead it.op then .data (chunkOf d (paChunk it.pa)) poison else .done) true
  | .rsv _ _ _ _ => r.answer k it.src (.data (rsvWord d it.pa) poison) true
  | .land _ _ => r
  | .fab f => r.fabLineIn m k f (paLineNo it.pa) d poison
  | .house => r

/-- What Room m tells the source of a write when it has been accepted, or acknowledged (R19, R24, R117). -/
def Run.tellDone (r : Run) (m : Fin 64) (s : Src) (tin : Stamp) : Run :=
  match s with
  | .fab f => r.hallMsg (roomCal m) (r.mkReply f Op.wrAck) tin
  | .house => r
  | s => r.answer (roomCal m) s .done false

/-- A request that leaves no trace in the Room's buffers completes. -/
def Run.answerDone (r : Run) (m : Fin 64) (it : Item) : Run :=
  match it.src with
  | .fab f => r.hallMsg (roomCal m) (r.mkReply f Op.wrAck) it.tin 0x58 (some it.src)
  | .house => r
  | s => r.answer (roomCal m) s .done true

/-! ## Tags (R56–R59) -/

def tagKey (m : Fin 64) (set way : Nat) : Nat := (m.val * 32768 + set) * 16 + way
def Run.tag (r : Run) (m : Fin 64) (set way : Nat) : TagEnt := mget {} r.m.tags (tagKey m set way)

/-- The entry counts in its tenant's occupancy (R353). -/
def TagEnt.counts (e : TagEnt) : Bool := [1, 2, 3, 4, 6].contains e.state.toNat
def TagEnt.busy (e : TagEnt) : Bool := e.state = 1 || e.state = 6
/-- R58. -/
def Run.live (r : Run) (e : TagEnt) : Bool := e.counts && e.epoch = (r.cls e.cls).epoch
def Run.stale (r : Run) (e : TagEnt) : Bool := e.counts && e.epoch ≠ (r.cls e.cls).epoch

/-- Write a tag entry, with the occupancy of the tenants it leaves and enters. -/
def Run.setTag (r : Run) (m : Fin 64) (set way : Nat) (e : TagEnt) : Run :=
  let old := r.tag m set way
  let r := if old.counts && !(e.counts && e.tenant = old.tenant) then r.setOcc old.tenant (r.occ old.tenant - 1) else r
  let r := if e.counts && !(old.counts && e.tenant = old.tenant) then r.setOcc e.tenant (r.occ e.tenant + 1) else r
  r.st (.tag (tagKey m set way) e)

def Run.modTag (r : Run) (m : Fin 64) (set way : Nat) (f : TagEnt → TagEnt) : Run :=
  r.setTag m set way (f (r.tag m set way))

/-- Pool address [47:32] of a block. -/
def blkTag (b : Block) : BitVec 16 := b.extractLsb' 20 16

/-- The way of the block's set whose live entry holds its TAG: one that is not Evicting, if there is one. -/
def Run.findTag (r : Run) (m : Fin 64) (b : Block) : Option Nat :=
  let mine (w : Nat) : Bool := let e := r.tag m (r.setOf b) w; r.live e && e.tag = blkTag b
  ((List.range 16).find? fun w => mine w && (r.tag m (r.setOf b) w).state ≠ 6).or ((List.range 16).find? mine)

/-- The live entry of a block: its way and the entry. -/
def Run.liveEnt (r : Run) (m : Fin 64) (b : Block) : Option (Nat × TagEnt) :=
  (r.findTag m b).map fun w => (w, r.tag m (r.setOf b) w)

/-- The live entry of a block whose TENANT is `t`: what an address-targeted action finds (R64). -/
def Run.snoopEnt (r : Run) (m : Fin 64) (b : Block) (t : BitVec 12) : Option (Nat × TagEnt) :=
  ((List.range 16).find? fun w =>
    let e := r.tag m (r.setOf b) w
    r.live e && e.tag = blkTag b && e.tenant = t).map fun w => (w, r.tag m (r.setOf b) w)

/-- TAG_STATE: a lookup or the walker finds STATE 7 to 15 (R96; log entry 82, DEDUCED). -/
def Run.tagStateSeen (r : Run) (m : Fin 64) (set way : Nat) : Run :=
  r.when (decide (7 ≤ (r.tag m set way).state.toNat)) fun r => r.rmEvent m Code.tagState

/-- STATE when no fill is in flight (R59). -/
def TagEnt.settle (e : TagEnt) : TagEnt :=
  if e.state = 4 then e else { e with state := if e.dirty ≠ 0 then 3 else 2 }

/-! ## Replacement (R78, R79) -/

def plruKey (m : Fin 64) (set : Nat) : Nat := m.val * 32768 + set
def withParity (v : Nat) : BitVec 16 := BitVec.ofNat 16 (v % 2 ^ 15 + b2n (parity 15 (v % 2 ^ 15)) * 2 ^ 15)

def setBit (v i : Nat) (b : Bool) : Nat := if b then v ||| (1 <<< i) else if v.testBit i then v - (1 <<< i) else v

/-- Point every node on the path to way w away from it: node n is bit n − 1, and 16 + w is the leaf. -/
def plruAway (v w : Nat) : Nat :=
  [8, 4, 2, 1].foldl (fun acc h => setBit acc ((16 + w) / (2 * h) - 1) (decide ((16 + w) / h % 2 = 0))) v

def Run.touch (r : Run) (m : Fin 64) (set way : Nat) : Run :=
  r.st (.plru (plruKey m set) (withParity (plruAway (mget 0 r.m.plru (plruKey m set)).toNat way)))

/-- Some way under node n at depth d is allowed. -/
def underHas (allowed : BitVec 16) (n : Nat) : Bool :=
  let d := n.log2
  (List.range 16).any fun w => allowed.getLsbD w && (16 + w) / 2 ^ (4 - d) == n

def plruWalk (v : Nat) (allowed : BitVec 16) : Nat → Nat → Nat
  | 0, n => n - 16
  | k + 1, n =>
    let pref := if v.testBit (n - 1) then 2 * n + 1 else 2 * n
    let alt := if v.testBit (n - 1) then 2 * n else 2 * n + 1
    plruWalk v allowed k (if underHas allowed pref then pref else alt)

def waysMask (f : Nat → Bool) : BitVec 16 := BitVec.ofNat 16 (gather 16 f)

/-- Ways that the registers keep from the set: RM_WAYDIS, and the retired ways of the set (R258). -/
def Run.waysOff (r : Run) (m : Fin 64) (set : Nat) : BitVec 16 :=
  BitVec.ofNat 16 (r.reg (rmBase m + 0x20)) ||| waysMask fun w => (List.range 8).any fun k =>
    r.bit (rmBase m + 0x400 + 8 * k) 15 && r.fld (rmBase m + 0x400 + 8 * k) 14 0 == set &&
      r.fld (rmBase m + 0x404 + 8 * k) 3 0 == w

/-- WAY_MASK and near and not RM_WAYDIS.WAYS (R79). -/
def Run.waysFor (r : Run) (m : Fin 64) (set : Nat) (c : BitVec 6) : BitVec 16 :=
  (r.cls c).ways &&& waysMask (fun w => decide (w < r.nearWays)) &&& ~~~(r.waysOff m set)

def Run.freeWays (r : Run) (m : Fin 64) (set : Nat) (mask : BitVec 16) : BitVec 16 :=
  mask &&& waysMask fun w => !(r.tag m set w).busy

/-- What victim choice gives (R79, R80, R354). -/
inductive Victim
  | way (w : Nat)
  | noWay
  | quota
  | busy (mask : BitVec 16)
deriving DecidableEq, Repr

def Run.victim (r : Run) (m : Fin 64) (set : Nat) (a : Attr) : Victim :=
  let mask := r.waysFor m set a.cls
  if mask = 0 then .noWay
  else
    let allowed := r.freeWays m set mask
    if allowed = 0 then .busy mask
    else
      let v := (mget 0 r.m.plru (plruKey m set)).toNat
      if r.atQuota a.tenant then
        let own := allowed &&& waysMask fun w =>
          let e := r.tag m set w
          r.live e && e.tenant = a.tenant
        if own = 0 then .quota else .way (plruWalk v own 4 1)
      else
        let empty := (List.range 16).find? fun w => allowed.getLsbD w && !(r.live (r.tag m set w))
        .way (empty.getD (plruWalk v allowed 4 1))

/-! ## Where a near line lies (R47, R48, R269) -/

def Run.lostChan (r : Run) (c : Fin 16) : Bool := r.fenced (unitChan c)

/-- The walker has visited set s since the refuge came into use. -/
def Run.refugeSet (r : Run) (m : Fin 64) (set : Nat) : Bool :=
  let y := r.room m
  y.refuge && !y.refugeShut && (y.refugeWalk || y.jobs.any fun j =>
    j.kind = .wayDis ⟨(r.nearWays - 1) % 16, Nat.mod_lt _ (by decide)⟩ &&
      decide ((set + 32768 - j.start) % 32768 < 32768 - j.left))

/-- The channel and the line index of line l of way w, if it may be installed. -/
def Run.nearPlace (r : Run) (m : Fin 64) (set way : Nat) (l : Fin 16) : Option (Fin 16 × Nat) :=
  let blk := r.nearCell m set way
  let c := r.chanOf blk l
  if !(r.lostChan c) then some (c, blk)
  else if decide (1 < r.nearWays ∧ way < r.nearWays - 1) && r.refugeSet m set then
    ((allChans.filter fun x => x ≠ c)[way]?).map fun x => (x, r.nearCell m set (r.nearWays - 1))
  else none

/-- The metadata that a Room supplies for a near line. -/
def nearMeta (e : TagEnt) (way : Nat) (l : Fin 16) (lcode : BitVec 2) (poison : Bool) : Meta :=
  { tagSh := e.tag, tenant := e.tenant, dirty := e.dirty.getLsbD l, poison := poison, state := 2, epoch := e.epoch,
    way := BitVec.ofNat 4 way, lcode := lcode }

/-! ## Near-copy writes (R69, R271, R272) -/

/-- An EVICT entry of the Mudroom still holds the line that the slot held before. -/
def Room.slotHeld (y : Room) (set way : Nat) (l : Fin 16) (b : Block) : Bool :=
  y.mud.any fun e => e.kind = .evict && e.set = set && e.way = way && lineNo e.line = l && lineBlk e.line ≠ b

def Run.modWb (r : Run) (m : Fin 64) (seq : Nat) (f : WbEnt → WbEnt) : Run :=
  r.modRoom m fun y => { y with wbuf := y.wbuf.map fun e => if e.seq = seq then f e else e }

/-- Write buffer entries become Free: those that `f` names. -/
def Run.wbFree (r : Run) (m : Fin 64) (f : WbEnt → Bool) : Run :=
  r.modRoom m fun y =>
    { y with wbuf := y.wbuf.filter fun e => !(f e), wbFreed := freedMore y.wbFreed r.c.cc (y.wbuf.filter f).length }

/-- Entries for which nothing is awaited become Free. -/
def Run.wbSweep (r : Run) (m : Fin 64) : Run := r.wbFree m WbEnt.done

/-- No write buffer entry can be allocated in this core cycle (R110, R131). -/
def Run.wbFull (r : Run) (m : Fin 64) : Bool := decide (64 ≤ takenIn (r.room m).wbFreed r.c.cc (r.room m).wbuf.length)

/-- The requests whose write the entry of number `seq` holds retire (R223). -/
def Run.wbRetire (r : Run) (m : Fin 64) (seq : Nat) : Run :=
  match (r.room m).wbuf.find? fun e => e.seq = seq with
  | some e => (r.modWb m seq fun e => { e with owners := [] }).forEach e.owners fun s r => r.retire s
  | none => r

/-- The Cellar write of an entry cannot be carried out: its channel is lost. -/
def Run.wbNoCel (r : Run) (m : Fin 64) (seq : Nat) : Run :=
  ((r.modWb m seq fun e => { e with needCel := false }).wbRetire m seq).wbSweep m

/-- Where a transfer toward a channel goes: none when its slot lies on a lost channel. -/
def Run.outPlace (r : Run) (m : Fin 64) : ChanOut → Option (Fin 16 × Nat)
  | .near w => r.nearPlace m w.set w.way w.line
  | .cmd c x => some (c, x.idx)

/-- An earlier write, or read-modify-write, of a line index has not been carried out yet: a read that no Room asks for
follows it too (R244). -/
def Run.lineBusy (r : Run) (c : Fin 16) (idx : Nat) : Bool :=
  let late (x : CelCmd) : Bool := x.idx = idx && (x.write || x.isRmw)
  (r.chan c).queue.any late || (r.chan c).flight.any (fun x => x.isRmw && x.idx = idx) ||
    (r.inHall fun x => match x with
      | .cel d x => d = c && late x
      | _ => false) ||
    allRooms.any fun m => (r.room m).outC.any fun o => decide (r.outPlace m o = some (c, idx)) && match o with
      | .near _ => true
      | .cmd _ x => x.write || x.isRmw

/-- The command that a transfer is. -/
def ChanOut.cmdAt (o : ChanOut) (m : Fin 64) (idx : Nat) : CelCmd :=
  match o with
  | .near w =>
    { m := m, idx := idx, write := true, pa := linePa (blkLine w.blk w.line), tenant := w.tenant, data := w.data,
      md := w.md, wb := w.wb, charge := if w.release then 0 else w.tenant, tin := w.tin }
  | .cmd _ x => x

/-- The write buffer entry whose Cellar write the transfer is. -/
def ChanOut.wb : ChanOut → Option Nat
  | .near w => w.wb
  | .cmd _ x => x.wb

/-- A transfer leaves for its channel: the requests of a write buffer entry retire (R223). A lost channel takes none:
the entry whose drain it is waits no more. -/
def Run.outSend (r : Run) (m : Fin 64) (o : ChanOut) : Run :=
  match r.outPlace m o with
  | some (c, idx) =>
    let r := r.launch (roomCal m) (chanCal c) (.cel c (o.cmdAt m idx))
    match o.wb with
    | some n => r.wbRetire m n
    | none => r
  | none => match o.wb with
    | some n => r.wbNoCel m n
    | none => r

/-- A near-copy write waits while the slot's earlier line has a Mudroom entry (R271). -/
def Room.outHeld (y : Room) : ChanOut → Bool
  | .near w => !w.release && y.slotHeld w.set w.way w.line w.blk
  | .cmd _ _ => false

/-- The first transfer that may go; a transfer that may not go holds back the later ones of its place (R179, R244). -/
def Run.outNext (r : Run) (m : Fin 64) : Nat → List ChanOut → List (Fin 16 × Nat) → Option (Nat × ChanOut)
  | _, [], _ => none
  | i, o :: os, held =>
    let place := r.outPlace m o
    if (r.room m).outHeld o || place.any held.contains then r.outNext m (i + 1) os (place.toList ++ held)
    else some (i, o)

/-- In a slot of code 0x57 the Room sends the first transfer toward a channel that may go. -/
def Run.outStep (r : Run) (m : Fin 64) : Run :=
  match r.outNext m 0 (r.room m).outC [] with
  | some (i, o) => (r.modRoom m fun y => { y with outC := y.outC.eraseIdx i }).outSend m o
  | none => r

/-- A transfer toward a channel joins those of the Room. -/
def Run.toChan (r : Run) (m : Fin 64) (o : ChanOut) : Run := r.modRoom m fun y => { y with outC := y.outC ++ [o] }

/-- What has joined the Room's transfers in this step beyond the first `n` goes at once, in the slot of the drain whose
it is. -/
def Run.outNow (r : Run) (m : Fin 64) (n : Nat) : Run :=
  let os := (r.room m).outC.drop n
  (r.modRoom m fun y => { y with outC := y.outC.take n }).forEach os fun o r => r.outSend m o

/-- A command of Room m for a channel. -/
def Run.chanCmd (r : Run) (m : Fin 64) (c : Fin 16) (x : CelCmd) : Run := r.toChan m (.cmd c x)

def Run.nearWrite (r : Run) (m : Fin 64) (w : NearWr) : Run := r.toChan m (.near w)

/-- A release write of the Unwritten pattern to a slot (R272). -/
def Run.release (r : Run) (m : Fin 64) (set way : Nat) (l : Fin 16) : Run :=
  r.nearWrite m { set := set, way := way, line := l, release := true, tin := r.ftNs }

/-! ## The write buffer (R102–R112) -/

/-- The Open or Held entry of a line. -/
def Room.wbOpen (y : Room) (line : BitVec 40) : Option WbEnt := y.wbuf.find? fun e => e.line = line && e.st ≠ .issued

/-- Overlay written bytes (R103, R164): poison marks the whole line until later writes have covered it. -/
def WbEnt.overlay (e : WbEnt) (d : LineData) (mask : ByteMask) (poison : Bool) : WbEnt :=
  let after := if poison then 0 else e.after ||| mask
  { e with data := mergeLine e.data d mask, mask := e.mask ||| mask, after := after,
           poison := poison || (e.poison && after ≠ fullMask) }

/-- Where a write of the block goes (R105). -/
inductive Dest | near | thru | home | fwd
deriving DecidableEq, Repr

/-- Writes of the block take write-through (R111, R260). -/
def Run.isThru (r : Run) (a : Attr) : Bool := (r.cls a.cls).wthru || a.mirror

/-- A home line of this region has a live twin to copy to (R112, R313). -/
def Run.twinFor (r : Run) (b : Block) (a : Attr) : Bool :=
  let t := (r.region (blkRegion b)).twin
  a.mirror && r.isHome b && t ≠ r.myId && !(r.dead t)

/-- Send the line's oldest waiting copy to the twin, when none is unacknowledged and its line is whole (R112, R166;
log entry 27, DEDUCED): a RESILVER copy in an idle slot (R218). -/
def Run.twinKick (r : Run) (m : Fin 64) (line : BitVec 40) : Run :=
  let es := (r.room m).wbuf.filter fun e => e.line = line
  if es.any (·.needTwin) then r
  else match es.find? (·.twinLater) with
    | some e =>
      if e.mask = fullMask then
        let r := r.modWb m e.seq fun e => { e with needTwin := true, twinLater := false }
        let f := r.mkMsg Op.mirrorWr (r.region (blkRegion (lineBlk line))).twin line e.attr (mkTag m (320 + e.idx))
        r.hallMsg (roomCal m) { f with line := e.data, poison := e.poison } e.tin (if e.resil then 0xFF else 0x58)
      else r
    | none => r

/-- The granule of the reservation holds the line. -/
def Rsv.covers (v : Rsv) (line : BitVec 40) : Bool := line.toNat >>> v.g == (paLine v.pa).toNat >>> v.g

def sameSlot (v : Rsv) (p : Fin 8) (k : Fin 2) (slot : Fin 32) : Bool := v.p = p && v.k = k && v.slot = slot

/-- Remove an item's own reservation: a poisoned load, or a store that is carried out (R200, R202). -/
def Run.rsvUnplace (r : Run) (m : Fin 64) (it : Item) : Run :=
  match it.src with
  | .rsv _ p k slot => r.modRoom m fun y => { y with rsvs := y.rsvs.filter fun v => !(sameSlot v p k slot) }
  | _ => r

def srcPorch : Src → Option (Fin 8)
  | .host _ p _ => some p
  | .land _ p => some p
  | .rsv _ p _ _ => some p
  | _ => none

/-- A SYNC that covers the write waits for the twin, or for the home, of its Mirror region (R189). -/
def Run.noteRisk (r : Run) (m : Fin 64) (seq : Nat) (it : Item) : Run :=
  let covers (b : Bar) : Bool := b.kind = .sync && match it.src with
    | .host uid _ _ | .rsv uid _ _ _ => b.uids.contains uid
    | .land n _ => b.lands.contains n
    | _ => false
  match srcPorch it.src with
  | some p =>
    r.when (it.attr.mirror && (r.porch p).bars.any covers) fun r => r.modPorch p fun x =>
      { x with bars := x.bars.map fun b => if covers b then { b with risks := b.risks ++ [(m, seq)] } else b }
  | none => r

/-- The source is told at acceptance, not when the home or the twin has acknowledged (R24, R112, R117). -/
def toldAtOnce (d : Dest) (twin : Bool) : Src → Bool
  | .fab _ => !twin
  | _ => d ≠ .fwd

/-- Accept a write into the write buffer; none when it needs an entry and none is Free. `held` says that the line is
not present and its fill is awaited (R25). -/
def Run.accept (r : Run) (m : Fin 64) (it : Item) (d : Dest) (held : Bool) : Option Run :=
  let y := r.room m
  let line := paLine it.pa
  let twin := d = .home && r.twinFor (paBlock it.pa) it.attr
  let now := toldAtOnce d twin it.src || (d = .fwd && ((y.wbOpen line).any fun e => !e.needAck))
  let note (e : WbEnt) : WbEnt :=
    { e with lastCc := r.c.cc, owners := e.owners ++ [it.src], srcs := if now then e.srcs else e.srcs ++ [it.src],
             porches := match srcPorch it.src with
               | some p => if e.porches.contains p then e.porches else e.porches ++ [p]
               | none => e.porches,
             twinLater := e.twinLater || twin, force := e.force || (twin && e.mask ≠ fullMask) }
  let after (seq : Nat) (r : Run) : Run :=
    let r := (if it.op = .rsvStore then r.rsvUnplace m it else r).noteRisk m seq it
    let r := r.rsvBreak m fun v => v.covers line
    let r := r.modRoom m fun y => { y with resils := y.resils.filter fun x => x.line ≠ line }
    let r := r.twinKick m line
    if now then r.tellDone m it.src it.tin else r
  match y.wbOpen line with
  | some e =>
    let left := if d = .near && e.fwd then e.srcs else []
    let r := r.modWb m e.seq fun e =>
      let e := note (e.overlay it.data it.mask it.poison)
      let e := if held && e.st = .open' && e.mask ≠ fullMask then { e with st := .held } else e
      if d = .near then { e with fwd := false, needCel := true, needAck := false, thru := false, srcs := if e.fwd then [] else e.srcs }
      else if d = .thru then { e with fwd := false, needCel := true, needAck := true, thru := true }
      else e
    some ((after e.seq (r.pulse m 0x09)).forEach left fun s r => r.tellDone m s it.tin)
  | none =>
    if r.wbFull m then none
    else
      let e : WbEnt :=
        { idx := lowestFree (y.wbuf.map (·.idx)) 64, line := line, attr := it.attr, oid := it.oid, data := it.data,
          mask := it.mask, poison := it.poison, after := if it.poison then 0 else it.mask,
          st := if held && it.mask ≠ fullMask then .held else .open', seq := y.seq, tin := it.tin,
          needCel := d ≠ .fwd, needAck := d = .fwd || d = .thru, fwd := d = .fwd,
          thru := d = .thru, home := d = .home, born := r.c.cc }
      let r := r.modRoom m fun y => { y with wbuf := y.wbuf ++ [note e], seq := y.seq + 1 }
      let r := r.peak (rmBase m + 0x64) (y.wbuf.length + 1)
      some (after e.seq r)

/-- A write that cannot be accepted waits for an entry, and counts once (R110). -/
def Run.acceptOr (r : Run) (m : Fin 64) (it : Item) (d : Dest) (held : Bool) (then' : Run → Run) : Run :=
  match r.accept m it d held with
  | some r => then' r
  | none => (r.when (!it.wbWaited) fun r => r.rmCount m 0x68 1).addWaiter m { it with wbWaited := true } .wbFull

/-- What a read meets in the write buffer (R106). -/
inductive WbRead
  | none
  | covered (d : LineData) (poison : Bool)
  | drain (seq : Nat)
  | held
deriving DecidableEq, Repr

def Room.wbRead (y : Room) (it : Item) : WbRead :=
  match y.wbOpen (paLine it.pa) with
  | some e =>
    let need := if isRsv it.op then (0xFF#256) <<< (it.pa.toNat % 256)
      else match it.src with
        | .fab _ => fullMask
        | _ => chunkMask (paChunk it.pa)
    if e.mask &&& need = need then .covered e.data e.poison
    else if e.st = .held then .held
    else .drain e.seq
  | none => .none

/-! ## The Mudroom (R121–R128) -/

/-- The EVICT entry of a line. -/
def Room.mudOf (y : Room) (line : BitVec 40) : Option MudEnt := y.mud.find? fun e => e.kind = .evict && e.line = line

def Run.modMud (r : Run) (m : Fin 64) (seq : Nat) (f : MudEnt → MudEnt) : Run :=
  r.modRoom m fun y => { y with mud := y.mud.map fun e => if e.seq = seq then f e else e }

/-- Mudroom entries that can be allocated in this core cycle (R131). -/
def Run.mudFree (r : Run) (m : Fin 64) : Nat := 32 - takenIn (r.room m).mudFreed r.c.cc (r.room m).mud.length

/-- Mudroom entries become Free: those that `f` names. -/
def Run.mudDrop (r : Run) (m : Fin 64) (f : MudEnt → Bool) : Run :=
  r.modRoom m fun y =>
    { y with mud := y.mud.filter fun e => !(f e), mudFreed := freedMore y.mudFreed r.c.cc (y.mud.filter f).length }

/-- An EVICT entry becomes Free: its slot takes a release write, unless the block has come back to the slot
(R271, R272). -/
def Run.mudRelease (r : Run) (m : Fin 64) (e : MudEnt) : Run :=
  let r := r.mudDrop m fun x => x.seq = e.seq
  let l := lineNo e.line
  let back : Bool := e.kind = .copy ||
    (match r.liveEnt m (lineBlk e.line) with
      | some (w, t) => r.setOf (lineBlk e.line) == e.set && w == e.way && t.valid.getLsbD l
      | none => false) ||
    ((r.room m).trks.any fun t =>
      t.blk = lineBlk e.line && t.evicting && t.place = some (e.set, e.way) && t.newValid.getLsbD l)
  if back then r else r.release m e.set e.way (lineNo e.line)

/-- A new Mudroom entry. -/
def Run.mudAdd (r : Run) (m : Fin 64) (line : BitVec 40) (a : Attr) (set way : Nat) (kind : MudKind) (st : MudSt)
    (data : LineData) (wmask : ByteMask) (poison : Bool) (owners : List Src := []) : Run × Nat :=
  let y := r.room m
  let e : MudEnt :=
    { idx := lowestFree (y.mud.map (·.idx)) 32, line := line, attr := a, data := data, wmask := wmask,
      poison := poison, kind := kind, st := st, readyCc := r.c.cc, seq := y.seq, set := set, way := way,
      tin := r.ftNs, owners := owners, born := r.c.cc }
  (r.modRoom m fun y => { y with mud := y.mud ++ [e], seq := y.seq + 1 }, e.idx)

/-- Attributes of the region that holds a block, as this House's region table has them. -/
def Run.attrOf (r : Run) (b : Block) : Attr := (r.region (blkRegion b)).attr

/-- LINE_LOST, once for each region of a lost channel (R268). -/
def Run.lineLost (r : Run) (c : Fin 16) (b : Block) : Run :=
  if (r.chan c).lostRegions.contains (blkRegion b) then r
  else (r.modChan c fun y => { y with lostRegions := y.lostRegions ++ [blkRegion b] }).chEvent c Code.lineLost (some (blkPa b))

/-- The line that a slot of a lost channel held is gone (R268). -/
def Run.slotLost (r : Run) (m : Fin 64) (set way : Nat) (l : Fin 16) (b : Block) : Run :=
  if (r.attrOf b).mirror then r
  else r.chEvent (r.chanOf (r.nearCell m set way) l) Code.lineLost (some (linePa (blkLine b l)))

/-- A read of the near copy of a line for the Mudroom (R66 step 3). A line on a lost channel comes back at once as
poison (R268). -/
def Run.mudRead (r : Run) (m : Fin 64) (b : Block) (set way : Nat) (l : Fin 16) (e : TagEnt) (idx : Nat) : Run :=
  match r.nearPlace m set way l with
  | some (c, i) =>
    r.chanCmd m c { m := m, idx := i, write := false, pa := linePa (blkLine b l), tenant := e.tenant,
                    near := some (nearMeta e way l 0 false), purpose := some (.mud m idx), charge := e.tenant,
                    tin := r.ftNs }
  | none => (r.slotLost m set way l b).modRoom m fun y =>
      { y with returns := y.returns ++ [.mud idx 0 true] }

/-- Move one dirty victim line to the Mudroom: the bytes of its Open write buffer entry go with it (R126). -/
def Run.mudMove (r : Run) (m : Fin 64) (b : Block) (set way : Nat) (e : TagEnt) (l : Fin 16) : Run :=
  let line := blkLine b l
  let a := { r.attrOf b with tenant := e.tenant, cls := e.cls }
  match (r.room m).wbOpen line with
  | some w =>
    let (r, i) := r.mudAdd m line a set way .evict .loading w.data w.mask w.poison w.owners
    let r := r.wbFree m fun x => x.seq = w.seq
    r.mudRead m b set way l e i
  | none =>
    let (r, i) := r.mudAdd m line a set way .evict .loading 0 0 false
    r.mudRead m b set way l e i

def dirtyLines (e : TagEnt) : List (Fin 16) := allLines.filter fun l => e.dirty.getLsbD l

/-- Open entries of the lines of a block that leaves the tags without a dirty line keep only their forward (R126). -/
def Run.wbForwardOnly (r : Run) (m : Fin 64) (b : Block) : Run :=
  let f (e : WbEnt) : WbEnt :=
    if lineBlk e.line = b && e.st = .open' && e.needAck then { e with fwd := true, needCel := false } else e
  r.modRoom m fun y => { y with wbuf := y.wbuf.map f }

/-- The block of a tag entry. -/
def Run.entBlk (r : Run) (m : Fin 64) (set : Nat) (e : TagEnt) : Block := r.blockOf m set e.tag

/-- Break the reservations of a block that leaves the near tags (R203). -/
def Run.rsvLeave (r : Run) (m : Fin 64) (b : Block) : Run := r.rsvBreak m fun v => paBlock v.pa = b

/-- Take a live entry out of the tags: with dirty lines it becomes Evicting while they move to the Mudroom, without
it becomes Invalid. The Mudroom must have room. -/
def Run.evict (r : Run) (m : Fin 64) (set way : Nat) : Run :=
  let e := r.tag m set way
  let b := r.entBlk m set e
  let r := r.rsvLeave m b
  if e.dirty = 0 then (r.wbForwardOnly m b).setTag m set way {}
  else
    let r := r.setTag m set way { e with state := 6 }
    r.forEach (dirtyLines e) fun l r => r.mudMove m b set way e l

/-- The Mudroom has room for the dirty lines of an entry. -/
def Run.mudFits (r : Run) (m : Fin 64) (e : TagEnt) : Bool :=
  decide ((dirtyLines e).length ≤ r.mudFree m)

end Sys2Proof.Machine
end

