-- ==== Sys2Proof/Machine/Coherence.lean ====
section
/-! DEFINITION. The Screen, the sharer directory, coherence trackers, and poison put on a line where it lives
(R136–R155, R164). -/
namespace Sys2Proof.Machine
open Sys2Proof

/-! ## Poison in place -/

/-- Home place of a line: its channel and line index (R46, R48). -/
def Run.homePlace (r : Run) (b : Block) (l : Fin 16) : Fin 16 × Nat :=
  let cell := homeCell (r.region (blkRegion b)).frame b
  (r.chanOf cell l, cell)

def homeMeta (t : BitVec 12) (lcode : BitVec 2) (poison : Bool) : Meta :=
  { tenant := t, poison := poison, state := 1, lcode := lcode }

/-- Mark the line at a place poison, in DRAM and in the writes that wait for it. -/
def Run.poisonCell (r : Run) (c : Fin 16) (idx : Nat) (md : Meta) (t : BitVec 12) (pa : PoolAddr) : Run :=
  let x := r.line c idx
  let d := if x.md.state = 0 then 0 else r.decrypt t pa x
  let r := r.putLine c idx (r.encrypt t pa d { md with poison := true })
  let q (e : CelCmd) : CelCmd := if e.idx = idx && e.write then { e with md := { e.md with poison := true } } else e
  r.modChan c fun y => { y with queue := y.queue.map q }

/-- Mark the writes of a Room poison that are on their way to a place. -/
def Run.poisonOut (r : Run) (m : Fin 64) (c : Fin 16) (idx : Nat) : Run :=
  let f (o : ChanOut) : ChanOut :=
    if r.outPlace m o = some (c, idx) then match o with
      | .near w => .near { w with md := { w.md with poison := w.md.poison || !w.release } }
      | .cmd c x => .cmd c { x with md := { x.md with poison := x.md.poison || x.write } }
    else o
  r.modRoom m fun y => { y with outC := y.outC.map f }

/-- Mark the write buffer entry of a line poison. -/
def Run.poisonWb (r : Run) (m : Fin 64) (line : BitVec 40) : Run :=
  let f (e : WbEnt) : WbEnt := if e.line = line then { e with poison := true, after := 0 } else e
  r.modRoom m fun y => { y with wbuf := y.wbuf.map f }

/-- Mark a line poison in its home frame (R153, R155). -/
def Run.poisonHome (r : Run) (m : Fin 64) (line : BitVec 40) : Run :=
  let b := lineBlk line
  let a := r.attrOf b
  let (c, idx) := r.homePlace b (lineNo line)
  let r := r.poisonCell c idx (homeMeta a.tenant (r.cls a.cls).lcode true) a.tenant (linePa line)
  (r.poisonOut m c idx).poisonWb m line

/-- Mark a line poison in its near copy when its block is live (R77, R146, R193). With `valid` its VALID bit is set, so
that reads return the poison (R193); a timed-out fill leaves it as it was (R77). -/
def Run.poisonNear (r : Run) (m : Fin 64) (line : BitVec 40) (valid : Bool) : Run :=
  let b := lineBlk line
  match r.liveEnt m b with
  | some (w, e) =>
    if e.state = 6 then r
    else
      let set := r.setOf b
      let e := { e with state := 4, valid := if valid then setBit16 e.valid (lineNo line) else e.valid }
      let r := r.setTag m set w e
      let r := match r.nearPlace m set w (lineNo line) with
        | some (c, idx) =>
          (r.poisonCell c idx (nearMeta e w (lineNo line) (r.cls e.cls).lcode true) e.tenant (linePa line)).poisonOut m c idx
        | none => r
      r.poisonWb m line
  | none => r

/-- A whole line of poison goes to the home of a block (R146). -/
def Run.poisonHomeward (r : Run) (m : Fin 64) (line : BitVec 40) : Run :=
  let it : Item := { src := .house, op := .memWr, pa := linePa line, attr := r.attrOf (lineBlk line), mask := fullMask,
                     poison := true, tin := r.ftNs }
  r.acceptOr m it .fwd false id

/-- Mark a line poison where it lives (R141, R146): at home in its frame; elsewhere in the Mudroom, or in the near copy,
which is dirty from then on, or, when the House holds no copy of it, in the home's frame (log entry 87, DEDUCED). -/
def Run.poisonLine (r : Run) (m : Fin 64) (line : BitVec 40) : Run :=
  let b := lineBlk line
  let inMud := ((r.room m).mudOf line).isSome
  let r := r.modRoom m fun y => { y with mud := y.mud.map fun e => if e.line = line then { e with poison := true } else e }
  if r.actsHome b (r.attrOf b).mirror then r.poisonHome m line
  else if inMud then r
  else match r.liveEnt m b with
    | some (w, e) =>
      if e.state ≠ 6 && e.valid.getLsbD (lineNo line) then
        (r.modTag m (r.setOf b) w fun e => { e with dirty := setBit16 e.dirty (lineNo line) }).poisonNear m line true
      else r.poisonHomeward m line
    | none => r.poisonHomeward m line

def blkLines (b : Block) : List (BitVec 40) := allLines.map (blkLine b)
def granLines (g : BitVec 38) : List (BitVec 40) := (List.range 4).map fun i => g ++ BitVec.ofNat 2 i
def blkGrans (b : Block) : List (BitVec 38) := (List.range 4).map fun i => b ++ BitVec.ofNat 2 i
def lineGran (l : BitVec 40) : BitVec 38 := l.extractLsb' 2 38
def granBlk (g : BitVec 38) : Block := g.extractLsb' 2 36

/-! ## The Screen (R137, R138, R144) -/

def scnKey (m : Fin 64) (set way : Nat) : Nat := (m.val * 16384 + set) * 16 + way
def Run.scn (r : Run) (m : Fin 64) (set way : Nat) : ScnEnt := mget {} r.m.scn (scnKey m set way)

/-- The valid entry of a granule: its way and the entry. -/
def Run.scnFind (r : Run) (m : Fin 64) (g : BitVec 38) : Option (Nat × ScnEnt) :=
  ((List.range 16).map fun w => (w, r.scn m (r.scnSetOf g) w)).find? fun e => e.2.pres ≠ 0 && e.2.gran = g

def Run.scnPut (r : Run) (m : Fin 64) (set way : Nat) (e : ScnEnt) : Run := r.st (.scn (scnKey m set way) e)

/-- Free every Screen entry of a granule. -/
def Run.scnFree (r : Run) (m : Fin 64) (g : BitVec 38) : Run :=
  match r.scnFind m g with
  | some (w, _) => r.scnPut m (r.scnSetOf g) w {}
  | none => r

/-- The links of the Porches whose PRES bit is set. -/
def Run.presLinks (r : Run) (pres : BitVec 8) : List (Fin 8 × Fin 2) :=
  allPorches.flatMap fun (p : Fin 8) =>
    if pres.getLsbD p.val then (if r.bif p then [(p, 0), (p, 1)] else [(p, 0)]) else []

/-- The tracker of a block (R73). -/
def Room.trkOf (y : Room) (b : Block) : Option Trk := y.trks.find? fun t => t.blk = b

/-! ## Coherence trackers (R147, R148) -/

/-- A tracker holds the granule, or the block as a whole. -/
def Coh.holds (c : Coh) (b : Block) (g : Option (BitVec 38)) : Bool :=
  c.blk = b && match c.gran, g with
    | some x, some y => b ++ x = y
    | _, _ => true

def Run.cohHolds (r : Run) (m : Fin 64) (b : Block) (g : Option (BitVec 38)) : Option Coh :=
  (r.room m).cohs.find? fun c => c.holds b g

/-- The tracker that a request waits for: one that holds its granule or block, or a parity sweep of the Screen set of
one of its granules (R145, R147). -/
def Run.cohStops (r : Run) (m : Fin 64) (b : Block) (g : Option (BitVec 38)) (gs : List (BitVec 38)) : Option Coh :=
  (r.room m).cohs.find? fun c => c.holds b g || gs.any fun x => c.scnSet = some (r.scnSetOf x)

/-- A Screen set waits for a parity sweep that has not begun. -/
def Room.scnWaits (y : Room) (set : Nat) : Bool := y.scnBad.any fun x => x.set = set

/-- Why an action on the granule or block, with Screen entries of these granules, has to wait (R145, R147). -/
def Run.cohWhy (r : Run) (m : Fin 64) (b : Block) (g : Option (BitVec 38)) (gs : List (BitVec 38)) : Option Why :=
  match r.cohStops m b g gs with
  | some c => some (.coh c.idx)
  | none => (gs.find? fun x => (r.room m).scnWaits (r.scnSetOf x)).map fun x => .scnSet (r.scnSetOf x)

def Coh.ready (c : Coh) : Bool := c.parked.isEmpty && c.snps.isEmpty && c.invs.isEmpty && c.reads.isEmpty

/-- A new tracker: 16 are kept for INV and RECALL. -/
def Run.newCoh (r : Run) (m : Fin 64) (c : Coh) (isSnoop : Bool) : Option (Run × Nat) :=
  let y := r.room m
  if (if isSnoop then 64 else 48) ≤ y.cohs.length then none
  else
    let i := lowestFree (y.cohs.map (·.idx)) 64
    let r := r.modRoom m fun y => { y with cohs := y.cohs ++ [{ c with idx := i }] }
    some (r.peak (rmBase m + 0x384) (y.cohs.length + 1), i)

def Run.modCoh (r : Run) (m : Fin 64) (idx : Nat) (f : Coh → Coh) : Run :=
  r.modRoom m fun y => { y with cohs := y.cohs.map fun c => if c.idx = idx then f c else c }
def Run.dropCoh (r : Run) (m : Fin 64) (idx : Nat) : Run :=
  r.modRoom m fun y => { y with cohs := y.cohs.filter fun c => c.idx ≠ idx }

/-! ## Back-invalidates (R141, R146) -/

/-- The BISnp messages that snoop `n` lines of 64 B at `pa` on one link, host addresses by R331: in block form in
groups of four where the link takes it. -/
def Run.biMsgs (r : Run) (p : Fin 8) (k : Fin 2) (pa : PoolAddr) (n : Nat) : List (BitVec 52 × Bool × PoolAddr) :=
  let blk := (r.link p k).biBlk && decide (4 ≤ n)
  let step := if blk then 256 else 64
  (List.range (n * 64 / step)).flatMap fun i =>
    let a := pa + BitVec.ofNat 48 (i * step)
    (r.paToHpas p k a).map fun h => (h, blk, a)

/-- A back-invalidate sets out from Room m toward its Porch, in a slot of code 0x59. -/
def Run.biPost (r : Run) (m : Fin 64) (p : Fin 8) (k : Fin 2) (kind : Snp) (hpa : BitVec 52) (blk : Bool) : Run :=
  if r.c.tt.run then r.post (roomCal m) 0x59 (.bi p k kind hpa blk) else r.toHost (.biSnp p k kind hpa blk)

/-- Snoop one link. A link of a fenced Porch counts as having answered, and an exclusive copy there is lost (R346);
a link with no address for the line counts as having answered BIRspI. -/
def Run.biSend (r : Run) (m : Fin 64) (idx : Nat) (pk : Fin 8 × Fin 2) (pa : PoolAddr) (n : Nat) (kind : Snp)
    (excl : Bool) : Run :=
  let (p, k) := pk
  let ms := r.biMsgs p k pa n
  if r.fenced (unitPorch p) then
    r.when (excl && !ms.isEmpty) fun r =>
      r.forEach ((ms.map fun x => paLine x.2.2).dedup) fun l r => r.poisonLine m l
  else
    let by' := r.now + usec (r.fld (rmBase m + 0x300) 9 0)
    let r := r.modCoh m idx fun c =>
      { c with snps := c.snps ++ ms.map fun x =>
          { p := p, k := k, hpa := x.1, blk := x.2.1, kind := kind, line := paLine x.2.2, n := 1, sentAt := r.now,
            by' := by', excl := excl && kind ≠ .cur } }
    let r := r.forEach ms fun x r => r.biPost m p k kind x.1 x.2.1
    (r.rmCount m 0x310 ms.length).pulse m 0x0C ms.length

def Run.biSendAll (r : Run) (m : Fin 64) (idx : Nat) (links : List (Fin 8 × Fin 2)) (pa : PoolAddr) (n : Nat)
    (kind : Snp) (excl : Bool) : Run :=
  r.forEach links fun pk r => r.biSend m idx pk pa n kind excl

/-- Whole-granule snoop for a Screen entry. -/
def Run.biEntry (r : Run) (m : Fin 64) (idx : Nat) (e : ScnEnt) (kind : Snp) : Run :=
  r.biSendAll m idx (r.presLinks e.pres) (granPa e.gran) 16 kind e.excl

/-! ## Screen and directory words (R137, R149) -/

/-- Bits [46:0] of a Screen entry. -/
def ScnEnt.low (e : ScnEnt) : BitVec 47 := (if e.excl then 1#1 else 0#1) ++ e.pres ++ e.gran
/-- A Screen entry with PAR, even parity over bits [46:0]. -/
def ScnEnt.word (e : ScnEnt) : BitVec 48 := (if parity 47 e.low.toNat then 1#1 else 0#1) ++ e.low
/-- The entry that a Screen word spells, whatever its parity. -/
def ScnEnt.ofWord (w : BitVec 48) : ScnEnt :=
  { gran := w.extractLsb' 0 38, pres := w.extractLsb' 38 8, excl := w.getLsbD 46 }
/-- The word's parity is not even. -/
def scnParityBad (w : BitVec 48) : Bool := parity 48 w.toNat

/-- Bits [87:0] of a directory entry: the reserved ones are zero, and the check covers them. -/
def DirEnt.low (e : DirEnt) : BitVec 88 := 0#3 ++ e.state ++ e.tag ++ e.sharers
/-- A directory entry with its check bits (log entry 86). -/
def DirEnt.word (e : DirEnt) : BitVec 96 := Config.dirSecded e.low ++ e.low

/-! ## Screen allocation and eviction (R144) -/

/-- The block's miss tracker has fills in flight, or its victim is still Evicting (R71). -/
def Room.filling (y : Room) (b : Block) : Bool := (y.trkOf b).any fun t => !t.pend.isEmpty || t.evicting

/-- The snoops of an eviction or a parity sweep go out once no miss tracker holds them (R71; log entry 88, DEDUCED). -/
def Run.cohUnpark (r : Run) (m : Fin 64) (idx : Nat) : Run :=
  match (r.room m).cohs.find? fun c => c.idx = idx with
  | some c =>
    if c.parked.isEmpty || c.parked.any (fun g => (r.room m).filling (granBlk g)) then r
    else
      let r := r.modCoh m idx fun c => { c with parked := [] }
      match c.scnSet, c.job with
      | some _, _ => r.forEach c.parked fun g r => r.biSendAll m idx (r.linksOf (granPa g)) (granPa g) 16 .inv c.excl
      | none, .freeScn set way => r.biEntry m idx (r.scn m set way) .inv
      | none, _ => r
  | none => r

/-- Break the reservations whose granule meets a Screen granule (R203). -/
def Run.rsvScreen (r : Run) (m : Fin 64) (g : BitVec 38) : Run :=
  r.rsvBreak m fun v => (granLines g).any fun l => v.covers l

/-- Outcome of an action that may have to wait. -/
inductive Need
  | ok (r : Run)
  | wait (r : Run) (why : Why)

/-- Find a way for a new Screen entry: the lowest that is not valid; else one is evicted, and the request waits. -/
def Run.scnWay (r : Run) (m : Fin 64) (g : BitVec 38) (f : Run → Nat → Run) : Need :=
  let set := r.scnSetOf g
  match (List.range 16).find? fun w => (r.scn m set w).pres = 0 with
  | some w => .ok (f r w)
  | none =>
    let start := (r.room m).scnPtr
    let cand := ((List.range 16).map fun i => (start + i) % 16).find? fun w =>
      (r.cohHolds m (granBlk (r.scn m set w).gran) (some (r.scn m set w).gran)).isNone
    match cand with
    | some w =>
      let e := r.scn m set w
      match r.newCoh m { idx := 0, blk := granBlk e.gran, gran := some (e.gran.extractLsb' 0 2),
                         job := .freeScn set w, parked := [e.gran] } false with
      | some (r, i) =>
        let r := r.modRoom m fun y => { y with scnPtr := (w + 1) % 16 }
        .wait (((r.rmCount m 0x304 1).pulse m 0x0D).cohUnpark m i) (.coh i)
      | none => .wait r .cohPool
    | none => .wait r .cohPool

/-- Whether a request leaves its line in a host cache (R139), and whether with permission to modify it. -/
inductive Keep | no | shared | excl | bit
deriving DecidableEq, Repr

def Item.keep (it : Item) : Keep :=
  match it.op, it.meta' with
  | .memRd, .a => .excl
  | .memInv, _ => .excl
  | .memRd, .s => .shared
  | .memRdData, _ => .shared
  | .memWr, .a => .excl
  | .memWrPtl, .a => .excl
  | .memWr, .s => .bit
  | .memWrPtl, .s => .bit
  | _, _ => .no

/-- The link that a request's own snoops leave out. -/
def ownLink : Src → Option (Fin 8 × Fin 2)
  | .host _ p k => some (p, k)
  | .rsv _ p k _ => some (p, k)
  | _ => none

/-- The tracker snoops the item's own link for its line: the link answers after it has the item's response (R143). -/
def Coh.asksOwn (c : Coh) (it : Item) : Bool :=
  c.snps.any fun s => some (s.p, s.k) = ownLink it.src && s.line = paLine it.pa

/-- The tracker holds back a request that had its pass before it (R71, R143). -/
def Coh.stops (c : Coh) (it : Item) : Bool := c.parked.isEmpty && !(c.asksOwn it)

/-- The tracker that is freeing a Screen entry. -/
def Room.scnFreer (y : Room) (set way : Nat) : Option Coh := y.cohs.find? fun c => c.job = .freeScn set way

/-- A granule's entry with PRES of one Porch, and EXCL, added. -/
def Run.scnAdd (r : Run) (m : Fin 64) (g : BitVec 38) (p : Fin 8) (excl : Bool) : Need :=
  let bit : BitVec 8 := 1#8 <<< p.val
  match r.scnFind m g with
  | some (w, e) =>
    .ok ((r.scnPut m (r.scnSetOf g) w { e with pres := e.pres ||| bit, excl := e.excl || excl }).when excl
      fun r => r.rsvScreen m g)
  | none => r.scnWay m g fun r w =>
    (r.scnPut m (r.scnSetOf g) w { gran := g, pres := bit, excl := excl }).when excl fun r => r.rsvScreen m g

/-- Record in the Screen what a host request leaves behind (R138, R139). An entry that is being evicted takes no new
copy but that of a link which still has to answer the eviction. -/
def Run.scnRecord (r : Run) (m : Fin 64) (it : Item) : Need :=
  match it.src with
  | .host _ p _ =>
    if it.keep = .no then .ok r
    else
      let g := paGran it.pa
      match (r.scnFind m g).bind fun x => (r.room m).scnFreer (r.scnSetOf g) x.1 with
      | some c => if c.stops it then .wait r (.coh c.idx) else r.scnAdd m g p (it.keep = .excl)
      | none => r.scnAdd m g p (it.keep = .excl)
  | _ => .ok r

/-- Record, then go on; a request that has to wait for a way becomes a waiter, with the data it has. -/
def Run.recordThen (r : Run) (m : Fin 64) (it : Item) (ans : Option (LineData × Bool)) (f : Run → Run) : Run :=
  match r.scnRecord m it with
  | .ok r => f r
  | .wait r why => r.addWaiter m it why ans

/-! ## What a request must snoop first (R139, R140, R200) -/

/-- The snoop that a request on its line needs, given the granule's entry: its kind, none when no snoop is needed. -/
def snoopKind (op : ROp) (mv : MetaVal) (e : ScnEnt) : Option Snp :=
  match op with
  | .memRd =>
    match mv with
    | .a => some .inv
    | .s => if e.excl then some .data else none
    | _ => if e.excl then some .cur else none
  | .memRdData => if e.excl then some .data else none
  | .memInv | .memWr | .memWrPtl | .rsvStore => some .inv
  | .memClnEvct => none
  | .rsvLoad => some .inv

/-- The links that a host request must snoop for its line first, with the kind of snoop. -/
def Run.hostSnoops (r : Run) (m : Fin 64) (it : Item) : Option (Snp × List (Fin 8 × Fin 2) × Bool) :=
  match r.scnFind m (paGran it.pa) with
  | some (_, e) =>
    match snoopKind it.op it.meta' e with
    | some kind =>
      let ls := (r.presLinks e.pres).filter fun x => some x ≠ ownLink it.src
      if ls.isEmpty then none else some (kind, ls, e.excl)
    | none => none
  | none => none

/-! ## The sharer directory (R149, R150, R152) -/

def dirSet (b : Block) : Nat := (b.extractLsb' 0 11 ^^^ b.extractLsb' 11 11).toNat
/-- TAG of a block's entry. It holds local address bits alone: at a twin that acts as home, blocks of the dead home and
own blocks with one local address share their entry (R149, R172; log entry 89, DESIGN CHOICE). -/
def dirTag (b : Block) : BitVec 19 := b.extractLsb' 11 19
def dirKey (m : Fin 64) (set way : Nat) : Nat := (m.val * 2048 + set) * 16 + way
def Run.dir (r : Run) (m : Fin 64) (set way : Nat) : DirEnt := mget {} r.m.dir (dirKey m set way)

def Run.dirFind (r : Run) (m : Fin 64) (b : Block) : Option (Nat × DirEnt) :=
  ((List.range 16).map fun w => (w, r.dir m (dirSet b) w)).find? fun e => e.2.state ≠ 0 && e.2.tag = dirTag b

def Run.dirPut (r : Run) (m : Fin 64) (set way : Nat) (e : DirEnt) : Run := r.st (.dir (dirKey m set way) e)

/-- The block that a directory entry of this House's pool slice names (R149). -/
def dirBlk (home : BitVec 6) (set : Nat) (e : DirEnt) : Block :=
  home ++ e.tag ++ (BitVec.ofNat 11 set ^^^ e.tag.extractLsb' 0 11)

/-- Houses a directory entry lists. -/
def DirEnt.houses (e : DirEnt) : List (BitVec 6) :=
  ((List.range 64).filter fun d => e.sharers.getLsbD d).map (BitVec.ofNat 6)

def bit64 (e : BitVec 6) : BitVec 64 := 1#64 <<< e.toNat

/-- All 16 lines of a block whose owner is lost turn poison at home (R155, R174). -/
def Run.loseOwner (r : Run) (m : Fin 64) (b : Block) : Run :=
  let r := r.forEach (blkLines b) fun l r => r.poisonHome m l
  r.rmCount m 0x354 1

/-- Take a dead House out of one directory entry (R174). -/
def Run.purgeEnt (r : Run) (m : Fin 64) (home : BitVec 6) (set way : Nat) (d : BitVec 6) : Run :=
  let e := r.dir m set way
  if e.state = 0 || !(e.sharers.getLsbD d.toNat) then r
  else if e.state = 3 then
    let b := dirBlk home set e
    ((r.loseOwner m b).rmEvent m Code.lostOwner (some (blkPa b))).dirPut m set way {}
  else
    let s := e.sharers &&& ~~~(bit64 d)
    r.dirPut m set way (if s = 0 then {} else { e with sharers := s })

/-- A lookup applies the purge of every dead House first (R174). -/
def Run.purgeFirst (r : Run) (m : Fin 64) (b : Block) : Run :=
  match r.dirFind m b with
  | some (w, e) => r.forEach (e.houses.filter fun d => r.dead d) fun d r => r.purgeEnt m (b.extractLsb' 30 6) (dirSet b) w d
  | none => r

/-! ## INV and RECALL at the home (R151, R155) -/

def Run.sendSnoop (r : Run) (m : Fin 64) (idx : Nat) (b : Block) (rcl : Bool) (e : BitVec 6) : Run :=
  let f := r.mkMsg (if rcl then Op.rcl else Op.inv) e (blkLine b 0) (r.attrOf b) (mkTag m (384 + idx))
  ((r.hallMsg (roomCal m) f r.ftNs).rmCount m 0x34C 1).pulse m 0x0E

/-- Send INV or RECALL to every House of the list for a tracker. -/
def Run.snoopAll (r : Run) (m : Fin 64) (idx : Nat) (b : Block) (rcl : Bool) (es : List (BitVec 6))
    (owner : Bool) : Run :=
  r.forEach es fun e r =>
    let r := r.sendSnoop m idx b rcl e
    r.modCoh m idx fun c =>
      { c with invs := c.invs ++ [{ house := e, sentAt := r.now, owner := owner,
                                    retryBy := r.now + usec (r.fld (rmBase m + 0x340) 7 0),
                                    lostBy := r.now + usec (r.fld (rmBase m + 0x344) 9 0) }] }

/-- The events of R151 at the home. -/
inductive HomeEv
  | read
  | own
  | fillS (q : BitVec 6)
  | fillO (q : BitVec 6)
  | upgrade (q : BitVec 6)
  | rdU (q : BitVec 6)
  | wrU (q : BitVec 6)
deriving DecidableEq, Repr

def HomeEv.asker : HomeEv → Option (BitVec 6)
  | .fillS q | .fillO q | .upgrade q | .rdU q | .wrU q => some q
  | _ => none

/-- The event needs only the owner's data, not the end of every copy. -/
def HomeEv.mild : HomeEv → Bool
  | .read | .fillS _ | .rdU _ => true
  | _ => false

/-- The Houses to snoop first for an entry in Shared or Owned, and whether with RECALL (R151). -/
def HomeEv.targets (ev : HomeEv) (e : DirEnt) : List (BitVec 6) × Bool :=
  let but (q : BitVec 6) := e.houses.filter fun d => d ≠ q
  match ev with
  | .read => (if e.state = 3 then e.houses else [], true)
  | .rdU _ => (if e.state = 3 then e.houses else [], true)
  | .fillS q => (if e.state = 3 then but q else [], true)
  | .own => (e.houses, false)
  | .wrU _ => (e.houses, false)
  | .fillO q => (but q, false)
  | .upgrade q => (but q, false)

/-- Sharers and STATE that the event leaves, from the entry as it stands (0 and Free when there is none) and the
Houses that answered held (R151). -/
def HomeEv.after (ev : HomeEv) (e : DirEnt) (held : BitVec 64) : BitVec 64 × BitVec 2 :=
  let shared (s : BitVec 64) : BitVec 64 × BitVec 2 := if s = 0 then (0, 0) else (s, 2)
  let left := if e.state = 3 then e.sharers &&& held else e.sharers
  match ev with
  | .read => shared left
  | .rdU _ => shared left
  | .fillS q => (left ||| bit64 q, 2)
  | .own => (0, 0)
  | .wrU _ => (0, 0)
  | .fillO q => (bit64 q, 3)
  | .upgrade q => (bit64 q, 3)

/-- A way for a new directory entry: the lowest Free, then the lowest Known; else one is evicted (R152). -/
def Run.dirWay (r : Run) (m : Fin 64) (b : Block) (f : Run → Nat → Run) : Need :=
  let set := dirSet b
  match (List.range 16).find? fun w => (r.dir m set w).state = 0 with
  | some w => .ok (f r w)
  | none => match (List.range 16).find? fun w => (r.dir m set w).state = 1 with
    | some w => .ok (f r w)
    | none =>
      let home := b.extractLsb' 30 6
      let cand := ((List.range 16).map fun i => ((r.room m).dirPtr + i) % 16).find? fun w =>
        (r.cohHolds m (dirBlk home set (r.dir m set w)) none).isNone
      match cand with
      | some w =>
        let e := r.dir m set w
        let v := dirBlk home set e
        match r.newCoh m { idx := 0, blk := v, job := .home v false true } false with
        | some (r, i) =>
          let r := r.modRoom m fun y => { y with dirPtr := (w + 1) % 16 }
          .wait ((r.rmCount m 0x348 1).snoopAll m i v false e.houses (e.state = 3)) (.coh i)
        | none => .wait r .cohPool
      | none => .wait r .cohPool

/-- Write the state that an event leaves; an adopted block's entry stays in use as Known (R151, R171). -/
def Run.dirSettle (r : Run) (m : Fin 64) (b : Block) (adopted : Bool) (s : BitVec 64) (st : BitVec 2) : Need :=
  let st := if st = 0 && adopted then 1 else st
  let e : DirEnt := if st = 0 then {} else { sharers := s, tag := dirTag b, state := st }
  match r.dirFind m b with
  | some (w, _) => .ok (r.dirPut m (dirSet b) w e)
  | none => if st = 0 then .ok r else r.dirWay m b fun r w => r.dirPut m (dirSet b) w e

end Sys2Proof.Machine
end

