-- ==== Sys2Proof/Machine/RoomFlow.lean ====
section
/-! DEFINITION. How a Room serves one item: the home paths, the paths of a remote-homed block, misses and their
fills, the Mudroom rescue (R24, R25, R63–R80, R124, R151–R158, R200–R204). -/
namespace Sys2Proof.Machine
open Sys2Proof

/-! ## What an item asks for -/

def Item.writes (it : Item) : Bool := isWrite it.op || it.op = .rsvStore
def Item.reads (it : Item) : Bool := isRead it.op || it.op = .rsvLoad
/-- The request needs ownership of a Shared block that is homed elsewhere (R156, R201, R202). -/
def Item.owns (it : Item) : Bool :=
  it.writes || (it.op = .memRd && it.meta' = .a) || it.op = .memInv || it.op = .rsvLoad
def Item.full (it : Item) : Bool := it.mask = fullMask

/-- The block was given to this Room by a fallback table, or to this House by the death of its home (R169, R172). -/
def Run.adopted (r : Run) (m : Fin 64) (b : Block) (a : Attr) : Bool :=
  r.roomOf b ≠ m || (a.mirror && !(r.isHome b) && r.actsHome b true)

/-! ## Reservations in a Room (R200, R202, R204) -/

/-- Place the reservation of a reserving load; a full table gives up the one whose lease ends first. -/
def Run.rsvPlace (r : Run) (m : Fin 64) (it : Item) : Run :=
  match it.src with
  | .rsv _ p k slot =>
    let v : Rsv := { p := p, k := k, slot := slot, pa := it.pa, g := (r.cls it.attr.cls).rgran,
                     endsAt := r.now + usec (r.fld (pchBase p + 0x520) 15 0) }
    let ys := (r.room m).rsvs.filter fun v => !(sameSlot v p k slot)
    if 16 ≤ ys.length then
      let lo := ys.foldl (fun n v => min n v.endsAt) ((ys.map (·.endsAt)).headD 0)
      let r := r.modRoom m fun y => { y with rsvs := (ys.eraseP fun v => v.endsAt = lo) ++ [v] }
      (r.rmCount m 0x3C8 1).pulse m 0x14
    else r.modRoom m fun y => { y with rsvs := ys ++ [v] }
  | _ => r

/-- The slot's reservation stands in this Room. -/
def Run.rsvStands (r : Run) (m : Fin 64) (it : Item) : Bool :=
  match it.src with
  | .rsv _ p k slot => (r.room m).rsvs.any fun v => sameSlot v p k slot && v.covers (paLine it.pa)
  | _ => false

/-- A reservation operation ends: a load that is not supported (R201), a store whose reservation is broken. -/
def Run.rsvFail (r : Run) (m : Fin 64) (it : Item) : Run :=
  match it.src with
  | .rsv _ _ _ _ => r.answer (roomCal m) it.src (if it.op = .rsvLoad then .done else .data 0 false) true
  | _ => r

/-! ## Reads go out -/

/-- Before data leaves for an item: the Screen records a host's copy, or the reservation is placed. -/
def Run.beforeData (r : Run) (m : Fin 64) (it : Item) (ans : Option (LineData × Bool)) (f : Run → Run) : Run :=
  if it.op = .rsvLoad then f (r.rsvPlace m it) else r.recordThen m it ans f

/-- Data that is at hand leaves for an item. One that has to wait for a Screen way is served again, but for poison. -/
def Run.giveData (r : Run) (m : Fin 64) (it : Item) (d : LineData) (poison : Bool) : Run :=
  if it.op = .rsvLoad && poison then (r.rsvUnplace m it).answerData m (roomCal m) it d true
  else r.beforeData m it (if poison then some (d, true) else none) fun r => r.answerData m (roomCal m) it d poison

/-- A request without data completes. -/
def Run.giveDone (r : Run) (m : Fin 64) (it : Item) : Run :=
  r.recordThen m it none fun r => (r.when (it.op = .memInv) fun r => r.rsvScreen m (paGran it.pa)).answerDone m it

/-- The read waits until the entry of its line has been issued, which happens at once (R106, R107). -/
def Run.waitDrain (r : Run) (m : Fin 64) (it : Item) (seq : Nat) : Run :=
  (r.modWb m seq fun e => { e with force := true }).addWaiter m it (.wbDrain seq)

/-- The write's own step of acceptance, with what the Screen must record first (R139). -/
def Run.takeWrite (r : Run) (m : Fin 64) (it : Item) (d : Dest) (held : Bool) (f : Run → Run) : Run :=
  r.recordThen m it none fun r =>
    let ok (r : Run) : Run :=
      if it.op = .rsvStore then f (r.charge it.attr.tenant .wr 8 it.tin) else f r
    r.acceptOr m it d held ok

/-! ## Miss trackers (R73, R75, R77) -/

/-- An INV or RECALL of the block is held (R71). -/
def Room.heldOn (y : Room) (b : Block) : Bool :=
  (y.trkOf b).any (fun t => !t.held.isEmpty) || y.snoopQ.any fun f => lineBlk f.addr = b
def Run.modTrk (r : Run) (m : Fin 64) (idx : Nat) (f : Trk → Trk) : Run :=
  r.modRoom m fun y => { y with trks := y.trks.map fun t => if t.idx = idx then f t else t }

def Run.newTrk (r : Run) (m : Fin 64) (b : Block) (a : Attr) : Option (Run × Nat) :=
  let y := r.room m
  if 256 ≤ y.trks.length then none
  else
    let i := lowestFree (y.trks.map (·.idx)) 256
    let t : Trk := { idx := i, blk := b, attr := a, us := r.fld (rmBase m + 0x30) 9 0 }
    let r := r.modRoom m fun y => { y with trks := y.trks ++ [t] }
    some ((r.peak (rmBase m + 0x14) (y.trks.length + 1)).pulse m 0x06, i)

/-- The tracker of a block, or a new one. -/
def Run.needTrk (r : Run) (m : Fin 64) (b : Block) (a : Attr) : Option (Run × Nat) :=
  match (r.room m).trkOf b with
  | some t => some (r, t.idx)
  | none => r.newTrk m b a

def lineMask (ls : List (Fin 16)) : BitVec 16 := ls.foldl setBit16 0

/-- Ask the home for lines of a block, the missing line first in ADDR (R68, R156). -/
def Run.askFill (r : Run) (m : Fin 64) (idx : Nat) (b : Block) (a : Attr) (op : BitVec 8) (ls : List (Fin 16))
    (noinst : Bool) (tin : Stamp) : Run :=
  let f := r.mkMsg op (r.homeOf b a.mirror) (blkLine b (ls.headD 0)) a (mkTag m idx)
  let r := r.modTrk m idx fun t =>
    let by' := r.now + usec t.us
    let t := if op = Op.upgrade then { t with upg := t.upg ||| lineMask ls }
      else { t with pend := t.pend ++ ls.map fun l => (l, by'),
                    noinst := if noinst || op = Op.rdU then t.noinst ||| lineMask ls else t.noinst &&& ~~~(lineMask ls),
                    rdu := if op = Op.rdU then t.rdu ||| lineMask ls else t.rdu &&& ~~~(lineMask ls) }
    if op = Op.upgrade || op = Op.fillO then { t with grant := .asked, grantBy := by' } else t
  r.hallMsg (roomCal m) { f with mask := lineMask ls, noinst := noinst } tin

/-- A recovery read of a line from House `dst` (R261, R263, R268), under the tracker of its block: `rmw` names the write
buffer entry that waits. A read of the line that is in flight to that House serves for both. -/
def Run.askOther (r : Run) (m : Fin 64) (line : BitVec 40) (a : Attr) (dst : BitVec 6) (rmw : Option Nat) (near : Bool)
    (tin : Stamp) : Option (Run × Nat) :=
  (r.needTrk m (lineBlk line) a).map fun x =>
    let (r, i) := x
    let l := lineNo line
    let asked : Bool := ((r.room m).trkOf (lineBlk line)).any fun t => t.twins.any fun x => x.line = l && x.dst = dst
    let r := r.modTrk m i fun t =>
      { t with twins := t.twins ++ [{ line := l, dst := dst, by' := r.now + usec t.us, rmw := rmw, nearFix := near }] }
    let f := r.mkMsg Op.rdU dst line a (mkTag m i)
    (if asked then r else r.hallMsg (roomCal m) { f with twin := true, mask := lineMask [l] } tin, i)

/-- A recovery read of a home line from the twin, or of a twin copy from the home (R261, R268, R313). -/
def Run.askTwin (r : Run) (m : Fin 64) (line : BitVec 40) (a : Attr) (rmw : Option Nat) (tin : Stamp) :
    Option (Run × Nat) :=
  r.askOther m line a (r.partner (lineBlk line)) rmw false tin

/-- The item reads its home line from the twin. -/
def Run.readTwin (r : Run) (m : Fin 64) (it : Item) : Run :=
  match r.askTwin m (paLine it.pa) it.attr none it.tin with
  | some (r, i) => r.addWaiter m it (.fill i)
  | none => r.addWaiter m it .pool

/-! ## Home paths -/

/-- The line's twin copy is not acknowledged yet (R112). -/
def Room.twinDue (y : Room) (line : BitVec 40) : Bool :=
  y.wbuf.any fun e => e.line = line && (e.needTwin || e.twinLater)

/-- A read of a line that this House serves as home (R106, R112, R268). -/
def Run.homeRead (r : Run) (m : Fin 64) (it : Item) : Run :=
  let b := paBlock it.pa
  let line := paLine it.pa
  let fab := match it.src with
    | .fab f => !f.twin
    | _ => false
  if fab && (r.room m).twinDue line then r.addWaiter m it (.twin line)
  else match (r.room m).wbRead it with
    | .covered d p => (r.pulse m 0x08).giveData m it d p
    | .drain s => r.waitDrain m it s
    | .held => r.addWaiter m it .wbFull
    | .none =>
      let (c, idx) := r.homePlace b (paLineNo it.pa)
      if r.lostChan c then
        if it.attr.mirror && !(r.dead (r.partner b)) && r.partner b ≠ r.myId then r.readTwin m it
        else (r.lineLost c b).giveData m it 0 true
      else r.beforeData m it none fun r =>
        r.chanCmd m c { m := m, idx := idx, write := false, pa := linePa line, tenant := it.attr.tenant,
                        purpose := some (.item m it true), charge := it.attr.tenant, tin := it.tin }

/-- An item whose Screen and directory conditions are met, at the home (R151). -/
def Run.serveHome (r : Run) (m : Fin 64) (it : Item) : Run :=
  if it.reads then r.homeRead m it
  else if it.writes then r.takeWrite m it .home false id
  else r.giveDone m it

/-! ## Remote homes without a near copy (R24, R158) -/

/-- The request of R158, or of R161 for a Private-remote region. -/
def farOp (it : Item) : BitVec 8 :=
  if it.attr.kind ≠ kindShared then Op.rdU
  else if it.owns then Op.fillO
  else if it.op = .memRdData || it.meta' = .s then Op.fillS
  else Op.rdU

/-- The home must list this House for what the item leaves in a host cache (R158). -/
def Item.listed (it : Item) : Bool := it.attr.kind = kindShared && it.keep ≠ .no

/-- The item's line is pending in a request that will satisfy it. -/
def Trk.gives (t : Trk) (l : Fin 16) (it : Item) : Bool :=
  t.pend.any (fun x => x.1 = l) && (!it.owns || it.attr.kind ≠ kindShared || t.grant = .asked) &&
    !(it.listed && t.rdu.getLsbD l)

/-- A request that the home answers with data, without a near copy. -/
def Run.farRead (r : Run) (m : Fin 64) (it : Item) : Run :=
  let b := paBlock it.pa
  let l := paLineNo it.pa
  match (r.room m).wbRead it with
  | .covered d p => if it.reads then (r.pulse m 0x08).giveData m it d p else r.giveDone m it
  | .drain s => r.waitDrain m it s
  | _ =>
    if !it.granted && (r.room m).heldOn b then r.addWaiter m it .held
    else match r.needTrk m b it.attr with
    | none => r.addWaiter m it .pool
    | some (r, i) =>
      let has : Bool := match (r.room m).trkOf b with
        | some t => t.gives l it
        | none => false
      let r := if has then r else r.askFill m i b it.attr (farOp it) [l] (farOp it ≠ Op.rdU) it.tin
      r.addWaiter m it (.fill i)

def Run.serveFar (r : Run) (m : Fin 64) (it : Item) : Run :=
  if it.op = .rsvLoad && it.attr.kind = kindShared then r.rsvFail m it
  else if it.op = .rsvStore && !(r.rsvStands m it) then r.rsvFail m it
  else if it.writes then r.takeWrite m it .fwd false id
  else if it.op = .memClnEvct || (it.op = .memInv && it.attr.kind ≠ kindShared) then r.giveDone m it
  else r.farRead m it

/-! ## Ownership of a Shared block homed elsewhere (R156) -/

/-- The House owns the block. Of a Private-remote region it owns every block. A live entry in Filling with a dirty line
counts as Dirty does (log entry 90, DEDUCED). -/
def Run.owned (r : Run) (m : Fin 64) (it : Item) : Bool :=
  let b := paBlock it.pa
  it.granted || it.attr.kind ≠ kindShared ||
    (match r.liveEnt m b with
      | some (_, e) => e.dirty ≠ 0 && e.state ≠ 6
      | none => false) ||
    ((r.room m).mud.any fun e => e.kind = .evict && lineBlk e.line = b) ||
    match (r.room m).trkOf b with
    | some t => t.grant = .held
    | none => false

/-- Fill requests of a near-cached block (R157, R161). -/
def Run.fillOp (r : Run) (m : Fin 64) (it : Item) : BitVec 8 :=
  if it.attr.kind ≠ kindShared then Op.fillP
  else if it.owns || r.owned m it then Op.fillO
  else Op.fillS

/-- The item's data must come with its grant. -/
def Item.needsLine (it : Item) : Bool := it.reads || (it.writes && !it.full)

/-- Lines to ask for: the missing line and the class's prefetch (R68); a line that the Mudroom or the write buffer holds
is not asked for (log entry 83, DEDUCED). -/
def Run.fetchLines (r : Run) (m : Fin 64) (it : Item) (valid : BitVec 16) : List (Fin 16) :=
  let l := paLineNo it.pa
  let pend : List (Fin 16) := match (r.room m).trkOf (paBlock it.pa) with
    | some t => t.pend.map fun x => x.1
    | none => []
  let k := (r.cls it.attr.cls).prefetch
  let y := r.room m
  let free (x : Fin 16) : Bool :=
    let line := blkLine (paBlock it.pa) x
    (y.mudOf line).isNone && !(y.wbuf.any fun e => e.line = line)
  l :: allLines.filter fun x =>
    decide (l.val < x.val ∧ x.val ≤ l.val + k) && !(valid.getLsbD x) && !(pend.contains x) && free x

/-- The item waits for ownership of a block whose entry is `e` (R156). -/
def Run.waitGrant (r : Run) (m : Fin 64) (it : Item) (e : TagEnt) (set way : Nat) : Run :=
  let b := paBlock it.pa
  let l := paLineNo it.pa
  match r.needTrk m b it.attr with
  | none => r.addWaiter m it .pool
  | some (r, i) =>
    let asked : Bool := match (r.room m).trkOf b with
      | some t => t.grant = .asked
      | none => false
    let r :=
      if asked then r
      else if e.valid.getLsbD l || !it.needsLine then
        r.askFill m i b it.attr Op.upgrade (if it.needsLine then [l] else []) false it.tin
      else
        let r := r.modTrk m i fun t => { t with place := some (set, way) }
        (r.modTag m set way fun e => { e with state := if e.state = 4 then 4 else 1 }).askFill m i b it.attr Op.fillO
          (r.fetchLines m it e.valid) false it.tin
    r.addWaiter m it (.grant i)

/-! ## Near copies (R64–R70) -/

def Run.nearDest (r : Run) (a : Attr) : Dest := if r.isThru a then .thru else .near

/-- The tag entry after a write to one of its lines has been accepted (R59, R70, R111). -/
def TagEnt.written (e : TagEnt) (l : Fin 16) (full thru : Bool) : TagEnt :=
  let e := if thru then e else { e with dirty := setBit16 e.dirty l }
  if full then { e with valid := setBit16 e.valid l } else e

/-- STATE by R59, for an entry that may have fills in flight. -/
def TagEnt.inFlight (e : TagEnt) (fills : Bool) : TagEnt :=
  if e.state = 4 then e else if fills then { e with state := 1 } else e.settle

def Room.fills (y : Room) (b : Block) : Bool :=
  match y.trkOf b with
  | some t => !t.pend.isEmpty && t.place.isSome
  | none => false

/-- The COPY entry of a poisoned near line, which is clean from then on (R121). -/
def Run.copyPoison (r : Run) (m : Fin 64) (b : Block) (set way : Nat) (l : Fin 16) (d : LineData) : Run :=
  let e := r.tag m set way
  let r := r.setTag m set way { e with dirty := clrBit16 e.dirty l }
  let a := { r.attrOf b with tenant := e.tenant, cls := e.cls }
  (r.mudAdd m (blkLine b l) a set way .copy .ready d fullMask true).1

/-- Poisoned lines take the Mudroom entries that have become free, while they are still dirty in their place. -/
def Run.copyWaitGo (r : Run) (m : Fin 64) : Run :=
  let ws := (r.room m).copyWait
  let r := r.modRoom m fun y => { y with copyWait := [] }
  r.forEach ws fun w r =>
    let e := r.tag m w.set w.way
    if !(r.live e && e.tag = blkTag w.blk && e.state ≠ 6 && e.dirty.getLsbD w.line) then r
    else if r.mudFree m = 0 then r.modRoom m fun y => { y with copyWait := y.copyWait ++ [w] }
    else r.copyPoison m w.blk w.set w.way w.line w.data

/-- A near line that cannot be read: poisoned in tag and metadata, and sent home at once as poison through a COPY
entry, or as soon as a Mudroom entry is free (R261, R263, R268). -/
def Run.nearPoison (r : Run) (m : Fin 64) (set way : Nat) (b : Block) (l : Fin 16) (d : LineData) : Run :=
  let e := r.tag m set way
  let r := match r.nearPlace m set way l with
    | some (c, idx) => r.poisonCell c idx (nearMeta e way l (r.cls e.cls).lcode true) e.tenant (linePa (blkLine b l))
    | none => r
  let r := r.setTag m set way { e with state := 4, dirty := setBit16 e.dirty l }
  if r.mudFree m = 0 then r.modRoom m fun y =>
    { y with copyWait := y.copyWait ++ [{ blk := b, set := set, way := way, line := l, data := d }] }
  else r.copyPoison m b set way l d

/-- A read hit on a near line. -/
def Run.nearReadHit (r : Run) (m : Fin 64) (it : Item) (set way : Nat) (e : TagEnt) (miss : Run → Run) : Run :=
  let l := paLineNo it.pa
  let b := paBlock it.pa
  match r.nearPlace m set way l with
  | some (c, idx) =>
    let r := (r.touch m set way).pulse m 0x02
    r.beforeData m it none fun r =>
      r.chanCmd m c { m := m, idx := idx, write := false, pa := linePa (paLine it.pa), tenant := e.tenant,
                      near := some (nearMeta e way l 0 false), purpose := some (.item m it false),
                      charge := it.attr.tenant, tin := it.tin }
  | none =>
    if e.dirty.getLsbD l && !it.attr.mirror then
      let r := r.chEvent (r.chanOf (r.nearCell m set way) l) Code.lineLost (some it.pa)
      (r.nearPoison m set way b l 0).giveData m it 0 true
    else miss (r.setTag m set way { e with valid := clrBit16 e.valid l })

/-- A line miss of an item that may proceed (R65, R70, R25). -/
def Run.lineMiss (r : Run) (m : Fin 64) (it : Item) (set way : Nat) : Run :=
  let l := paLineNo it.pa
  let b := paBlock it.pa
  let e := r.tag m set way
  let thru := r.isThru it.attr
  let fetch (r : Run) (ls : List (Fin 16)) : Option (Run × Nat) :=
    let op := r.fillOp m it
    (r.needTrk m b it.attr).map fun x =>
      let r := x.1.modTrk m x.2 fun t => { t with place := some (set, way) }
      ((r.modTag m set way fun e => e.inFlight true).askFill m x.2 b it.attr op ls false it.tin, x.2)
  if it.writes then
    if it.full then
      r.takeWrite m it (r.nearDest it.attr) false fun r =>
        (r.pulse m 0x04).modTag m set way fun e => (e.written l true thru).inFlight ((r.room m).fills b)
    else if ((r.room m).trkOf b).isNone && decide (256 ≤ (r.room m).trks.length) then r.addWaiter m it .pool
    else r.takeWrite m it (r.nearDest it.attr) true fun r =>
      match fetch (r.modTag m set way fun e => e.written l false thru) (r.fetchLines m it e.valid) with
      | some (r, _) => r.pulse m 0x04
      | none => r
  else match fetch r (r.fetchLines m it e.valid) with
    | some (r, i) => (r.pulse m 0x04).addWaiter m it (.fill i)
    | none => r.addWaiter m it .pool

/-- The new entry of a block (R66 step 1). -/
def Run.newEnt (r : Run) (it : Item) : TagEnt :=
  { tag := blkTag (paBlock it.pa), tenant := it.attr.tenant, state := 1, cls := it.attr.cls,
    epoch := (r.cls it.attr.cls).epoch }

/-- A way for the block: its old block leaves, dirty through the Mudroom (R66). The flag says Evicting. The dirty lines of
a stale entry that is overwritten here, before the sweep comes to it, are not counted in RM_STALE_DROP (log entry 91,
DESIGN CHOICE). -/
def Run.takeWay (r : Run) (m : Fin 64) (it : Item) (set way : Nat) : Run × Bool :=
  let ve := r.tag m set way
  if r.live ve && ve.dirty ≠ 0 then (r.evict m set way, true)
  else
    let r := if r.live ve then (r.rsvLeave m (r.entBlk m set ve)).wbForwardOnly m (r.entBlk m set ve) else r
    ((r.setTag m set way (r.newEnt it)).touch m set way, false)

/-- What a tracker whose victim is still Evicting notes of an accepted write (R66 step 3). -/
def Trk.took (t : Trk) (l : Fin 16) (full thru : Bool) : Trk :=
  { t with newDirty := if thru then t.newDirty else setBit16 t.newDirty l,
           newValid := if full then setBit16 t.newValid l else t.newValid }

/-- Install the block of an item that missed it, in a way whose old block can leave (R66, R70, R25, R156). -/
def Run.blockMissAt (r : Run) (m : Fin 64) (it : Item) (set way : Nat) : Run :=
  let l := paLineNo it.pa
  let b := paBlock it.pa
  let thru := r.isThru it.attr
  let own := r.owned m it
  let op := r.fillOp m it
  match r.needTrk m b it.attr with
  | none => r.addWaiter m it .pool
  | some (r0, i) =>
    let enter (r : Run) : Run × Bool :=
      let (r, ev) := r.takeWay m it set way
      (r.modTrk m i fun t => { t with place := some (set, way), evicting := ev }, ev)
    if it.owns && !own then
      let (r, _) := enter (r0.pulse m 0x05)
      let r := r.askFill m i b it.attr Op.fillO (r.fetchLines m it 0) false it.tin
      r.addWaiter m it (if it.reads then .fill i else .grant i)
    else if it.writes then
      r0.takeWrite m it (r.nearDest it.attr) true fun r =>
        let (r, ev) := enter (r.pulse m 0x05)
        let r := if it.full then r else r.askFill m i b it.attr op (r.fetchLines m it 0) false it.tin
        if ev then r.modTrk m i fun t => t.took l it.full thru
        else r.modTag m set way fun e => (e.written l it.full thru).inFlight (!it.full)
    else
      let (r, _) := enter (r0.pulse m 0x05)
      let r := r.askFill m i b it.attr op (r.fetchLines m it 0) false it.tin
      r.addWaiter m it (.fill i)

/-- The fills that the block's tracker has in flight go to their waiters alone: the entry they were for has become stale,
and takes no further part (R72; log entry 84, DEDUCED). -/
def Run.unplace (r : Run) (m : Fin 64) (b : Block) : Run :=
  match (r.room m).trkOf b with
  | some t => match t.place with
    | some (s, w) =>
      if t.evicting || r.live (r.tag m s w) then r
      else
        let r := r.when ((r.tag m s w).state = 1) fun r => r.modTag m s w TagEnt.settle
        r.modTrk m t.idx fun t => { t with place := none, noinst := t.noinst ||| lineMask (t.pend.map fun x => x.1) }
    | none => r
  | none => r

/-- The Mudroom is too full for the victim: the request waits on its block's tracker, and counts once (R67, R128). -/
def Run.waitMud (r : Run) (m : Fin 64) (it : Item) (need : Nat) : Run :=
  match r.needTrk m (paBlock it.pa) it.attr with
  | some (r, _) =>
    (r.when (!it.mudWaited) fun r => r.rmCount m 0x210 1).addWaiter m { it with mudWaited := true } (.mud need)
  | none => r.addWaiter m it .pool

/-- A block miss (R66, R67, R79, R80, R354); `forced` is the way of a mismatching entry (R64). A forced way that is
Filling or Evicting is waited for (log entry 92, DESIGN CHOICE). -/
def Run.blockMiss (r : Run) (m : Fin 64) (it : Item) (forced : Option Nat) : Run :=
  let b := paBlock it.pa
  let set := r.setOf b
  let go (r : Run) (w : Nat) : Run :=
    let ve := r.tag m set w
    if r.live ve && !(r.mudFits m ve) then r.waitMud m it (dirtyLines ve).length
    else (r.unplace m b).blockMissAt m it set w
  match forced with
  | some w => if (r.tag m set w).busy then r.addWaiter m it (.way set (1#16 <<< w)) else go r w
  | none => match r.victim m set it.attr with
    | .way w => go r w
    | .noWay => ((r.rmCount m 0x5C 1).rmEvent m Code.noWay (some it.pa)).serveFar m it
    | .quota => (r.rmCount m 0x70 1).serveFar m it
    | .busy mask => r.addWaiter m it (.way set mask)

/-- A live entry holds the block, and it is not Evicting. -/
def Run.nearPresent (r : Run) (m : Fin 64) (it : Item) (set way : Nat) (e : TagEnt) : Run :=
  let l := paLineNo it.pa
  let valid := e.valid.getLsbD l
  if it.owns && !(r.owned m it) && !(it.reads && !valid) then r.waitGrant m it e set way
  else if it.writes then
    if valid then
      let thru := r.isThru it.attr
      r.takeWrite m it (r.nearDest it.attr) false fun r =>
        ((r.touch m set way).pulse m 0x03).modTag m set way fun e =>
          (e.written l false thru).inFlight ((r.room m).fills (paBlock it.pa))
    else r.lineMiss m it set way
  else if it.op = .memInv then r.giveDone m it
  else if valid then r.nearReadHit m it set way e fun r => r.lineMiss m it set way
  else r.lineMiss m it set way

/-! ## The Mudroom answers (R63, R123–R125) -/

/-- A write merges into an EVICT entry. -/
def Run.mudMerge (r : Run) (m : Fin 64) (it : Item) (e : MudEnt) : Run :=
  r.recordThen m it none fun r =>
    let r := r.modMud m e.seq fun e =>
      { e with data := mergeLine e.data it.data it.mask, wmask := e.wmask ||| it.mask,
               poison := it.poison || (e.poison && !it.full), again := e.again || e.st = .writing,
               owners := e.owners ++ [it.src] }
    let r := (r.rmCount m 0x20C 1).pulse m 0x0B
    let r := if it.op = .rsvStore then r.rsvUnplace m it else r
    let r := r.rsvBreak m fun v => v.covers (paLine it.pa)
    let r := if it.op = .rsvStore then r.charge it.attr.tenant .wr 8 it.tin else r
    r.tellDone m it.src it.tin

/-- A Ready EVICT entry becomes Free, and its line is written to the near copy of the tag entry `t` that takes it. -/
def Run.rescueWrite (r : Run) (m : Fin 64) (set way : Nat) (t : TagEnt) (e : MudEnt) : Run :=
  let l := lineNo e.line
  let r := r.nearWrite m
    { set := set, way := way, line := l, blk := lineBlk e.line, data := e.data, tenant := t.tenant, tin := r.ftNs,
      md := nearMeta t way l (r.cls t.cls).lcode e.poison }
  (r.forEach e.owners fun s r => r.retire s).mudRelease m e

/-- Install one Ready EVICT entry of a block into its tag entry (R124 step 3). -/
def Run.rescueLine (r : Run) (m : Fin 64) (set way : Nat) (e : MudEnt) : Run :=
  let l := lineNo e.line
  let t := r.tag m set way
  let t := { t with valid := setBit16 t.valid l, dirty := setBit16 t.dirty l,
                    state := if e.poison then 4 else t.state }
  let t := t.inFlight ((r.room m).fills (lineBlk e.line))
  (r.setTag m set way t).rescueWrite m set way t e

/-- Install one into the entry that the block's tracker will write when its victim has left (R66 step 3, R124; log
entry 84, DEDUCED). -/
def Run.rescueComing (r : Run) (m : Fin 64) (t : Trk) (set way : Nat) (e : MudEnt) : Run :=
  let l := lineNo e.line
  let t' := { t with newValid := setBit16 t.newValid l, newDirty := setBit16 t.newDirty l,
                     newPoison := t.newPoison || e.poison }
  let ent : TagEnt := { tag := blkTag t.blk, dirty := t'.newDirty, tenant := t.attr.tenant, cls := t.attr.cls,
                        epoch := (r.cls t.attr.cls).epoch }
  (r.modTrk m t.idx fun _ => t').rescueWrite m set way ent e

/-- Allocate the block of a rescued line and install its Ready lines, unless no way can be had without an eviction. -/
def Run.rescueAlloc (r : Run) (m : Fin 64) (it : Item) : Run :=
  let b := paBlock it.pa
  let set := r.setOf b
  match r.victim m set it.attr with
  | .way w =>
    if r.live (r.tag m set w) && (r.tag m set w).dirty ≠ 0 then r
    else
      let (r, _) := r.takeWay m it set w
      let es := (r.room m).mud.filter fun x => x.kind = .evict && x.st = .ready && lineBlk x.line = b
      r.forEach es fun x r => r.rescueLine m set w x
  | _ => r

/-- A read finds a Ready EVICT entry (R124). The block's entry that is still Evicting takes no line back. -/
def Run.rescue (r : Run) (m : Fin 64) (it : Item) (e : MudEnt) : Run :=
  let b := paBlock it.pa
  let r := ((r.giveData m it e.data e.poison).rmCount m 0x208 1).pulse m 0x0A
  match (r.liveEnt m b).filter fun x => x.2.state ≠ 6 with
  | some (w, _) => r.rescueLine m (r.setOf b) w e
  | none => match (r.room m).trkOf b with
    | some t => match (if t.evicting then t.place else none) with
      | some (s, w) => r.rescueComing m t s w e
      | none => r.rescueAlloc m it
    | none => r.rescueAlloc m it

/-- The row of R64 that applies, from 1. -/
def Run.s4Row (r : Run) (m : Fin 64) (it : Item) : Nat :=
  let b := paBlock it.pa
  let l := paLineNo it.pa
  let y := r.room m
  let pending (t : Trk) : Bool := t.pend.any fun x => x.1 = l
  let inTrk (f : Trk → Bool) : Bool := (y.trkOf b).any f
  if (y.mudOf (paLine it.pa)).isSome then 1
  else if !it.granted && y.heldOn b then 3
  else if inTrk fun t => it.writes && pending t then 2
  else if inTrk fun t => pending t || t.evicting then 3
  else match r.liveEnt m b with
    | some (_, e) =>
      if e.state = 6 && (y.trkOf b).isSome then 3
      else if e.tenant = it.attr.tenant && e.cls = it.attr.cls then if e.valid.getLsbD l then 4 else 5
      else 6
    | none => 7

/-- A line whose block the House does not keep goes home: its entry forwards it. -/
def Run.wbHomeward (r : Run) (m : Fin 64) (line : BitVec 40) : Run :=
  let f (e : WbEnt) : WbEnt :=
    if e.line = line && e.st = .open' && !e.fwd then
      { e with fwd := true, needCel := false, needAck := true, thru := false } else e
  r.modRoom m fun y => { y with wbuf := y.wbuf.map f }

/-- The fill of the line will not be installed, or into an entry that is stale (R72, R158). -/
def Run.fillLeaves (r : Run) (m : Fin 64) (t : Trk) (l : Fin 16) : Bool :=
  t.noinst.getLsbD l || match t.place with
    | some (s, w) => !t.evicting && !(r.live (r.tag m s w))
    | none => true

/-- A write to a line that is pending in the block's tracker (R64 row 2): accepted at once, or held until the House owns
the block (R156). When the fill leaves no near copy, the write goes on to the home. -/
def Run.pendingWrite (r : Run) (m : Fin 64) (it : Item) (t : Trk) : Run :=
  let b := paBlock it.pa
  let l := paLineNo it.pa
  let thru := r.isThru it.attr
  if r.owned m it then
    r.takeWrite m it (r.nearDest it.attr) true fun r =>
      if r.fillLeaves m t l then r.wbHomeward m (paLine it.pa)
      else if t.evicting then r.modTrk m t.idx fun t => t.took l it.full thru
      else match t.place with
        | some (s, w) => r.modTag m s w fun e => (e.written l it.full thru).inFlight true
        | none => r
  else
    let r := if t.grant = .asked then r
      else if !it.needsLine && !t.evicting && (r.liveEnt m b).isSome then r.askFill m t.idx b it.attr Op.upgrade [] false it.tin
      else r.askFill m t.idx b it.attr Op.fillO [l] false it.tin
    r.addWaiter m it (.grant t.idx)

/-- An item whose line is neither pending nor in the Mudroom meets the live entry of its block (R64, rows 3 to 7). -/
def Run.serveEnt (r : Run) (m : Fin 64) (it : Item) : Run :=
  let set := r.setOf (paBlock it.pa)
  match r.liveEnt m (paBlock it.pa) with
  | some (w, e) =>
    if e.state = 6 then r.addWaiter m it (.evict set w)
    else if e.tenant = it.attr.tenant && e.cls = it.attr.cls then r.nearPresent m it set w e
    else ((r.rmCount m 0x50 1).rmEvent m Code.tagMismatch (some it.pa)).blockMiss m it (some w)
  | none => r.blockMiss m it none

/-- A hit on a valid line updates the replacement word (R78). -/
def Run.touchHit (r : Run) (m : Fin 64) (b : Block) (l : Fin 16) : Run :=
  match r.liveEnt m b with
  | some (w, e) => r.when (e.state ≠ 6 && e.valid.getLsbD l) fun r => r.touch m (r.setOf b) w
  | none => r

/-- Serve an item by the outcome table of R64. -/
def Run.serveNear (r : Run) (m : Fin 64) (it : Item) : Run :=
  let r := r.see m.val (r.s4Row m it)
  let b := paBlock it.pa
  let l := paLineNo it.pa
  let set := r.setOf b
  let y := r.room m
  if it.op = .memClnEvct then r.giveDone m it
  else if it.op = .rsvStore && !(r.rsvStands m it) then r.rsvFail m it
  else if it.op = .memInv && it.attr.kind ≠ kindShared then r.giveDone m it
  else match y.mudOf (paLine it.pa) with
  | some e =>
    if it.writes then r.mudMerge m it e
    else if it.op = .memInv then r.giveDone m it
    else match e.st with
      | .ready => r.rescue m it e
      | .writing => r.giveData m it e.data e.poison
      | .loading => r.addWaiter m it (.evict e.set e.way)
  | none =>
    if !it.granted && y.heldOn b then r.addWaiter m it .held
    else match (if it.reads then y.wbRead it else .none) with
    | .covered d p => if r.owned m it || !it.owns then ((r.touchHit m b l).pulse m 0x08).giveData m it d p else
        match r.liveEnt m b with
        | some (w, e) => r.waitGrant m it e set w
        | none => r.blockMiss m it none
    | .drain s => r.waitDrain m it s
    | _ =>
      match y.trkOf b with
      | some t =>
        let pending := t.pend.any fun x => x.1 = l
        if it.writes && pending then r.pendingWrite m it t
        else if t.evicting then
          match t.place with
          | some (s, w) => r.addWaiter m it (.evict s w)
          | none => r
        else if pending then
          if it.owns && !(r.owned m it) && t.grant ≠ .asked then
            (r.askFill m t.idx b it.attr Op.fillO [l] false it.tin).addWaiter m it (.fill t.idx)
          else r.addWaiter m it (.fill t.idx)
        else r.serveEnt m it
      | none => r.serveEnt m it

/-- The Room looks up its tags for the item (R64): the covering Room holds no near entries of an adopted block (R274). -/
def Run.looksUp (r : Run) (m : Fin 64) (it : Item) : Bool :=
  let b := paBlock it.pa
  !(r.actsHome b it.attr.mirror) && r.nearable b it.attr && (r.cls it.attr.cls).nearEn && !(r.adopted m b it.attr)

/-- A remote-homed block is served by its near copy, or without one (R24, R64, R158, R274). -/
def Run.serveRemote (r : Run) (m : Fin 64) (it : Item) : Run :=
  if r.looksUp m it then r.serveNear m it else r.serveFar m it

/-- Serve an item whose order, Screen and directory conditions are met. -/
def Run.serve (r : Run) (m : Fin 64) (it : Item) : Run :=
  if r.actsHome (paBlock it.pa) it.attr.mirror then
    if it.op = .rsvStore && !(r.rsvStands m it) then r.rsvFail m it else r.serveHome m it
  else r.serveRemote m it

end Sys2Proof.Machine
end

