-- ==== Sys2Proof/Machine/Sharing.lean ====
section
/-! DEFINITION. Transactions of a Room: snoops before service, home transactions, fabric requests at the home, the
answer to INV and RECALL, and what follows when a tracker has all it waits for (R139–R160, R169–R171). -/
namespace Sys2Proof.Machine
open Sys2Proof

/-! ## Snoops before service -/

/-- The item waits on a coherence tracker of its own, or on the pool (R148). -/
def Run.ownCoh (r : Run) (m : Fin 64) (it : Item) (c : Coh) (f : Run → Nat → Run) : Run :=
  match r.newCoh m c false with
  | some (r, i) => (f r i).addWaiter m it (.own i)
  | none => r.addWaiter m it .cohPool

/-- Granules of a reservation granule (R200). -/
def rsvGrans (pa : PoolAddr) (g : Nat) : List (BitVec 38) :=
  let n := 2 ^ (g + 8) / 1024
  let base := pa.toNat / 2 ^ (g + 8) * 2 ^ (g + 8)
  if n ≤ 1 then [paGran pa] else (List.range n).map fun i => BitVec.ofNat 38 (base / 1024 + i)

/-- Screen entries of some granules. -/
def Run.scnEnts (r : Run) (m : Fin 64) (gs : List (BitVec 38)) : List ScnEnt :=
  gs.filterMap fun g => (r.scnFind m g).map (·.2)

/-- The lines that a fabric request asks for, the line of ADDR first (R68). -/
def fabLines (f : FMsg) : List (Fin 16) :=
  let l := lineNo f.addr
  if f.op = Op.wrU || f.op = Op.wb || f.op = Op.mirrorWr then [l]
  else if f.mask = 0 then [] else
    (if f.mask.getLsbD l then [l] else []) ++ allLines.filter fun (x : Fin 16) => f.mask.getLsbD x.val && x ≠ l

/-- A request on the Screen: none when it needs no snoop, else the tracker's granule, its entries to free, and the
snoops to send once the tracker has its number (R139, R140, R200). -/
def Run.screenPlan (r : Run) (m : Fin 64) (it : Item) :
    Option (Option (BitVec 2) × List (BitVec 38) × (Run → Nat → Run)) :=
  match it.src with
  | .fab f =>
    let b := paBlock it.pa
    if f.op = Op.fillO || f.op = Op.upgrade || f.op = Op.wrU then
      let es := r.scnEnts m (blkGrans b)
      if es.isEmpty then none
      else some (none, es.map (·.gran), fun r i => r.forEach es fun e r => r.biEntry m i e .inv)
    else
      let kind : Snp := if f.op = Op.fillS then .data else .cur
      let ls := (fabLines f).filter fun l => match r.scnFind m (lineGran (blkLine b l)) with
        | some (_, e) => e.excl
        | none => false
      if ls.isEmpty then none
      else some (none, [], fun r i => r.forEach ls fun l r => match r.scnFind m (lineGran (blkLine b l)) with
        | some (_, e) => r.biSendAll m i (r.presLinks e.pres) (linePa (blkLine b l)) 4 kind e.excl
        | none => r)
  | .land _ _ =>
    match r.scnFind m (paGran it.pa) with
    | some (_, e) => some (some ((paGran it.pa).extractLsb' 0 2), [], fun r i =>
        r.biSendAll m i (r.presLinks e.pres) it.pa 4 .inv e.excl)
    | none => none
  | _ =>
    if it.op = .rsvLoad then
      let gs := rsvGrans it.pa (r.cls it.attr.cls).rgran
      let es := r.scnEnts m gs
      if es.isEmpty then none
      else some (none, es.map (·.gran), fun r i => r.forEach es fun e r => r.biEntry m i e .inv)
    else match r.hostSnoops m it with
      | some (kind, ls, excl) => some (some ((paGran it.pa).extractLsb' 0 2), [], fun r i =>
          r.biSendAll m i ls (BitVec.ofNat 48 (it.pa.toNat / 64 * 64)) 1 kind excl)
      | none => none

/-- Links whose segments map a granule, but the requesting one (R170). -/
def Run.castLinks (r : Run) (it : Item) (g : BitVec 38) : List (Fin 8 × Fin 2) :=
  (r.linksOf (granPa g)).filter fun x => some x ≠ ownLink it.src

/-- The granules that a request reaches: of a fabric request those of its lines, or of its whole block (R140). -/
def Item.grans (it : Item) : List (BitVec 38) :=
  match it.src with
  | .fab f =>
    if f.op = Op.fillO || f.op = Op.upgrade || f.op = Op.wrU then blkGrans (paBlock it.pa)
    else ((fabLines f).map fun l => lineGran (blkLine (paBlock it.pa) l)).dedup
  | _ => [paGran it.pa]

/-- Adopted granules without an entry that the request must have broadcast first (R170). -/
def Run.castGrans (r : Run) (m : Fin 64) (it : Item) : List (BitVec 38) :=
  if it.bcast || !(r.adopted m (paBlock it.pa) it.attr) then []
  else it.grans.filter fun g => (r.scnFind m g).isNone

/-- The broadcast: whole-granule snoops to every link that maps a granule (R170). -/
def Run.cast (r : Run) (m : Fin 64) (it : Item) (gs : List (BitVec 38)) : Run :=
  let gran : Option (BitVec 2) := if it.src.isFab then none else some ((paGran it.pa).extractLsb' 0 2)
  r.ownCoh m it { idx := 0, blk := paBlock it.pa, gran := gran, job := .bcast } fun r i =>
    r.forEach gs fun g r => r.biSendAll m i (r.castLinks it g) (granPa g) 16 .inv true

/-! ## Home transactions (R151, R171) -/

/-- The event of R151 that an item is at the home; none for one that touches no directory entry. -/
def homeEv (it : Item) : Option HomeEv :=
  match it.src with
  | .fab f =>
    if f.op = Op.fillS then some (.fillS f.src)
    else if f.op = Op.fillO then some (.fillO f.src)
    else if f.op = Op.upgrade then some (.upgrade f.src)
    else if f.op = Op.rdU then some (.rdU f.src)
    else if f.op = Op.wrU then some (.wrU f.src)
    else none
  | _ =>
    if it.op = .memClnEvct then none
    else if it.owns then some .own
    else some .read

/-- Houses of the pool that are live, but this one and the asker (R171). -/
def Run.liveHouses (r : Run) (but : Option (BitVec 6)) : List (BitVec 6) :=
  ((List.range 64).map (BitVec.ofNat 6)).filter fun e => (r.peer e).live && e ≠ r.myId && some e ≠ but

/-- A home transaction takes a tracker for the whole block: it waits while one holds the block or a granule of it
(R147). -/
def Run.homeCoh (r : Run) (m : Fin 64) (it : Item) (job : CohJob) (f : Run → Nat → Run) : Run :=
  match r.cohHolds m (paBlock it.pa) none with
  | some c => r.addWaiter m it (.coh c.idx)
  | none => r.ownCoh m it { idx := 0, blk := paBlock it.pa, job := job } f

/-- The directory condition of an item that is not met yet (R151, R171); none when it may be served at once, in
which case the entry takes its new state. -/
def Run.homeStart (r : Run) (m : Fin 64) (it : Item) (ev : HomeEv) (serve : Run → DirEnt → Run) : Run :=
  let b := paBlock it.pa
  let adopted := r.adopted m b it.attr
  let r := r.purgeFirst m b
  match r.dirFind m b with
  | none =>
    if adopted then
      let es := r.liveHouses ev.asker
      r.homeCoh m it (.unknown b ev.mild) fun r i => (r.rmCount m 0x358 1).snoopAll m i b ev.mild es false
    else
      let (s, st) := ev.after {} 0
      match r.dirSettle m b false s st with
      | .ok r => serve r {}
      | .wait r why => r.addWaiter m it why
  | some (_, e) =>
    let (ts, rcl) := ev.targets e
    if ts.isEmpty then
      let (s, st) := ev.after e 0
      match r.dirSettle m b adopted s st with
      | .ok r => serve r e
      | .wait r why => r.addWaiter m it why
    else
      r.homeCoh m it (.home b rcl false) fun r i => r.snoopAll m i b rcl ts (e.state = 3)

/-- The transaction of an item has ended: the entry takes its new state and the item is served. -/
def Run.homeEnd (r : Run) (m : Fin 64) (it : Item) (held : BitVec 64) (serve : Run → DirEnt → Run) : Run :=
  let b := paBlock it.pa
  match homeEv it with
  | none => serve r {}
  | some ev =>
    let e := ((r.dirFind m b).map (·.2)).getD {}
    let (s, st) := ev.after e held
    match r.dirSettle m b (r.adopted m b it.attr) s st with
    | .ok r => serve r e
    | .wait r why => r.addWaiter m it why

/-! ## Fabric requests at the home (R44, R151, R153, R154, R167) -/

def isFill (op : BitVec 8) : Bool := op = Op.fillP || op = Op.fillS || op = Op.fillO || op = Op.rdU

/-- GRANT of the DATA that answers a fill (R161). -/
def fillGrant (op : BitVec 8) : BitVec 2 :=
  if op = Op.fillP then grantP else if op = Op.fillS then grantS
  else if op = Op.fillO || op = Op.upgrade then grantO else grantU

/-- The item of one line of a fabric request. KIND, MIRROR and TENANT are those that the message carries and the home's
entry agrees with; the class is the home's own, as the message has none (R43, R44). -/
def fabItem (f : FMsg) (a : Attr) (l : Fin 16) (stamp : Stamp) : Item :=
  let wr := f.op = Op.wrU || f.op = Op.wb || f.op = Op.mirrorWr
  { src := .fab f, op := if wr then .memWrPtl else .memRd, meta' := if wr then .i else .s,
    pa := linePa (blkLine (lineBlk f.addr) l), attr := { a with tenant := f.tenant },
    data := if wr then f.line else 0, mask := if wr then f.bmask else 0, poison := wr && f.poison, tin := stamp }

/-- Answer a fabric request with poison, or refuse its write (R44, R153, R167, R294): an UPGRADE that names no line gets
poison for the line of ADDR (log entry 93, DEDUCED). The Door that compares the region answers, or Room m. -/
def Run.refuseFab (r : Run) (f : FMsg) (stamp : Stamp) (m : Option (Fin 64) := none) : Run :=
  let send (r : Run) (g : FMsg) : Run := match m with
    | some m => r.hallMsg (roomCal m) g stamp
    | none => r.sendMsg g stamp
  let r := r.modFab fun x => { x with kept := x.kept.eraseP fun e => e.1 = f }
  if f.op = Op.wrU || f.op = Op.wb || f.op = Op.mirrorWr then
    send r { r.mkReply f Op.wrAck with grant := 1 }
  else r.forEach (if f.mask = 0 then [lineNo f.addr] else fabLines f) fun l r =>
    send r { r.mkReply f Op.data with addr := blkLine (lineBlk f.addr) l, grant := fillGrant f.op, poison := true }

/-- Serve a fabric request whose conditions are met; `e` is the directory entry as it was before (R151). -/
def Run.serveFab (r : Run) (m : Fin 64) (f : FMsg) (a : Attr) (stamp : Stamp) (e : DirEnt) (grant : BitVec 2) : Run :=
  let b := lineBlk f.addr
  let read (r : Run) (ls : List (Fin 16)) : Run :=
    let x : FabOut := { f := f, grant := grant, tin := stamp, lines := ls.map fun l => (l, none) }
    if ls.isEmpty then r.retire (.fab f)
    else (r.modRoom m fun y => { y with fabOut := y.fabOut ++ [x] }).forEach ls fun l r =>
      r.homeRead m { fabItem f a l stamp with granted := true }
  let leave (r : Run) : Run := if f.op = Op.fillO || f.op = Op.upgrade then r.rsvLeave m b else r
  if f.op = Op.upgrade then
    let r := leave r
    if e.sharers.getLsbD f.src.toNat || f.mask = 0 then
      r.hallMsg (roomCal m) (r.mkReply f Op.ackO) stamp 0x58 (some (.fab f))
    else read r (fabLines f)
  else if isFill f.op then read (leave r) (fabLines f)
  else r.takeWrite m (fabItem f a (lineNo f.addr) stamp) .home false id

/-- A WB for a Shared block from a House that its entry does not list (R153). -/
def Run.wbBad (r : Run) (m : Fin 64) (f : FMsg) (stamp : Stamp) : Run :=
  let r := r.poisonHome m f.addr
  let r := r.report { code := Code.protocolErr, src := m.val / 16, sub := m.val % 16, addr := some (linePa f.addr),
                      mKind := 3, mId := f.src.toNat }
  r.refuseFab f stamp (some m)

/-- R153: the home accepts the WB. One for an adopted block whose entry does not list the sender is refused, as for a
block that is not adopted (log entry 94, DESIGN CHOICE). -/
def Run.wbAllowed (r : Run) (m : Fin 64) (b : Block) (a : Attr) (q : BitVec 6) : Bool :=
  a.kind ≠ kindShared || match r.dirFind m b with
    | some (_, e) => e.sharers.getLsbD q.toNat
    | none => r.adopted m b a

/-- A home transaction of the block has asked the House and has no answer yet (R154). -/
def Run.crossing (r : Run) (m : Fin 64) (b : Block) (q : BitVec 6) : Bool :=
  (r.room m).cohs.any fun c => c.blk = b && c.invs.any fun i => i.house = q

/-! ## The answer to INV and RECALL (R159) -/

/-- Begin: host snoops for the block's Screen entries. -/
def Run.answerStart (r : Run) (m : Fin 64) (f : FMsg) : Option Run :=
  let b := lineBlk f.addr
  let inv := f.op = Op.inv
  (r.newCoh m { idx := 0, blk := b, job := .answer f, frees := if inv then blkGrans b else [] } true).map fun x =>
    let (r, i) := x
    let r := r.forEach (r.scnEnts m (blkGrans b)) fun e r => r.biEntry m i e (if inv then .inv else .data)
    r.pulse m 0x0F

/-- Buffers of the block that the answer still waits for (R159 step 3). -/
def Run.answerBusy (r : Run) (m : Fin 64) (b : Block) : Bool :=
  let y := r.room m
  (y.wbuf.any fun e => lineBlk e.line = b) ||
    (y.mud.any fun e => lineBlk e.line = b && e.st ≠ .ready) ||
    (y.outC.any fun o => match o with
      | .near w => !w.release && w.blk = b
      | .cmd _ _ => false) ||
    (List.range 16).any fun w => let e := r.tag m (r.setOf b) w; r.live e && e.tag = blkTag b && e.state = 6

/-- Step 3: every write buffer entry of the block drains at once; a write-through entry to the near copy alone. An
Open entry that would only be forwarded goes into the answer with its byte mask (log entry 40, DEDUCED). -/
def Run.answerDrain (r : Run) (m : Fin 64) (idx : Nat) (b : Block) : Run :=
  let mine := (r.room m).wbuf.filter fun e => lineBlk e.line = b && e.st = .open' && e.fwd
  let r := r.forEach mine fun e r =>
    let r := r.wbFree m fun x => x.seq = e.seq
    let r := r.modCoh m idx fun c =>
      { c with lines := c.lines ++ [(lineNo e.line, e.data, e.poison)],
               parts := if e.mask = fullMask then c.parts else c.parts ++ [(lineNo e.line, e.mask)] }
    let r := r.forEach e.srcs fun s r => r.tellDone m s e.tin
    r.forEach e.owners fun s r => r.retire s
  let f (e : WbEnt) : WbEnt :=
    if lineBlk e.line = b && e.st = .open' then
      { e with force := true, take := if e.needAck then some idx else none, needAck := false } else e
  r.modRoom m fun y => { y with wbuf := y.wbuf.map f }

/-- The dirty lines of the block that the answer reads from its near copy. -/
def Run.answerRead (r : Run) (m : Fin 64) (idx : Nat) (b : Block) (tenant : BitVec 12) : Run :=
  match r.snoopEnt m b tenant with
  | some (w, e) =>
    let set := r.setOf b
    let done : List (Fin 16) := match (r.room m).cohs.find? fun c => c.idx = idx with
      | some c => c.lines.map fun x => x.1
      | none => []
    r.forEach ((dirtyLines e).filter fun l => !(done.contains l)) fun l r =>
      match r.nearPlace m set w l with
      | some (c, i) =>
        let r := r.modCoh m idx fun x => { x with reads := x.reads ++ [l] }
        r.chanCmd m c { m := m, idx := i, write := false, pa := linePa (blkLine b l), tenant := e.tenant,
                        near := some (nearMeta e w l 0 false), purpose := some (.answer m idx l), charge := e.tenant,
                        tin := r.ftNs }
      | none => (r.slotLost m set w l b).modCoh m idx fun x => { x with lines := x.lines ++ [(l, 0, true)] }
  | none => r

/-- Step 4: the lines go out, and the near copy and the tags take their new state. -/
def Run.answerEnd (r : Run) (m : Fin 64) (c : Coh) (f : FMsg) : Run :=
  let b := c.blk
  let inv := f.op = Op.inv
  let set := r.setOf b
  let muds := (r.room m).mud.filter fun e => e.kind = .evict && lineBlk e.line = b
  let copies := ((r.room m).mud.filter fun e => e.kind = .copy && lineBlk e.line = b).map fun e =>
    (lineNo e.line, e.data, e.poison)
  let near := c.lines ++ copies.filter fun x => !(c.lines.any fun y => y.1 = x.1)
  let lines := near ++ muds.map fun e => (lineNo e.line, e.data, e.poison)
  let r := r.forEach c.frees fun g r => r.scnFree m g
  let r := if inv then r else r.forEach (blkGrans b) fun g r => match r.scnFind m g with
    | some (w, e) => r.scnPut m (r.scnSetOf g) w { e with excl := false }
    | none => r
  let r := match r.snoopEnt m b f.tenant with
    | some (w, e) =>
      if inv then
        let r := (r.rsvLeave m b).setTag m set w {}
        r.forEach (dirtyLines e) fun l r => r.release m set w l
      else
        let e' : TagEnt := { e with dirty := 0, state := if e.state = 4 then 4 else 2 }
        let r := r.setTag m set w e'
        r.forEach near fun x r => r.nearWrite m
          { set := set, way := w, line := x.1, blk := b, data := x.2.1, tenant := e.tenant, tin := r.ftNs,
            md := nearMeta e' w x.1 (r.cls e.cls).lcode x.2.2 }
    | none => if inv then r.rsvLeave m b else r
  let r := r.forEach muds fun e r =>
    let r := r.forEach e.owners fun s r => r.retire s
    r.mudRelease m e
  let r := r.mudDrop m fun e => e.kind = .copy && lineBlk e.line = b
  let held := !inv && ((r.snoopEnt m b f.tenant).isSome || !(r.scnEnts m (blkGrans b)).isEmpty)
  let clear (w : Waiter) : Waiter :=
    if inv && paBlock w.item.pa = b then { w with item := { w.item with granted := false } } else w
  let r := r.modRoom m fun y => { y with waiters := y.waiters.map clear }
  let r := r.dropCoh m c.idx
  let last := lines.length
  if last = 0 then
    r.hallMsg (roomCal m) { r.mkReply f (if inv then Op.invAck else Op.recallAck) with held := held } r.ftNs
  else r.forEach lines.zipIdx fun x r =>
    r.hallMsg (roomCal m) { r.mkReply f (if inv then Op.invData else Op.recallData) with
                  addr := blkLine b x.1.1, line := x.1.2.1, poison := x.1.2.2, held := held,
                  bmask := ((c.parts.find? fun y => y.1 = x.1.1).map (·.2)).getD fullMask,
                  last := decide (x.2 + 1 = last) } r.ftNs

/-- One tracker of an answer takes the next step that it can. -/
def Run.answerStep (r : Run) (m : Fin 64) (idx : Nat) : Run :=
  match (r.room m).cohs.find? fun c => c.idx = idx with
  | some c =>
    match c.job with
    | .answer f =>
      if !c.snps.isEmpty || !c.reads.isEmpty then r
      else
        let r := r.answerDrain m idx c.blk
        if r.answerBusy m c.blk then r
        else if c.gathered then r.answerEnd m c f
        else
          let r := (r.modCoh m idx fun c => { c with gathered := true }).answerRead m idx c.blk f.tenant
          match (r.room m).cohs.find? fun c => c.idx = idx with
          | some c => if c.reads.isEmpty then r.answerEnd m c f else r
          | none => r
    | _ => r
  | none => r

/-! ## Trackers end -/

/-- Trackers that serve no waiting item do their job when they have their answers (R144, R152, R159). -/
def Run.cohEnd (r : Run) (m : Fin 64) (c : Coh) : Run :=
  match c.job with
  | .freeScn set way => if c.ready then (r.scnPut m set way {}).dropCoh m c.idx else r
  | .home b _ true =>
    if c.ready then
      let r := match r.dirFind m b with
        | some (w, _) => r.dirPut m (dirSet b) w {}
        | none => r
      r.dropCoh m c.idx
    else r
  | .answer _ => r.answerStep m c.idx
  | _ => r

/-- Begin the parity sweep of a Screen entry, when a tracker is free and none holds the entry, its granule or a candidate:
every granule that one flipped bit could hide is snooped on every link that maps it (R145). -/
def Run.scnSweepGo (r : Run) (m : Fin 64) (x : ScnBad) : Run :=
  let cands := (x.gran :: (List.range 38).map fun i => x.gran ^^^ (1#38 <<< i)).filter fun g =>
    r.roomOf (granBlk g) = m && r.scnSetOf g = x.set
  let job : Coh :=
    { idx := 0, blk := granBlk x.gran, gran := some (x.gran.extractLsb' 0 2), job := .freeScn x.set x.way,
      scnSet := some x.set, parked := cands, excl := x.excl }
  if ((r.room m).scnFreer x.set x.way).isSome || (x.gran :: cands).any fun g => (r.cohHolds m (granBlk g) (some g)).isSome then r
  else match r.newCoh m job false with
    | some (r, i) => (r.modRoom m fun y => { y with scnBad := y.scnBad.filter fun z => z ≠ x }).cohUnpark m i
    | none => r

/-- Room m takes an INV or RECALL: it is held while the block has fills in flight (R71, R159), and waits while
another tracker holds the block, or its tag or Screen set is under repair. The flag says that it was taken. -/
def Run.takeSnoop (r : Run) (m : Fin 64) (f : FMsg) : Run × Bool :=
  let b := lineBlk f.addr
  let y := r.room m
  let r := r.when (f.op = Op.inv) fun r => r.rsvLeave m b
  if y.filling b then
    match y.trkOf b with
    | some t => (r.modTrk m t.idx fun t => { t with held := t.held ++ [f] }, true)
    | none => (r, false)
  else if (y.rebuilds.any fun x => x.set = r.setOf b) || (r.cohWhy m b none (blkGrans b)).isSome then (r, false)
  else match r.answerStart m f with
    | some r => (r, true)
    | none => (r, false)

/-- Snoops that a miss tracker has let go begin, in order; those that cannot yet go on waiting. -/
def Run.snoopsGo (r : Run) (m : Fin 64) : Run :=
  let fs := (r.room m).snoopQ
  let r := r.modRoom m fun y => { y with snoopQ := [] }
  r.forEach fs fun f r =>
    let (r, ok) := r.takeSnoop m f
    if ok then r else r.modRoom m fun y => { y with snoopQ := y.snoopQ ++ [f] }

/-- The tracker waits for nothing more. -/
def Trk.idle (t : Trk) : Bool :=
  t.pend.isEmpty && !t.evicting && t.grant ≠ .asked && t.upg = 0 && t.twins.isEmpty && t.held.isEmpty

/-- A request of the block waits for Mudroom entries on its tracker (R67). -/
def Room.mudWaits (y : Room) (b : Block) : Bool := y.waiters.any fun w => match w.why with
  | .mud _ => paBlock w.item.pa = b
  | _ => false

/-- Trackers that nothing needs become free. -/
def Run.trkSweep (r : Run) (m : Fin 64) : Run :=
  r.modRoom m fun y => { y with trks := y.trks.filter fun t => !t.idle || y.mudWaits t.blk }

/-- Every tracker of the Room that can go on does. -/
def Run.cohPoll (r : Run) (m : Fin 64) : Run :=
  let r := r.snoopsGo m
  let r := r.forEach (r.room m).scnBad fun x r => r.scnSweepGo m x
  let r := r.forEach (r.room m).cohs fun c r => (r.cohUnpark m c.idx)
  (r.forEach (r.room m).cohs fun c r => r.cohEnd m c).trkSweep m

/-- A tracker whose last fill has come settles its tag entry and lets go what it holds (R59, R71); it is free when it
waits for nothing more. -/
def Run.trkSettle (r : Run) (m : Fin 64) (idx : Nat) : Run :=
  match (r.room m).trks.find? fun t => t.idx = idx with
  | some t =>
    if !t.pend.isEmpty || t.evicting then r
    else
      let r := match t.place with
        | some (s, w) =>
          let e := r.tag m s w
          if e.state = 1 && e.tag = blkTag t.blk then r.setTag m s w e.settle else r
        | none => r
      let r := r.modTrk m idx fun t => { t with held := [], place := none }
      (r.modRoom m fun y => { y with snoopQ := y.snoopQ ++ t.held }).cohPoll m
  | none => r

end Sys2Proof.Machine
end

