-- ==== Sys2Proof/Machine/RoomCmds.lean ====
section
/-! DEFINITION. The commands of a Room: entry and re-entry, Mudroom returns, drains and home writes, the hosts'
answers to back-invalidates, and timeouts (R61, R66, R77, R93, R107, R127, R142–R146, R155, R203). -/
namespace Sys2Proof.Machine
open Sys2Proof

/-! ## Upsets that a lookup meets (R92, R93, R95, R145, R150) -/

/-- Corrections in the tag way banks of Room m: each counts, and is reported under its way (R85, R92). -/
def Run.tagCes (r : Run) (m : Fin 64) (ws : List (Fin 16)) : Run :=
  r.forEach ws.dedup fun w r =>
    ((r.rmCount m 0x40 1).rmCount m (0x80 + 4 * w.val) 1).rmEvent m Code.wayCe none w.val

/-- Set and way of an uncorrectable tag entry are recorded and its rebuild begins (R93). One that is Evicting is already
leaving its set, and no second rebuild begins (log entry 95, DEDUCED). -/
def Run.tagLost (r : Run) (m : Fin 64) (set way : Nat) : Run :=
  let r := ((r.rmCount m 0x44 1).setReg (rmBase m + 0x48) set).setReg (rmBase m + 0x4C) way
  let r := r.rmEvent m Code.tagUe
  if (r.tag m set way).state = 6 then r
  else (r.modTag m set way fun e => { e with state := 6 }).modRoom m fun y =>
    { y with rebuilds := y.rebuilds ++ [{ set := set, way := way }] }

/-- What S3 finds in a tag set. -/
def Run.tagUpsets (r : Run) (m : Fin 64) (set : Nat) (u : Upset) : Run :=
  let r := r.tagCes m u.tagCe
  let r := r.forEach u.tagUe.dedup fun w r => r.tagLost m set w.val
  let r := r.when u.plru fun r => (r.st (.plru (plruKey m set) 0)).rmEvent m Code.plruParity
  r.forEach (List.range 16) fun w r => r.tagStateSeen m set w

/-- S3 reads a Screen entry as the word `w`: bad parity begins the sweep of R145, once for an entry. -/
def Run.scnSeen (r : Run) (m : Fin 64) (set way : Nat) (w : BitVec 48) : Run :=
  let y := r.room m
  let known : Bool := (y.scnBad.any fun x => x.set = set && x.way = way) ||
    y.cohs.any fun c => c.scnSet = some set && c.job = .freeScn set way
  if !(scnParityBad w) || known then r
  else
    let e := ScnEnt.ofWord w
    ((r.rmCount m 0x308 1).rmEvent m Code.scnParity).modRoom m fun y =>
      { y with scnBad := y.scnBad ++ [{ set := set, way := way, gran := e.gran, excl := e.excl }] }

/-- What S3 finds in a Screen set. -/
def Run.scnUpsets (r : Run) (m : Fin 64) (set : Nat) (u : Upset) : Run :=
  r.forEach u.scn fun x r => r.scnSeen m set x.1.val ((r.scn m set x.1.val).word ^^^ (1#48 <<< x.2.val))

/-- What S3 finds in a directory set: one flipped bit of an entry is corrected, more are not (R150). -/
def Run.dirUpsets (r : Run) (m : Fin 64) (u : Upset) : Run :=
  let flips := u.dir.map fun x => x.2.dedup.length
  let r := r.rmCount m 0x350 (flips.countP fun n => n = 1)
  r.when (flips.any fun n => decide (2 ≤ n)) fun r => r.rmEvent m Code.dirUe (path := [unitRoom m])

/-- What S3 finds wrong in the arrays that the item's lookup reads. -/
def Run.upsets (r : Run) (m : Fin 64) (it : Item) (u : Upset) : Run :=
  let b := paBlock it.pa
  let r := r.when (r.looksUp m it) fun r => r.tagUpsets m (r.setOf b) u
  let r := r.scnUpsets m (r.scnSetOf (paGran it.pa)) u
  r.when (r.actsHome b it.attr.mirror && it.attr.kind = kindShared) fun r => r.dirUpsets m u

/-! ## The way of an item through its conditions -/

/-- A write that a link sends in answer to a back-invalidate of the granule (R142). -/
def Run.answersSnoop (r : Run) (m : Fin 64) (it : Item) : Bool :=
  match it.src with
  | .host _ p k => isWrite it.op && (r.room m).cohs.any fun c =>
      c.snps.any fun s => s.p = p && s.k = k && lineGran s.line = paGran it.pa
  | _ => false

/-- Such a write is accepted at once: no order, tracker or ownership holds it (R142). -/
def Run.acceptNow (r : Run) (m : Fin 64) (it : Item) : Run :=
  let b := paBlock it.pa
  let l := paLineNo it.pa
  if r.actsHome b it.attr.mirror then r.acceptOr m it .home false id
  else match (r.room m).mudOf (paLine it.pa) with
    | some e => r.mudMerge m it e
    | none => match ((r.room m).trkOf b).filter fun t => t.pend.any fun x => x.1 = l with
      | some t => r.pendingWrite m { it with granted := true } t
      | none => match (r.liveEnt m b).filter fun x => x.2.state ≠ 6 with
        | some (w, e) =>
          if e.valid.getLsbD l || it.full then
            r.acceptOr m it (r.nearDest it.attr) false fun r =>
              r.modTag m (r.setOf b) w fun e => (e.written l it.full (r.isThru it.attr)).inFlight ((r.room m).fills b)
          else r.lineMiss m { it with granted := true } (r.setOf b) w
        | none =>
          r.acceptOr m it .fwd false fun r =>
            let f (e : WbEnt) : WbEnt :=
              if e.line = paLine it.pa && e.st = .open' then { e with srcs := e.srcs.filter fun s => s ≠ it.src } else e
            (r.modRoom m fun y => { y with wbuf := y.wbuf.map f }).tellDone m it.src it.tin

/-- Sets whose swept lines still wait at the stop of Room m: such a set is not rebuilt yet (R275). -/
def Run.sweepWbs (r : Run) (m : Fin 64) : List Nat :=
  (r.c.wait.filterMap fun x => match x.load with
    | .msg f _ => if x.k = roomCal m && f.op = Op.wb && msgIdx f = 1023 then some (r.setOf (lineBlk f.addr)) else none
    | _ => none).dedup

/-- The sets that the sweep of Room m has not rebuilt (R275). -/
def Run.sweepLeft (r : Run) (m : Fin 64) : Nat :=
  match (r.room m).sweep with
  | some s => s.left + ((r.sweepWbs m).filter fun n => s.cur ≠ some n).length
  | none => 0

/-- The recovery sweep has not yet rebuilt the set of an adopted block (R169, R274, R275). -/
def Run.sweepDue (r : Run) (m : Fin 64) (b : Block) : Bool :=
  match (r.room m).sweep with
  | some s => r.roomOf b = s.lost && ((r.sweepWbs m).contains (r.setOf b) ||
      (decide (s.left ≠ 0) && !(s.done.contains (r.setOf b)) && decide (s.next ≤ r.setOf b)))
  | none => false

/-- The set is rebuilt before the others (R274). -/
def Sweep.first (s : Sweep) (set : Nat) : Sweep :=
  if s.front.contains set then s else { s with front := s.front ++ [set] }

/-- Directory condition of a host item at the home, then service (R151). -/
def Run.afterScreen (r : Run) (m : Fin 64) (it : Item) : Run :=
  if r.actsHome (paBlock it.pa) it.attr.mirror && it.attr.kind = kindShared && !it.granted &&
      !(it.op = .rsvStore && !(r.rsvStands m it)) then
    match homeEv it with
    | some ev => r.homeStart m it ev fun r _ => r.serve m it
    | none => r.serve m it
  else r.serve m it

/-- A reservation store whose reservation does not stand needs no snoop (R202). -/
def Run.rsvDoomed (r : Run) (m : Fin 64) (it : Item) : Bool := it.op = .rsvStore && !(r.rsvStands m it)

/-- What holds back an action on the granule or block whose Screen granules are `gs`: a set that the recovery sweep or a
tag rebuild has still to give back, or a coherence tracker (R93, R145, R147, R169). -/
def Run.heldBack (r : Run) (m : Fin 64) (it : Item) (g : Option (BitVec 38)) (gs : List (BitVec 38)) : Option Why :=
  let set := r.setOf (paBlock it.pa)
  if r.sweepDue m (paBlock it.pa) then some (.sweep set)
  else if r.looksUp m it && (r.room m).rebuilds.any fun x => x.set = set then some (.rebuild set)
  else r.cohWhy m (paBlock it.pa) g gs

/-- The item waits for what holds it back; a set that the recovery sweep owes comes before the others (R274). -/
def Run.holdBack (r : Run) (m : Fin 64) (it : Item) (why : Why) : Run :=
  (match why with
    | .sweep set => r.modRoom m fun y => { y with sweep := y.sweep.map fun (s : Sweep) => s.first set }
    | _ => r).addWaiter m it why

/-- The Screen granules that a host's request reads (R139, R200). -/
def Run.itemGrans (r : Run) (it : Item) : Option (BitVec 38) × List (BitVec 38) :=
  if it.op = .rsvLoad then (none, rsvGrans it.pa (r.cls it.attr.cls).rgran) else (some (paGran it.pa), [paGran it.pa])

/-- The item takes a tracker and sends its snoops; a request that is no write waits first until the block's fills have
come (R71; log entry 88, DEDUCED). -/
def Run.snoopFirst (r : Run) (m : Fin 64) (it : Item)
    (plan : Option (BitVec 2) × List (BitVec 38) × (Run → Nat → Run)) : Run :=
  if !it.writes && (r.room m).filling (paBlock it.pa) then r.addWaiter m it .settle
  else r.ownCoh m it { idx := 0, blk := paBlock it.pa, gran := plan.1, frees := plan.2.1, job := .screen } plan.2.2

/-- Conditions of an item from a Porch, in order: rebuild of its set, other trackers, adopted granule, Screen,
directory; then service. -/
def Run.access (r : Run) (m : Fin 64) (it : Item) : Run :=
  let gs := r.itemGrans it
  match r.heldBack m it gs.1 gs.2 with
  | some why => r.holdBack m it why
  | none => match r.castGrans m it with
    | [] =>
      if r.rsvDoomed m it || it.op = .memClnEvct then r.serve m it
      else if it.snooped then r.afterScreen m it
      else match r.screenPlan m it with
        | some plan => r.snoopFirst m it plan
        | none => r.afterScreen m it
    | cast => r.cast m it cast

/-- The item makes its pass through the pipeline (R143). -/
def Run.passed (r : Run) (it : Item) : Run :=
  match it.src with
  | .host uid p _ => r.modEnt p uid fun e => { e with passAt := some r.now }
  | _ => r

/-- A new item enters (R61, R74). -/
def Run.enter (r : Run) (m : Fin 64) (it : Item) : Run :=
  let r := (r.pulse m 0x01).passed it
  if r.answersSnoop m it then r.acceptNow m it
  else if (r.room m).waiters.any fun w => sameOrder w.item it then r.addWaiter m it .oid
  else r.access m it

/-- The transfer has left the Hallway: SYNC markers behind it move up, and one that arrives notes what it waits on. -/
def Run.markersMove (r : Run) (m : Fin 64) (p : Fin 8) : Run :=
  let waits := ((r.room m).wbuf.filter fun e => e.porches.contains p && e.atRisk).map (·.seq)
  let f (k : Marker) : Marker :=
    if k.p = p && decide (0 < k.behind) then
      { k with behind := k.behind - 1, waits := if k.behind = 1 then some waits else k.waits }
    else k
  r.modRoom m fun y => { y with markers := y.markers.map f }

/-- ROOM_ENTRY (R60–R64): the oldest transfer of Porch p to Room m enters in a slot of code 0x40 + p. -/
def Run.roomEntry (r : Run) (m : Fin 64) (p : Fin 8) (u : Upset) : Run :=
  if r.fenced (unitRoom m) || (r.room m).closed then r
  else match r.c.hall.find? fun h => h.p = p && h.m = m with
  | some h =>
    r.inSlot m.val (0x40 + p.val) fun r =>
      let r := { r with c := { r.c with hall := r.c.hall.eraseP fun h => h.p = p && h.m = m } }
      let r := match h.item.src with
        | .land seq _ => r.modSent p seq fun d => { d with reissue := false }
        | .host uid _ _ | .rsv uid _ _ _ => r.modEnt p uid fun e => { e with reissue := false }
        | _ => r
      let r := r.upsets m h.item u
      ((r.enter m h.item).cohPoll m).markersMove m p
  | none => r

def execRoomEntry (m : Fin 64) (p : Fin 8) (u : Upset) (s : State) : Host.Outcome State Fault Refusal :=
  .next (Run.finish s ((Run.start s).roomEntry m p u))

/-! ## Fabric requests (R140, R151–R154) -/

def Run.fabAfter (r : Run) (m : Fin 64) (it : Item) (f : FMsg) : Run :=
  let serve (r : Run) (e : DirEnt) : Run := r.serveFab m f it.attr it.tin e (fillGrant f.op)
  match if it.attr.kind = kindShared then homeEv it else none with
  | some ev => r.homeStart m it ev serve
  | none => serve r {}

/-- Conditions of a fabric request at the home, in order. KIND, MIRROR, TENANT and CLASS are those that it entered
with (R43). -/
def Run.fabAccess (r : Run) (m : Fin 64) (it : Item) (f : FMsg) : Run :=
  let b := lineBlk f.addr
  let serve (r : Run) (grant : BitVec 2) : Run := r.serveFab m f it.attr it.tin {} grant
  if r.sweepDue m b then r.holdBack m it (.sweep (r.setOf b))
  else if f.twin then serve r grantU
  else if f.op = Op.mirrorWr then serve r 0
  else if f.op = Op.wb then if r.wbAllowed m b it.attr f.src then serve r 0 else r.wbBad m f it.tin
  else if it.attr.kind ≠ kindShared then serve r (fillGrant f.op)
  else if isFill f.op && r.crossing m b f.src then serve r grantU
  else match r.cohWhy m b none it.grans with
  | some why => r.addWaiter m it why
  | none => match r.castGrans m it with
    | [] =>
      if it.snooped then r.fabAfter m it f
      else match r.screenPlan m it with
        | some plan => r.snoopFirst m it plan
        | none => r.fabAfter m it f
    | cast => r.cast m it cast

/-- The home's entry agrees with what the request carries, and the request comes from a House that may send it
(R44, R167, R313). -/
def Run.fabFits (r : Run) (f : FMsg) : Bool :=
  let g := r.region (blkRegion (lineBlk f.addr))
  let home := r.isHome (lineBlk f.addr)
  g.attr.kind ≠ 0 && g.attr.kind = f.kind && g.attr.mirror = f.mirror &&
    (g.attr.kind ≠ kindPrivate || g.owner = f.src || f.twin || f.op = Op.mirrorWr) &&
    (if f.twin then f.mirror && (home || g.twin = r.myId)
     else if f.op = Op.mirrorWr then f.mirror && g.twin = r.myId
     else r.actsHome (lineBlk f.addr) f.mirror)

/-- A fabric request enters its Room. -/
def Run.fabEnter (r : Run) (m : Fin 64) (f : FMsg) (stamp : Stamp) (u : Upset) : Run :=
  let r := r.pulse m 0x01
  let it := fabItem f (r.region (blkRegion (lineBlk f.addr))).attr (lineNo f.addr) stamp
  if r.fabFits f then
    let r := r.upsets m it u
    let r := if (r.room m).waiters.any fun w => sameOrder w.item it && f.op ≠ Op.wb &&
        !(isFill f.op && r.crossing m (lineBlk f.addr) f.src) then
      r.addWaiter m it .oid
    else r.fabAccess m it f
    r.cohPoll m
  else
    let r := r.report { code := Code.regionMismatch, src := m.val / 16, sub := m.val % 16,
                        addr := some (linePa f.addr), mKind := 3, mId := f.src.toNat }
    r.refuseFab f stamp

/-! ## Waiters re-enter (R74, R75) -/

/-- A write buffer entry serves the waiter: one of its line is there to merge with, or one can be allocated (R110). -/
def Run.wbTakes (r : Run) (m : Fin 64) (it : Item) : Bool :=
  ((r.room m).wbOpen (paLine it.pa)).isSome || !(r.wbFull m)

/-- What the waiter waits for has come. -/
def Run.ready (r : Run) (m : Fin 64) (w : Waiter) : Bool :=
  let y := r.room m
  match w.why with
  | .fill _ | .grant _ => false
  | .evict s v => (r.tag m s v).state ≠ 6
  | .pool => decide (y.trks.length < 256)
  | .mud n => decide (n ≤ r.mudFree m)
  | .way s mask => r.freeWays m s mask ≠ 0
  | .wbFull => r.wbTakes m w.item
  | .wbDrain n => !(y.wbuf.any fun e => e.seq = n && e.st ≠ .issued)
  | .twin line => !(y.twinDue line)
  | .coh i => !(y.cohs.any fun c => c.idx = i)
  | .own i => y.cohs.any fun c => c.idx = i && c.ready
  | .ownWay _ (some i) => !(y.cohs.any fun c => c.idx = i)
  | .ownWay _ none => decide (y.cohs.length < 48)
  | .cohPool => decide (y.cohs.length < 48)
  | .oid => true
  | .rebuild s => !(y.rebuilds.any fun x => x.set = s)
  | .sweep _ => !(r.sweepDue m (paBlock w.item.pa))
  | .held => !(y.heldOn (paBlock w.item.pa))
  | .settle => !(y.filling (paBlock w.item.pa))
  | .scnSet s => !(y.scnWaits s)
  | .ready => true

/-- No earlier waiter of the same order is still there. -/
def Room.firstOf (y : Room) (i : Nat) (w : Waiter) : Bool :=
  !((y.waiters.take i).any fun x => sameOrder x.item w.item)

/-- Waiters for a tracker (R75), and for a write buffer entry (R110), re-enter oldest first; one that finds an entry of
its line is held by no full buffer. -/
def Room.inTurn (y : Room) (i : Nat) (w : Waiter) : Bool :=
  match w.why with
  | .pool => !((y.waiters.take i).any fun x => x.why = .pool)
  | .wbFull => (y.wbOpen (paLine w.item.pa)).isSome || !((y.waiters.take i).any fun x => x.why = .wbFull)
  | _ => true

/-- Re-enter an item whose condition has been met. -/
def Run.again (r : Run) (m : Fin 64) (it : Item) : Run :=
  match it.src with
  | .fab f => if it.granted then r.homeRead m it else r.fabAccess m it f
  | .house => r.acceptOr m it (if r.actsHome (paBlock it.pa) it.attr.mirror then .home else .fwd) false id
  | _ => if r.answersSnoop m it then r.acceptNow m it else r.access m it

/-- The covering Room's entry for a granule that was broadcast: the requester's Porch, with EXCL (R170). -/
def Run.castEntry (r : Run) (m : Fin 64) (it : Item) : Need :=
  match it.src with
  | .host _ p _ | .rsv _ p _ _ => r.scnAdd m (paGran it.pa) p true
  | _ => .ok r

/-- The entry that an unknown-sharer broadcast leaves (R171). -/
def Coh.found (c : Coh) (b : Block) : DirEnt :=
  { sharers := c.heldBy, tag := dirTag b, state := if c.heldBy = 0 then 1 else 2 }

/-- The item's own tracker `c` has its answers: it ends, and the item goes on. The entry of an unknown-sharer broadcast
may have to wait for a way; the tracker holds the block until then (R171). -/
def Run.ownEnd (r : Run) (m : Fin 64) (it : Item) (c : Coh) : Run :=
  let done (r : Run) : Run := (r.forEach c.frees fun g r => r.scnFree m g).dropCoh m c.idx
  match c.job with
  | .bcast =>
    let r := done r
    match r.castEntry m it with
    | .ok r => r.again m { it with bcast := true }
    | .wait r why => r.addWaiter m { it with bcast := true } why
  | .unknown b _ =>
    match r.dirWay m b fun r w => r.dirPut m (dirSet b) w (c.found b) with
    | .ok r => (done r).again m { it with snooped := true }
    | .wait r (.coh ev) => r.addWaiter m it (.ownWay c.idx (some ev))
    | .wait r _ => r.addWaiter m it (.ownWay c.idx none)
  | .home _ _ _ =>
    let r := done r
    match it.src with
    | .fab f => r.homeEnd m it c.heldBy fun r e => r.serveFab m f it.attr it.tin e (fillGrant f.op)
    | _ => r.homeEnd m it c.heldBy fun r _ => r.serve m { it with granted := true }
  | _ => (done r).again m { it with snooped := true }

/-- The tracker of its own that a waiter goes on with. -/
def Why.ownIdx : Why → Option Nat
  | .own i => some i
  | .ownWay i _ => some i
  | _ => none

/-- WAITER_REENTRY: waiter `sel` of Room m, in a slot of code 0x51. -/
def Run.waiterReentry (r : Run) (m : Fin 64) (sel : Nat) (u : Upset) : Run :=
  match (r.room m).waiters[sel]? with
  | some w =>
    let y := r.room m
    if r.fenced (unitRoom m) || !(r.ready m w) || !(y.firstOf sel w) || !(y.inTurn sel w) then r
    else r.inSlot m.val 0x51 fun r =>
      let r := ((r.dropWaiter m sel).pulse m 0x01).passed w.item
      let r := r.upsets m w.item u
      let own := w.why.ownIdx.bind fun i => (r.room m).cohs.find? fun c => c.idx = i
      let r := match w.ans, own with
        | some (d, p), _ => r.giveData m w.item d p
        | none, some c => r.ownEnd m w.item c
        | none, none => r.again m w.item
      r.cohPoll m
  | none => r

def execWaiterReentry (m : Fin 64) (sel : Nat) (u : Upset) (s : State) : Host.Outcome State Fault Refusal :=
  .next (Run.finish s ((Run.start s).waiterReentry m sel u))

/-! ## Near-copy reads return to the Mudroom (R66 step 3) -/

/-- When the last line of a victim has come, its entry takes the new block, or becomes Invalid. -/
def Run.evictEnd (r : Run) (m : Fin 64) (set way : Nat) : Run :=
  let y := r.room m
  if (y.mud.any fun e => e.kind = .evict && e.st = .loading && e.set = set && e.way = way) ||
      (r.tag m set way).state ≠ 6 || y.rebuilds.any (fun x => x.set = set && x.way = way) then r
  else match y.trks.find? fun t => t.evicting && t.place = some (set, way) with
    | some t =>
      let e : TagEnt :=
        { tag := blkTag t.blk, valid := t.newValid, dirty := t.newDirty, tenant := t.attr.tenant,
          state := if t.newPoison then 4 else 1, cls := t.attr.cls, epoch := (r.cls t.attr.cls).epoch }
      let r := (r.setTag m set way e).touch m set way
      let r := r.modTrk m t.idx fun t => { t with evicting := false }
      r.trkSettle m t.idx
    | none => r.setTag m set way {}

/-! ## Rebuild of an uncorrectable tag entry (R93, R273) -/

/-- What the shadow of one line says: trusted metadata, or nothing. -/
def Run.shadowAt (r : Run) (m : Fin 64) (set way : Nat) (l : Fin 16) (e : ErrPat) : Option (Meta × Bool) :=
  match r.nearPlace m set way l with
  | some (c, idx) =>
    (r.shadow c ((r.chan c).rankOf idx) (r.line c idx) (r.errOf c idx e)).map fun x => (x.1, x.2.isSome)
  | none => none

/-- What the read of one shadow counts at its channel. -/
def Run.shadowCount (r : Run) (m : Fin 64) (set way : Nat) (l : Fin 16) (e : ErrPat) : Run :=
  match r.nearPlace m set way l with
  | some (c, idx) => r.countRead c ((r.chan c).rankOf idx) (r.line c idx) (r.errOf c idx e) none
  | none => r

/-- An earlier write to one of the near lines of a way has still to be carried out (R244). -/
def Run.wayBusy (r : Run) (m : Fin 64) (set way : Nat) : Bool :=
  allLines.any fun l => (r.nearPlace m set way l).any fun x => r.lineBusy x.1 x.2

/-- TAG_REBUILD: the oldest entry under rebuild takes what the shadows of its 16 lines say. The shadow of the lowest line
that names the way is the one that the others must agree with (log entry 96, DESIGN CHOICE); a dirty line whose shadow
does not agree turns poison. -/
def Run.tagRebuild (r : Run) (m : Fin 64) (errs : Vector ErrPat 16) : Run :=
  match (r.room m).rebuilds with
  | x :: rest =>
    if r.fenced (unitRoom m) || r.wayBusy m x.set x.way then r
    else
      let sh := allLines.map fun l => (l, r.shadowAt m x.set x.way l errs[l])
      let named := sh.filterMap fun s => match s.2 with
        | some (md, _) => if md.state = 2 && md.way = BitVec.ofNat 4 x.way then some (s.1, md) else none
        | none => none
      let r := r.forEach allLines fun l r => r.shadowCount m x.set x.way l errs[l]
      let r := r.modRoom m fun y => { y with rebuilds := rest }
      match named with
      | [] => (r.setTag m x.set x.way {}).rmEvent m Code.tagRebuilt
      | (_, md0) :: _ =>
        let same (md : Meta) : Bool := md.tagSh = md0.tagSh && md.tenant = md0.tenant && md.epoch = md0.epoch
        let good := named.filter fun s => same s.2
        let bad := sh.filterMap fun s => match s.2 with
          | some (md, _) => if md.state = 2 && md.dirty && !(same md && md.way = BitVec.ofNat 4 x.way) then some s.1 else none
          | none => none
        let b := r.blockOf m x.set md0.tagSh
        let e : TagEnt :=
          { tag := md0.tagSh, valid := lineMask (good.map (·.1) ++ bad),
            dirty := lineMask ((good.filter fun s => s.2.dirty).map (·.1)), tenant := md0.tenant, epoch := md0.epoch,
            cls := (r.attrOf b).cls, state := if bad.isEmpty && !(good.any fun s => s.2.poison) then 2 else 4 }
        let r := r.setTag m x.set x.way e.settle
        let r := r.forEach bad fun l r => r.poisonNear m (blkLine b l) true
        let r := r.forEach (sh.filterMap (·.2)) fun s r => r.charge s.1.tenant .cellar 1 r.ftNs
        r.rmEvent m (if bad.isEmpty then Code.tagRebuilt else Code.tagRebuiltPoison) (some (blkPa b))
  | [] => r

def execTagRebuild (m : Fin 64) (errs : Vector ErrPat 16) (s : State) : Host.Outcome State Fault Refusal :=
  .next (Run.finish s ((Run.start s).tagRebuild m errs))

/-! ## Drains of the write buffer (R104–R108, R111, R126) -/

/-- A DRAIN or SYNC waits on what an entry's source sent: its request, or its Landing entry. -/
def Run.barSrc (r : Run) : Src → Bool
  | .host uid p _ | .rsv uid p _ _ => (r.porch p).bars.any fun b => b.uids.contains uid
  | .land seq p => (r.porch p).bars.any fun b => b.lands.contains seq
  | _ => false

/-- A SYNC marker has noted the entry, or a DRAIN or SYNC waits on a write that it holds (R107). -/
def Run.barrierOn (r : Run) (m : Fin 64) (e : WbEnt) : Bool :=
  ((r.room m).markers.any fun k => (k.waits.getD []).contains e.seq) || e.srcs.any r.barSrc

/-- Where the Cellar write of an entry goes: its home line, or the near copy of its block. -/
def Run.wbPlace (r : Run) (m : Fin 64) (e : WbEnt) : Option (Fin 16 × Nat) :=
  let b := lineBlk e.line
  if e.home then some (r.homePlace b (lineNo e.line))
  else (r.liveEnt m b).bind fun x => r.nearPlace m (r.setOf b) x.1 (lineNo e.line)

/-- The way of an entry's drain is clear: the Room has no earlier transfer for its line index (R244), no Mudroom entry
holds its slot (R271), and a forward has its route. -/
def Run.wbClear (r : Run) (m : Fin 64) (e : WbEnt) : Bool :=
  let b := lineBlk e.line
  if e.fwd then r.canSend (r.homeOf b e.attr.mirror)
  else
    !((r.wbPlace m e).any fun x => (r.room m).outC.any fun o => decide (r.outPlace m o = some x)) &&
      (e.home || !((r.liveEnt m b).any fun x => (r.room m).slotHeld (r.setOf b) x.1 (lineNo e.line) b))

def Run.wbEligible (r : Run) (m : Fin 64) (e : WbEnt) : Bool :=
  let y := r.room m
  let ctl := r.reg (rmBase m + 0x34)
  e.st = .open' && decide (e.born < r.c.cc) && r.wbClear m e &&
    (decide (e.lastCc + bitsOf ctl 7 0 ≤ r.c.cc) || decide (bitsOf ctl 14 8 < y.wbuf.length) || r.mode = .drain ||
      e.force || r.barrierOn m e) &&
    !(y.wbuf.any fun x => x.line = e.line && x.st = .issued && x.needCel)

/-- No older eligible entry goes the same way, toward a channel or toward a Door (R107). -/
def Run.wbFirst (r : Run) (m : Fin 64) (e : WbEnt) : Bool :=
  !((r.room m).wbuf.any fun x => decide (x.seq < e.seq) && x.fwd = e.fwd && r.wbEligible m x)

/-- A write that waited for its home has been lost with it (R129, R174): its source is told, and the loss logged. -/
def Run.wbLost (r : Run) (m : Fin 64) (e : WbEnt) : Run :=
  let r := (r.rmEvent m Code.lostWriteback (some (linePa e.line))).rmCount m 0x214 1
  let r := r.wbFree m fun x => x.seq = e.seq
  let r := r.forEach e.srcs fun s r => match s with
    | .land seq p => r.modPorch p fun x =>
        { x with lands := x.lands.map fun e => if e.seq = seq then { e with orphan := true } else e }
    | _ => r.tellDone m s e.tin
  let r := r.forEach e.owners fun s r => r.retire s
  r.hostReport (linePa e.line) .fail .media

/-- Forward an entry's line to the home: a whole line that was written through as WB, any other as WR_U (R158, R161). It
takes the drain's own slot, or waits for one. -/
def Run.wbForward (r : Run) (m : Fin 64) (e : WbEnt) (slot : Bool := false) : Run :=
  let b := lineBlk e.line
  let dst := r.homeOf b e.attr.mirror
  if r.dead dst then r.wbLost m e
  else if dst = r.myId then
    let it : Item := { src := .house, op := .memWr, pa := linePa e.line, attr := e.attr, data := e.data, mask := e.mask,
                       poison := e.poison, tin := e.tin }
    let r := r.wbFree m fun x => x.seq = e.seq
    let r := r.acceptOr m it .home false id
    r.forEach e.srcs fun s r => r.tellDone m s e.tin
  else
    let op := if e.mask = fullMask && e.thru then Op.wb else Op.wrU
    let f := r.mkMsg op dst e.line e.attr (mkTag m (320 + e.idx))
    let f := { f with line := e.data, bmask := e.mask, poison := e.poison }
    if slot then r.msgGo (roomCal m) f e.tin else r.hallMsg (roomCal m) f e.tin

/-- The Cellar write of a whole line to the home frame. -/
def Run.homeWrite (r : Run) (m : Fin 64) (e : WbEnt) : Run :=
  let (c, idx) := r.homePlace (lineBlk e.line) (lineNo e.line)
  if r.lostChan c then r.wbNoCel m e.seq
  else r.chanCmd m c
    { m := m, idx := idx, write := true, pa := linePa e.line, tenant := e.attr.tenant, data := e.data,
      md := homeMeta e.attr.tenant (r.cls e.attr.cls).lcode e.poison, wb := some e.seq, charge := e.attr.tenant,
      tin := e.tin }

/-- The read of a read-modify-write (R108). -/
def Run.rmwRead (r : Run) (m : Fin 64) (e : WbEnt) (c : Fin 16) (idx : Nat) (t : BitVec 12) (near : Option Meta) : Run :=
  (r.rmCount m 0x6C 1).chanCmd m c
    { m := m, idx := idx, write := false, pa := linePa e.line, tenant := t, near := near,
      data := e.data, mask := e.mask, md := { poison := e.poison, lcode := (r.cls e.attr.cls).lcode },
      purpose := some (.rmw m e.seq), charge := e.attr.tenant, tin := e.tin }

/-- Drain toward the near copy. -/
def Run.drainNear (r : Run) (m : Fin 64) (e : WbEnt) : Run :=
  let b := lineBlk e.line
  let l := lineNo e.line
  let set := r.setOf b
  match r.liveEnt m b with
  | some (w, t) =>
    let md := nearMeta t w l (r.cls t.cls).lcode e.poison
    if e.mask = fullMask then
      let r := r.nearWrite m { set := set, way := w, line := l, blk := b, data := e.data, md := md, tenant := t.tenant,
                               tin := e.tin, wb := some e.seq }
      match e.take with
      | some i => r.modCoh m i fun c => { c with lines := c.lines ++ [(l, e.data, e.poison)] }
      | none => if e.needAck then r.wbForward m e else r
    else match r.nearPlace m set w l with
      | some (c, idx) => r.rmwRead m e c idx t.tenant (some (nearMeta t w l 0 false))
      | none =>
        let r := r.wbNoCel m e.seq
        let r := if t.dirty.getLsbD l then (r.slotLost m set w l b).nearPoison m set w b l e.data
          else r.setTag m set w { t with valid := clrBit16 t.valid l }
        if e.needAck then r.wbForward m e else r.wbSweep m
  | none =>
    let r := r.wbNoCel m e.seq
    if e.needAck then r.wbForward m e else r

/-- Drain toward the home frame. -/
def Run.drainHome (r : Run) (m : Fin 64) (e : WbEnt) : Run :=
  let (c, idx) := r.homePlace (lineBlk e.line) (lineNo e.line)
  if e.mask = fullMask then r.homeWrite m e
  else if r.lostChan c then
    if e.twinLater then match r.askTwin m e.line e.attr (some e.seq) e.tin with
      | some (r, _) => r.wbNoCel m e.seq
      | none => r.modWb m e.seq fun e => { e with st := .open' }
    else r.wbNoCel m e.seq
  else r.rmwRead m e c idx e.attr.tenant none

/-- WB_DRAIN: the `sel`-th oldest eligible entry, when no older one goes the same way (R107), in a Room-stop slot of code
0x57 toward a channel or 0x58 toward a Door. -/
def Run.wbDrain (r : Run) (m : Fin 64) (sel : Nat) : Run :=
  match ((r.room m).wbuf.filter fun e => r.wbEligible m e)[sel]? with
  | some e =>
    if r.fenced (unitRoom m) || !(r.wbFirst m e) then r
    else r.inSlot (roomCal m) (if e.fwd then 0x58 else 0x57) fun r =>
      let n := (r.room m).outC.length
      let r := r.modWb m e.seq fun e => { e with st := .issued }
      if e.fwd then (r.wbForward m e true).wbRetire m e.seq
      else (if e.home then r.drainHome m e else r.drainNear m e).outNow m n
  | none => r

def execWbDrain (m : Fin 64) (sel : Nat) (s : State) : Host.Outcome State Fault Refusal :=
  .next (Run.finish s ((Run.start s).wbDrain m sel))

/-! ## Cellar returns (R105, R108, R123, R159) -/

/-- A near copy has come for a Mudroom entry: it fills the bytes that no write has written (R123). -/
def Run.mudFill (r : Run) (m : Fin 64) (idx : Nat) (d : LineData) (poison : Bool) : Run :=
  match (r.room m).mud.find? fun e => e.idx = idx && e.st = .loading with
  | some e =>
    let r := r.modMud m e.seq fun e =>
      { e with data := mergeLine d e.data e.wmask, poison := e.poison || (poison && e.wmask ≠ fullMask),
               st := .ready, readyCc := r.c.cc }
    (r.evictEnd m e.set e.way).cohPoll m
  | none => r

/-- The merged line of a read-modify-write has come (R108): the answer to an INV, the home or the twin takes it. -/
def Run.rmwMerged (r : Run) (m : Fin 64) (n : Nat) (d : LineData) (poison : Bool) : Run :=
  match (r.room m).wbuf.find? fun e => e.seq = n with
  | some e =>
    let e' : WbEnt := { e with data := d, mask := fullMask, poison := poison }
    let r := r.modWb m n fun _ => e'
    let r := match e.take with
      | some i => r.modCoh m i fun k => { k with lines := k.lines ++ [(lineNo e.line, d, poison)] }
      | none => if e.needAck then r.wbForward m e' else r
    ((r.twinKick m e.line).wbSweep m).cohPoll m
  | none => r

/-- A line of the answer to an INV or RECALL has come. -/
def Run.answerLine (r : Run) (m : Fin 64) (i : Nat) (l : Fin 16) (d : LineData) (p : Bool) : Run :=
  (r.modCoh m i fun k => { k with reads := k.reads.filter fun y => y ≠ l, lines := k.lines ++ [(l, d, p)] }).cohPoll m

/-- NEAR_COPY_READ_RETURN: the oldest line that has come back, in a slot of code 0x53. -/
def Run.nearReturn (r : Run) (m : Fin 64) : Run :=
  match (r.room m).returns with
  | x :: rest =>
    if r.fenced (unitRoom m) then r
    else r.inSlot m.val 0x53 fun r =>
      let r := (r.modRoom m fun y => { y with returns := rest }).pulse m 0x01
      match x with
      | .mud i d p => r.mudFill m i d p
      | .rmw n d p => r.rmwMerged m n d p
      | .answer i l d p => r.answerLine m i l d p
      | .resil _ => r
  | [] => r

def execNearCopyReadReturn (m : Fin 64) (s : State) : Host.Outcome State Fault Refusal :=
  .next (Run.finish s ((Run.start s).nearReturn m))

/-! ## Home writes of the Mudroom (R127, R129) -/

def Run.mudEligible (r : Run) (m : Fin 64) (e : MudEnt) : Bool :=
  let y := r.room m
  let ctl := r.reg (rmBase m + 0x200)
  e.st = .ready && decide (e.born < r.c.cc) &&
    (e.kind = .copy || decide (e.readyCc + bitsOf ctl 7 0 ≤ r.c.cc) || decide (bitsOf ctl 13 8 < y.mud.length) ||
      r.mode = .drain) &&
    !(y.mud.any fun x => x.line = e.line && x.st = .writing)

/-- A COPY entry ends: the near copy is rewritten with a clean shadow unless a newer write is dirty there (R121). -/
def Run.copyEnd (r : Run) (m : Fin 64) (e : MudEnt) : Run :=
  let l := lineNo e.line
  let t := r.tag m e.set e.way
  let r := r.mudDrop m fun x => x.seq = e.seq
  if r.live t && t.tag = blkTag (lineBlk e.line) && t.state ≠ 6 && !(t.dirty.getLsbD l) then
    r.nearWrite m { set := e.set, way := e.way, line := l, blk := lineBlk e.line, data := e.data, tenant := t.tenant,
                    tin := r.ftNs, md := nearMeta t e.way l (r.cls t.cls).lcode e.poison }
  else r

/-- A Mudroom entry's home write has been acknowledged, or is needed no more. -/
def Run.mudEnd (r : Run) (m : Fin 64) (e : MudEnt) : Run :=
  if e.again then r.modMud m e.seq fun e => { e with again := false, st := .ready, readyCc := r.c.cc }
  else if e.kind = .copy then r.copyEnd m e
  else r.mudRelease m e

/-- The line's home is dead and no twin serves it: it is discarded (R129). -/
def Run.mudLost (r : Run) (m : Fin 64) (e : MudEnt) : Run :=
  let r := (r.rmEvent m Code.lostWriteback (some (linePa e.line))).rmCount m 0x214 1
  let r := r.forEach e.owners fun s r => r.retire s
  let r := r.hostReport (linePa e.line) .fail .media
  r.mudEnd m { e with again := false }

/-- MUDROOM_HOME_WRITE: the oldest eligible entry goes home as one WB, in a Room-stop slot of code 0x58, by way of the
home-write queue (R132). -/
def Run.mudWrite (r : Run) (m : Fin 64) : Run :=
  match (r.room m).mud.find? fun e => r.mudEligible m e with
  | some e =>
    let b := lineBlk e.line
    let dst := r.homeOf b e.attr.mirror
    if r.fenced (unitRoom m) || !(r.canSend dst) then r
    else r.inSlot (roomCal m) 0x58 fun r =>
      if r.dead dst then r.mudLost m e
      else if dst = r.myId then
        let it : Item := { src := .house, op := .memWr, pa := linePa e.line, attr := e.attr, data := e.data,
                           mask := fullMask, poison := e.poison, tin := r.ftNs }
        match r.accept m it .home false with
        | some r => r.mudEnd m { e with again := false }
        | none => r
      else
        let r := r.modMud m e.seq fun e => { e with st := .writing, owners := [] }
        let r := r.forEach e.owners fun s r => r.retire s
        let f := r.mkMsg Op.wb dst e.line e.attr (mkTag m (256 + e.idx))
        let no := r.c.flyNo
        let r := r.msgGo (roomCal m) { f with line := e.data, poison := e.poison } r.ftNs true
        r.when (r.c.flyNo ≠ no) fun r => r.modRoom m fun y => { y with homeQ := y.homeQ.add no }
  | none => r

def execMudroomHomeWrite (m : Fin 64) (s : State) : Host.Outcome State Fault Refusal :=
  .next (Run.finish s ((Run.start s).mudWrite m))

/-! ## Hosts answer back-invalidates (R141–R143, R146) -/

/-- The host addresses of a back-invalidate, or of a response, lie in this range. -/
def biSpan (hpa : BitVec 52) (blk : Bool) : Nat × Nat := (hpa.toNat, hpa.toNat + if blk then 256 else 64)
def BiSnp.meets (s : BiSnp) (hpa : BitVec 52) (blk : Bool) : Bool :=
  decide ((biSpan s.hpa s.blk).1 < (biSpan hpa blk).2 ∧ (biSpan hpa blk).1 < (biSpan s.hpa s.blk).2)

/-- The oldest snoop of this link that fits, with its Room and tracker. -/
def Run.snoopBy (r : Run) (p : Fin 8) (k : Fin 2) (f : BiSnp → Bool) : Option (Fin 64 × Coh × BiSnp) :=
  allRooms.findSome? fun m => (r.room m).cohs.findSome? fun c =>
    (c.snps.find? fun s => s.p = p && s.k = k && f s).map fun s => (m, c, s)

/-- The snoop that a response answers: one of its form at its address, or else one of the other form that it meets, in
which case it is a protocol error (R141). -/
def Run.snoopOf (r : Run) (p : Fin 8) (k : Fin 2) (hpa : BitVec 52) (blk : Bool) : Option (Fin 64 × Coh × BiSnp) :=
  (r.snoopBy p k fun s => s.hpa = hpa && s.blk = blk).or (r.snoopBy p k fun s => s.meets hpa blk)

/-- The Room accepts the response to this snoop. -/
def rspOk : Snp → BiRsp → Bool
  | .inv, .i => true
  | .data, .i => true
  | .data, .s => true
  | .cur, _ => true
  | _, _ => false

/-- One snoop has been answered, or counts as answered. -/
def Run.snoopDone (r : Run) (m : Fin 64) (idx : Nat) (s : BiSnp) : Run :=
  (r.modCoh m idx fun c => { c with snps := c.snps.eraseP fun x => x = s }).cohPoll m

/-- The BIRsp reaches its Room. A response that is a protocol error is still the link's answer (log entry 98, DESIGN
CHOICE). -/
def Run.biTake (r : Run) (p : Fin 8) (k : Fin 2) (hpa : BitVec 52) (blk : Bool) (x : BiRsp) : Run :=
  match r.snoopOf p k hpa blk with
  | some (m, c, s) =>
    let r := if s.hpa = hpa && s.blk = blk && rspOk s.kind x then r
      else (r.rmEvent m Code.snoopProtocol (some (linePa s.line))).poisonLine m s.line
    r.snoopDone m c.idx s
  | none => r.pchEvent p k Code.hostProtocol

/-- A host write of this link to the granule. -/
def Item.wrote (it : Item) (p : Fin 8) (k : Fin 2) (g : BitVec 38) : Bool :=
  match it.src with
  | .host _ p' k' => p' = p && k' = k && isWrite it.op && paGran it.pa = g
  | _ => false

/-- Earlier writes of the link to the snooped granule that are not yet injected (R142). -/
def Run.biBehind (r : Run) (p : Fin 8) (k : Fin 2) (g : BitVec 38) : List Nat :=
  ((r.porch p).store.filter fun e => e.stage = .waiting && !e.sent && e.item.wrote p k g).map (·.uid)

/-- Writes of the link that still wait in its buffer for admission. -/
def Run.biBuffered (r : Run) (p : Fin 8) (k : Fin 2) (g : BitVec 38) : Bool :=
  (r.link p k).buf.any fun b => isWrite b.op && match r.hpaToDpa p k b.q.hpa with
    | some d => match r.dpaToPa p k d with
      | some pa => paGran pa = g
      | none => false
    | none => false

/-- The Room accepts at once the link's writes to the granule that wait in it (R142). -/
def Run.biAccept (r : Run) (m : Fin 64) (p : Fin 8) (k : Fin 2) (g : BitVec 38) : Run :=
  let (r, ws) := r.pullWaiters m fun w => !w.why.isOwn && w.item.wrote p k g
  r.forEach ws fun w r => r.acceptNow m w.item

/-- An item is on its way to its Room, or waits there for its Room-entry slot. -/
def Run.onWay (r : Run) (f : Item → Bool) : Bool :=
  r.c.hall.any (fun h => f h.item) || r.inHall fun x => match x with
    | .item _ _ it => f it
    | _ => false

/-- The BIRsp goes on when every earlier write of its link to the granule has been accepted by the Room or answered at
the Porch; else it waits at the Porch (R142). -/
def Run.biTry (r : Run) (p : Fin 8) (k : Fin 2) (w : BiWait) : Run :=
  match r.snoopOf p k w.hpa w.blk with
  | some (m, _, s) =>
    let g := lineGran s.line
    let r := r.biAccept m p k g
    if r.c.tt.run && r.biReady p w && !(r.biBuffered p k g) && !(r.onWay fun it => it.wrote p k g) &&
        !((r.room m).waiters.any fun x => !x.why.isOwn && x.item.wrote p k g) then
      r.biTake p k w.hpa w.blk w.rsp
    else r.modLink p k fun l => { l with bi := l.bi ++ [w] }
  | none => r.pchEvent p k Code.hostProtocol

/-- BIRSP. -/
def Run.biRsp (r : Run) (p : Fin 8) (k : Fin 2) (hpa : BitVec 52) (blk : Bool) (x : BiRsp) : Run :=
  if !(r.link p k).up then r
  else match r.snoopOf p k hpa blk with
  | some (_, _, s) => r.biTry p k { hpa := hpa, blk := blk, rsp := x, uids := r.biBehind p k (lineGran s.line) }
  | none => r.pchEvent p k Code.hostProtocol

def execBiRsp (p : Fin 8) (k : Fin 2) (hpa : BitVec 52) (blk : Bool) (x : BiRsp) (s : State) :
    Host.Outcome State Fault Refusal :=
  .next (Run.finish s (((Run.start s).linkTook p k false).biRsp p k hpa blk x))

/-- BIRsp that wait for writes go on when those have been injected and have entered their Room. -/
def Run.biFlush (r : Run) (p : Fin 8) (k : Fin 2) : Run :=
  let ws := (r.link p k).bi
  (r.modLink p k fun l => { l with bi := [] }).forEach ws fun w r => r.biTry p k w

/-- The Room took this request into S5 before the snoop went out (R143): it is answered, or it has made its pass and is
held by nothing but a fill or a grant. -/
def Run.served (r : Run) (e : Ent) (sentAt : Nat) : Bool :=
  let inS5 (x : Waiter) : Bool := match x.why with
    | .fill _ | .grant _ => true
    | _ => false
  let answered : Bool := e.ans.isSome || r.inHall fun x => match x with
    | .ans s _ => s = e.item.src
    | _ => false
  answered || (e.stage = .injected && (e.passAt.any fun t => decide (t < sentAt)) &&
    !(r.onWay fun it => it.src = e.item.src) &&
    (r.room (r.serving e.room)).waiters.all fun w => w.item.src ≠ e.item.src || inS5 w)

/-- BICONFLICT (R143). -/
def Run.biConflict (r : Run) (p : Fin 8) (k : Fin 2) (hpa : BitVec 52) : Run :=
  if !(r.link p k).up then r
  else match r.snoopBy p k fun s => s.meets hpa false with
  | some (_, _, s) => match (r.porch p).store.find? fun e => e.k = k && e.hpa = hpa && !e.sent && r.served e s.sentAt with
    | some e => r.modLink p k fun l => { l with conf := l.conf ++ [(hpa, e.uid)] }
    | none => r.toHost (.biConflictAck p k hpa)
  | none => r.pchEvent p k Code.hostProtocol

def execBiConflict (p : Fin 8) (k : Fin 2) (hpa : BitVec 52) (s : State) : Host.Outcome State Fault Refusal :=
  .next (Run.finish s (((Run.start s).linkTook p k false).biConflict p k hpa))

/-- BIConflictAck whose request has been answered go out. -/
def Run.confFlush (r : Run) (p : Fin 8) (k : Fin 2) : Run :=
  let isOpen (u : Nat) : Bool := (r.porch p).store.any fun e => e.uid = u && !e.sent
  let go := (r.link p k).conf.filter fun x => !(isOpen x.2)
  let r := r.modLink p k fun l => { l with conf := l.conf.filter fun x => isOpen x.2 }
  r.forEach go fun x r => r.toHost (.biConflictAck p k x.1)

/-- SNOOP_TIMEOUT: a back-invalidate of tracker idx has had no answer in time (R146). -/
def Run.snoopTimeout (r : Run) (m : Fin 64) (idx : Nat) : Run :=
  match (r.room m).cohs.find? fun c => c.idx = idx with
  | some c => match c.snps.find? fun s => decide (s.by' ≤ r.now) && r.c.tt.run with
    | some s =>
      let r := r.rmCount m 0x30C 1
      let r := r.report { code := Code.snoopTimeout, src := m.val / 16, sub := m.val % 16, addr := some (linePa s.line),
                          mKind := 1, mId := s.p, path := [unitRoom m, unitPorch s.p] }
      let r := r.when s.excl fun r => r.poisonLine m s.line
      r.snoopDone m idx s
    | none => r
  | none => r

def execSnoopTimeout (m : Fin 64) (idx : Nat) (s : State) : Host.Outcome State Fault Refusal :=
  .next (Run.finish s ((Run.start s).snoopTimeout m idx))

/-! ## INV and RECALL unanswered (R155) -/

/-- INV_RETRY: send once more to every House that has not answered in time. -/
def Run.invRetry (r : Run) (m : Fin 64) (idx : Nat) : Run :=
  match (r.room m).cohs.find? fun c => c.idx = idx with
  | some c =>
    let due := c.invs.filter fun i => !i.retried && decide (i.retryBy ≤ r.now) && r.c.tt.run
    let rcl := match c.job with
      | .home _ x _ => x
      | .unknown _ x => x
      | _ => false
    let f (i : InvOut) : InvOut := if decide (i.retryBy ≤ r.now) && r.c.tt.run then { i with retried := true } else i
    let r := r.modCoh m idx fun c => { c with invs := c.invs.map f }
    r.forEach due fun i r => r.sendSnoop m idx c.blk rcl i.house
  | none => r

def execInvRetry (m : Fin 64) (idx : Nat) (s : State) : Host.Outcome State Fault Refusal :=
  .next (Run.finish s ((Run.start s).invRetry m idx))

/-- A House that does not answer is silent: a sharer leaves the entry, an owner's block is lost. -/
def Run.invLost (r : Run) (m : Fin 64) (c : Coh) (i : InvOut) : Run :=
  let b := c.blk
  let r := r.modCoh m c.idx fun c => { c with invs := c.invs.filter fun x => x.house ≠ i.house }
  let r := r.rmEvent m Code.snoopLost (some (blkPa b)) (path := unitRoom m :: r.routePath i.house)
  let r := match r.dirFind m b with
    | some (w, e) =>
      if e.state = 3 && e.sharers.getLsbD i.house.toNat then
        (r.loseOwner m b).dirPut m (dirSet b) w {}
      else
        let s := e.sharers &&& ~~~(bit64 i.house)
        r.dirPut m (dirSet b) w (if s = 0 && e.state = 2 then {} else { e with sharers := s })
    | none => r
  r.cohPoll m

/-- SNOOP_LOST: DIR_TIMEOUT has passed since the first send. -/
def Run.snoopLost (r : Run) (m : Fin 64) (idx : Nat) : Run :=
  match (r.room m).cohs.find? fun c => c.idx = idx with
  | some c => match c.invs.find? fun i => decide (i.lostBy ≤ r.now) && r.c.tt.run with
    | some i => r.invLost m c i
    | none => r
  | none => r

def execSnoopLost (m : Fin 64) (idx : Nat) (s : State) : Host.Outcome State Fault Refusal :=
  .next (Run.finish s ((Run.start s).snoopLost m idx))

/-! ## Fills that time out (R77, R174) -/

/-- One waiter of a line or grant that timed out, or whose home is `dead`, completes without data from the home. -/
def Run.giveUp (r : Run) (m : Fin 64) (w : Waiter) (dead : Bool) : Run :=
  let it := w.item
  let line := paLine it.pa
  let r := if it.writes || it.op = .memInv || (it.reads && it.owns) then r.poisonNear m line dead else r
  if it.reads then
    if it.op = .rsvLoad then r.answerData m (roomCal m) it 0 true else r.giveData m it 0 true
  else
    let r := r.when (dead && it.writes) fun r =>
      (r.rmEvent m Code.lostWrite (some it.pa)).hostReport it.pa .fail .media
    if it.op = .rsvStore then r.answer (roomCal m) it.src (.data 0 true) true else r.answerDone m it

/-- A Held entry whose fill never came ends as after a poisoned fill (R109; log entry 41, DEDUCED). -/
def Run.heldLost (r : Run) (m : Fin 64) (line : BitVec 40) : Run :=
  match (r.room m).wbuf.find? fun e => e.line = line && e.st = .held with
  | some e => (r.modWb m e.seq fun e => { e with st := .open', poison := true, after := 0 }).poisonNear m line false
  | none => r

/-- The line that a read-modify-write waits for will not come: the entry holds poison, as after an uncorrectable read
(R108, R261; log entry 97, DEDUCED). -/
def Run.rmwGiveUp (r : Run) (m : Fin 64) (seq : Nat) : Run :=
  match (r.room m).wbuf.find? fun e => e.seq = seq with
  | some e =>
    let e' : WbEnt := { e with mask := fullMask, poison := true, after := 0 }
    let r := r.modWb m seq fun _ => e'
    let r := r.when e.needCel fun r => r.homeWrite m e'
    (r.twinKick m e.line).wbSweep m
  | none => r

/-- A recovery read has no answer: the line is treated as in a region that is not mirrored (R261, R263, R313). -/
def Run.twinGiveUp (r : Run) (m : Fin 64) (b : Block) (x : TwinRead) : Run :=
  match x.rmw with
  | some n => r.rmwGiveUp m n
  | none =>
    if x.nearFix then match r.liveEnt m b with
      | some (w, e) =>
        if e.state = 6 || !(e.valid.getLsbD x.line) then r
        else if e.dirty.getLsbD x.line then r.nearPoison m (r.setOf b) w b x.line 0
        else r.setTag m (r.setOf b) w { e with valid := clrBit16 e.valid x.line }
      | none => r
    else
      let (c, idx) := r.homePlace b x.line
      if (r.chan c).twinQ.contains idx then
        (r.modChan c fun y => { y with twinQ := y.twinQ.filter fun i => i ≠ idx }).poisonLater c idx
      else r

/-- Lines whose fill, or whose recovery read, has had no answer in time. -/
def Trk.lateLines (t : Trk) (now : Nat) : List (Fin 16) :=
  ((t.pend.filter fun x => decide (x.2 ≤ now)).map (·.1)) ++
    ((t.twins.filter fun x => decide (x.by' ≤ now)).map (·.line))

def Trk.grantLate (t : Trk) (now : Nat) : Bool := t.grant = .asked && decide (t.grantBy ≤ now)

/-- The tracker without what has timed out. -/
def Trk.timedOut (t : Trk) (now : Nat) : Trk :=
  { t with pend := t.pend.filter fun x => !(decide (x.2 ≤ now)),
           twins := t.twins.filter fun x => !(decide (x.by' ≤ now)),
           upg := if t.grantLate now then 0 else t.upg, grant := if t.grantLate now then .none else t.grant }

/-- Give up the timed-out lines and grant of a tracker. -/
def Run.trkTimeout (r : Run) (m : Fin 64) (t : Trk) : Run :=
  let late := t.lateLines r.now
  let (r, ws) := r.pullWaiters m fun w =>
    (w.why = .fill t.idx && late.contains (paLineNo w.item.pa)) || (w.why = .grant t.idx && t.grantLate r.now)
  let home := r.homeOf t.blk t.attr.mirror
  let r := r.forEach ws fun w r => r.giveUp m w (r.dead home)
  let r := r.forEach late fun l r => r.heldLost m (blkLine t.blk l)
  let now := r.now
  let r := r.modTrk m t.idx fun t => t.timedOut now
  let r := r.forEach (t.twins.filter fun x => decide (x.by' ≤ now)) fun x r => r.twinGiveUp m t.blk x
  let addr := (late.head?.map fun l => linePa (blkLine t.blk l)).getD (blkPa t.blk)
  let r := r.rmEvent m Code.fillTimeout (some addr) (path := unitRoom m :: r.routePath home)
  r.trkSettle m t.idx

/-- FILL_TIMEOUT. -/
def Run.fillTimeout (r : Run) (m : Fin 64) (idx : Nat) : Run :=
  match (r.room m).trks.find? fun t => t.idx = idx && r.c.tt.run with
  | some t => if !(t.lateLines r.now).isEmpty || t.grantLate r.now then r.trkTimeout m t else r
  | none => r

def execFillTimeout (m : Fin 64) (idx : Nat) (s : State) : Host.Outcome State Fault Refusal :=
  .next (Run.finish s ((Run.start s).fillTimeout m idx))

/-- RSV_LEASE_EXPIRE (R203). SAFE, which breaks every reservation when it begins, changes no Room (R27). -/
def Run.leaseEnd (r : Run) (m : Fin 64) : Run := if r.mode = .safe then r else r.rsvBreak m fun v => decide (v.endsAt ≤ r.now)

def execRsvLeaseExpire (m : Fin 64) (s : State) : Host.Outcome State Fault Refusal :=
  .next (Run.finish s ((Run.start s).leaseEnd m))

end Sys2Proof.Machine
end

