-- ==== Sys2Proof/Machine/Walker.lean ====
section
/-! DEFINITION. The walker and its jobs, the trim, and the ends of the jobs that all Rooms share
(R82–R90, R165, R173, R174, R258, R270, R355, R356, R436). -/
namespace Sys2Proof.Machine
open Sys2Proof

/-! ## Jobs begin (R83, R84, R86, R89) -/

def Run.modJobs (r : Run) (m : Fin 64) (f : List Job → List Job) : Run :=
  r.modRoom m fun y => { y with jobs := f y.jobs }

/-- A job begins in a Room; in LOAD, CHECK and FILL it ends in the same cc, and a fenced Room runs none (R83, R90). -/
def Run.jobStart (r : Run) (m : Fin 64) (k : JobKind) : Run :=
  if r.mode = .load || r.mode = .check || r.mode = .fill || r.fenced (unitRoom m) then r
  else r.modJobs m fun js =>
    (js.filter fun j => j.kind ≠ k) ++ [{ kind := k, left := 32768, start := (r.room m).walkSet }]

def fin16 (n : Nat) : Fin 16 := ⟨n % 16, Nat.mod_lt _ (by decide)⟩

/-- Bit w of RM_WAYDIS becomes 1: the way-disable job of w begins (R84). -/
def Run.wayDisable (r : Run) (m : Fin 64) (w : Fin 16) : Run :=
  if r.bit (rmBase m + 0x20) w then r
  else (r.setReg (rmBase m + 0x20) (r.reg (rmBase m + 0x20) ||| (1 <<< w.val))).jobStart m (.wayDis w)

/-- Bit w is cleared: the way takes allocations again, and its job stops (R84). -/
def Run.wayEnable (r : Run) (m : Fin 64) (w : Fin 16) : Run :=
  (r.setReg (rmBase m + 0x20) (setBit (r.reg (rmBase m + 0x20)) w false)).modJobs m fun js =>
    js.filter fun j => j.kind ≠ .wayDis w

/-- RM_WAYWALK.WAYS. -/
def Room.wayWalk (y : Room) : BitVec 16 := y.jobs.foldl (fun acc j => match j.kind with
  | .wayDis w => setBit16 acc w
  | _ => acc) 0

/-- Retire a near slot's set and way (R258): recorded in a free RM_RETIREk, and its entry leaves on the walker's
visit; with none free, the whole way is disabled. -/
def Run.retireSlot (r : Run) (m : Fin 64) (set : Nat) (way : Fin 16) : Run :=
  let r := r.rmEvent m Code.blockRetired
  match (List.range 8).find? fun k => !(r.bit (rmBase m + 0x400 + 8 * k) 15) with
  | some k =>
    ((r.setReg (rmBase m + 0x400 + 8 * k) (set ||| 0x8000)).setReg (rmBase m + 0x404 + 8 * k) way).jobStart m
      (.retire set way)
  | none => r.wayDisable m way

/-! ## Shared ends (R86, R89, R90, R165, R436) -/

def JobKind.isDrain : JobKind → Bool
  | .classDrain _ => true
  | _ => false
def JobKind.isFlush : JobKind → Bool
  | .flush _ => true
  | _ => false

/-- Some pool address hashes to Room m: m lies in the span of the columns of the Room hash (R49). -/
def Run.roomUsed (r : Run) (m : Nat) : Bool :=
  let cols := (List.range 36).map fun i => gather 6 fun k => (r.blkMask 0x800 k).testBit i
  let rows := cols.foldl rankStep []
  (rows.foldl (fun v w => if v.testBit w.log2 then v ^^^ w else v) m) = 0

/-- The recovery sweep of a fenced Room has ended (R90): it begins when the fallback table runs; a Room that the
Floorplan leaves unused has no fallback, and no block to sweep (R221, R553). -/
def Run.sweepEnded (r : Run) (m : Fin 64) : Bool :=
  !(r.roomUsed m) || match (r.room (r.cover m)).sweep with
    | some s => s.lost = m && r.sweepLeft (r.cover m) = 0
    | none => false

/-- No Room still runs a job of this kind; a fenced Room has ended when its covering Room's sweep has (R90). -/
def Run.allEnded (r : Run) (f : JobKind → Bool) : Bool :=
  allRooms.all fun m => if r.fenced (unitRoom m) then r.sweepEnded m else !((r.room m).jobs.any fun j => f j.kind)

/-- RESILVER has read every line of the home frame, and no copy is unacknowledged (R165). -/
def Run.resilverEnded (r : Run) : Bool :=
  decide (4194304 ≤ r.c.rjob.next) && !(allRooms.any fun m => !(r.room m).resils.isEmpty || (r.room m).wbuf.any fun e => e.resil)

/-- A switch of tables is requested (R219): it waits for the next seam boundary. -/
def Run.ttRequest (r : Run) (t : Nat) : Run :=
  if r.c.tt.run then r.modTt fun x => { x with pend := true, next := t, pendCc := r.c.cc } else r

/-- COOL while the thermal warning is asserted, else NOMINAL (R219). -/
def Run.homeTable (r : Run) : Nat := if r.c.thm.warn then 1 else 0

/-- The Rooms' handback jobs, and the sweep of the fenced Room, have ended (R173, R397; log entry 47, DEDUCED). -/
def Run.handbackOver (r : Run) : Bool := r.allEnded (· = .handback)

/-- The return of a fenced unit (R397): the switch back is requested when the handback has ended, and again when the
Timetable has stopped and restarted since. -/
def Run.returnCheck (r : Run) : Run :=
  let r := if r.c.fbx.phase = 1 && r.handbackOver then r.modFbx fun x => { x with phase := 2 } else r
  if r.c.fbx.phase = 2 && !r.c.tt.pend then r.ttRequest r.homeTable else r

/-- Operations of all Rooms end when every Room has ended its own part. -/
def Run.jobsCheck (r : Run) : Run :=
  let r := if r.c.cdrainBusy && r.allEnded (·.isDrain) then
    { r with c := { r.c with cdrainBusy := false, cdrainDone := true } }.vector 5 else r
  let r := if r.c.csweepBusy && r.allEnded (· = .staleSweep) then { r with c := { r.c with csweepBusy := false } }.vector 5
    else r
  let r := if r.c.rjob.busy && (if r.c.rjob.resilver then r.resilverEnded else r.allEnded (·.isFlush)) then
    { r with c := { r.c with rjob := { r.c.rjob with busy := false, done := true } } }.vector 5 else r
  let r := if r.mode = .join && !r.c.mod.rejoin && r.allEnded (· = .rejoin) then
    r.modMod fun x => { x with rejoin := true } else r
  r.returnCheck

/-! ## A visit -/

/-- A live entry holds a line whose slot lies in the refuge (R270). -/
def Run.inRefuge (r : Run) (m : Fin 64) (set way : Nat) (e : TagEnt) : Bool :=
  (r.room m).refuge && decide (way + 1 < r.nearWays) && allLines.any fun l =>
    e.valid.getLsbD l && r.lostChan (r.chanOf (r.nearCell m set way) l)

/-- The job takes the live entry of this way out of the tags. -/
def Run.jobEvicts (r : Run) (m : Fin 64) (set way : Nat) (e : TagEnt) : JobKind → Bool
  | .wayDis w => way = w.val
  | .retire s w => s = set && w = way
  | .flush g => blkRegion (r.entBlk m set e) = g
  | .handback => r.roomOf (r.entBlk m set e) ≠ m
  | .refugeRelease => r.inRefuge m set way e
  | .rejoin => (r.attrOf (r.entBlk m set e)).kind = kindShared
  | _ => false

/-- What the walker does with one entry of the set. -/
inductive WalkAct | keep | evict | drain | drop
deriving DecidableEq, Repr

def Run.walkAct (r : Run) (m : Fin 64) (set way : Nat) : WalkAct :=
  let e := r.tag m set way
  let js := (r.room m).jobs
  if r.stale e then (if js.any (·.kind = .staleSweep) then .drop else .keep)
  else if !(r.live e) then .keep
  else if js.any fun j => r.jobEvicts m set way e j.kind then .evict
  else if e.dirty ≠ 0 && js.any (fun j => j.kind = .classDrain e.cls) then .drain
  else .keep

/-- Move one dirty line of a class drain to a COPY entry, which leaves it clean: its Open write drains first, and the read
of its near copy follows every earlier write of the line (R86, R244). -/
def Run.copyLine (r : Run) (m : Fin 64) (b : Block) (set way : Nat) (e : TagEnt) (l : Fin 16) : Run :=
  let r := match (r.room m).wbOpen (blkLine b l) with
    | some w => (r.modWb m w.seq fun w => { w with st := .issued }).drainNear m w
    | none => r
  let a := { r.attrOf b with tenant := e.tenant, cls := e.cls }
  let (r, i) := r.mudAdd m (blkLine b l) a set way .copy .loading 0 0 false
  (r.modTag m set way fun e => { e with dirty := clrBit16 e.dirty l }.settle).mudRead m b set way l e i

/-- The line's Open write was allocated in this core cycle, and cannot drain in it (R131). -/
def Run.wbYoung (r : Run) (m : Fin 64) (line : BitVec 40) : Bool :=
  ((r.room m).wbOpen line).any fun w => w.born = r.c.cc

/-- A class drain moves the dirty lines of an entry while the Mudroom has room; the flag says that all have gone. -/
def Run.drainLines (r : Run) (m : Fin 64) (set way : Nat) : Run × Bool :=
  let e := r.tag m set way
  let b := r.entBlk m set e
  (dirtyLines e).foldl (fun x l =>
    if x.1.mudFree m = 0 || x.1.wbYoung m (blkLine b l) then (x.1, false)
    else (x.1.copyLine m b set way (x.1.tag m set way) l, x.2)) (r, true)

/-- Stale dirty lines are discarded (R89). -/
def Run.dropStale (r : Run) (m : Fin 64) (set way : Nat) : Run :=
  (r.rmCount m 0x54 (popcount (r.tag m set way).dirty)).setTag m set way {}

/-- The walker does with one way what its jobs ask, as far as the Mudroom has room; an entry in Filling or Evicting waits
(R83). The flag says that nothing is left to do. -/
def Run.walkWay (r : Run) (m : Fin 64) (set way : Nat) : Run × Bool :=
  let e := r.tag m set way
  match r.walkAct m set way with
  | .keep => (r, true)
  | act =>
    if e.busy then (r, false)
    else match act with
      | .drop => (r.dropStale m set way, true)
      | .evict => if r.mudFits m e then (r.evict m set way, true) else (r, false)
      | _ => r.drainLines m set way

def waysList : List Nat := List.range 16

/-- Every way of the set. A visit that needs more Mudroom entries than are free does what it can, in way order, and
repeats the set for the rest (R83; log entry 99, DESIGN CHOICE). -/
def Run.walkWays (r : Run) (m : Fin 64) (set : Nat) : Run × Bool :=
  waysList.foldl (fun x w =>
    let (r, ok) := (x.1.tagStateSeen m set w).walkWay m set w
    (r, x.2 && ok)) (r, true)

/-- The job frees this Screen entry (R165, R173, R436). -/
def Run.jobFreesScn (r : Run) (m : Fin 64) (e : ScnEnt) : JobKind → Bool
  | .flush g => blkRegion (granBlk e.gran) = g
  | .handback => r.roomOf (granBlk e.gran) ≠ m
  | .rejoin => (r.attrOf (granBlk e.gran)).kind = kindShared && !(r.isHome (granBlk e.gran))
  | _ => false

def Run.walkScn (r : Run) (m : Fin 64) (set way : Nat) : Run :=
  let e := r.scn m set way
  if e.pres ≠ 0 && (r.room m).jobs.any fun j => r.jobFreesScn m e j.kind then
    match r.newCoh m { idx := 0, blk := granBlk e.gran, gran := some (e.gran.extractLsb' 0 2), job := .freeScn set way }
        false with
    | some (r, i) => r.biEntry m i e .inv
    | none => r
  else r

/-- A Screen or directory entry of the set must be freed, and cannot be for now: another tracker holds it, its block has
fills in flight (R71), or the pool is full. -/
def Run.walkPool (r : Run) (m : Fin 64) (set : Nat) : Bool :=
  let js := (r.room m).jobs
  let scn := if set < 16384 then (waysList.map fun w => r.scn m set w).filter fun e =>
      e.pres ≠ 0 && js.any (fun j => r.jobFreesScn m e j.kind) else []
  let dir := if set < 2048 then (waysList.map fun w => r.dir m set w).filter fun e =>
      e.state ≠ 0 && js.any (fun j => match j.kind with
        | .flush g => blkRegion (dirBlk r.myId set e) = g
        | .handback => r.roomOf (dirBlk r.myId set e) ≠ m
        | _ => false) else []
  (scn.any fun e => (r.cohHolds m (granBlk e.gran) (some e.gran)).isSome || (r.room m).filling (granBlk e.gran)) ||
    (dir.any fun e => (r.cohHolds m (dirBlk r.myId set e) none).isSome) ||
    decide (48 < (r.room m).cohs.length + scn.length + dir.length)

def Run.walkDir (r : Run) (m : Fin 64) (set way : Nat) : Run :=
  let js := (r.room m).jobs
  let r := r.forEach js fun j r => match j.kind with
    | .purge d => r.purgeEnt m r.myId set way d
    | _ => r
  let e := r.dir m set way
  let b := dirBlk r.myId set e
  let frees : Bool := js.any fun j => match j.kind with
    | .flush g => blkRegion b = g
    | .handback => r.roomOf b ≠ m
    | _ => false
  if e.state ≠ 0 && frees then
    match r.newCoh m { idx := 0, blk := b, job := .home b false true } false with
    | some (r, i) => r.snoopAll m i b false e.houses (e.state = 3)
    | none => r
  else r

/-- The walker moves on to the next set, and every job has made one visit more. -/
def Run.walkNext (r : Run) (m : Fin 64) : Run :=
  r.modRoom m fun y =>
    { y with walkSet := (y.walkSet + 1) % 32768,
             refugeWalk := y.refugeWalk || y.jobs.any fun j => j.left ≤ 1 && y.refuge &&
               j.kind = .wayDis (fin16 (r.nearWays - 1)),
             jobs := (y.jobs.map fun (j : Job) => { j with left := j.left - 1 }).filter fun j => j.left ≠ 0 }

/-- One visit of every active job to the walker's set; it repeats the set while something there is left to do (R83). -/
def Run.visit (r : Run) (m : Fin 64) : Run :=
  let set := (r.room m).walkSet
  let (r, ok) := r.walkWays m set
  if !ok || r.walkPool m set then r.cohPoll m
  else
    let r := r.when (decide (set < 16384)) fun r => r.forEach waysList fun w r => r.walkScn m set w
    let r := r.when (decide (set < 2048)) fun r => r.forEach waysList fun w r => r.walkDir m set w
    ((r.walkNext m).cohPoll m).jobsCheck

/-- What S3 finds in the sets that a visit reads (R92, R145, R150). -/
def Run.visitUpsets (r : Run) (m : Fin 64) (set : Nat) (u : Upset) : Run :=
  let r := r.tagUpsets m set u
  let r := r.when (decide (set < 16384)) fun r => r.scnUpsets m set u
  r.when (decide (set < 2048)) fun r => r.dirUpsets m u

/-- WALKER_VISIT: in a Room-entry slot of code 0x52. -/
def Run.walkerVisit (r : Run) (m : Fin 64) (u : Upset) : Run :=
  if r.fenced (unitRoom m) || (r.room m).jobs.isEmpty then r
  else r.inSlot m.val 0x52 fun r => (r.visitUpsets m (r.room m).walkSet u).visit m

def execWalkerVisit (v : Visit) (s : State) : Host.Outcome State Fault Refusal :=
  .next (Run.finish s ((Run.start s).walkerVisit v.m v.upset))

/-! ## Trim (R355, R356) -/

/-- Ways of the set that trim's first step evicts. -/
def Run.trimWays (r : Run) (m : Fin 64) (set : Nat) : List Nat :=
  waysList.filter fun w =>
    let e := r.tag m set w
    r.live e && !e.busy && !((r.cls e.cls).ways.getLsbD w)

/-- The way that trim's second step evicts. -/
def Run.trimOver (r : Run) (m : Fin 64) (set : Nat) : Option Nat :=
  let allowed := waysMask fun w =>
    let e := r.tag m set w
    r.live e && !e.busy && r.atQuota e.tenant && decide (0 < r.over e.tenant)
  if allowed = 0 then none else some (plruWalk (mget 0 r.m.plru (plruKey m set)).toNat allowed 4 1)

/-- One trim visit (R356): what it removes it removes together, or the Mudroom has too few free entries and the set
stays as it is. -/
def Run.trimStep (r : Run) (m : Fin 64) : Run :=
  let set := (r.room m).trimSet
  let ws := match r.trimWays m set with
    | [] => (r.trimOver m set).toList
    | ws => ws
  if ((r.room m).jobs ≠ [] && (r.room m).walkSet = set) ||
      decide (r.mudFree m < (ws.map fun w => (dirtyLines (r.tag m set w)).length).sum) then r
  else
    (r.forEach ws fun w r => (r.evict m set w).rmCount m 0x74 1).modRoom m fun y =>
      let clean := if ws.isEmpty then y.trimClean + 1 else 0
      { y with trimSet := (set + 1) % 32768, trimClean := clean, trimWork := decide (clean < 32768) }

/-- TRIM_VISIT: in a Room-entry slot that is idle (R218). -/
def Run.trimVisit (r : Run) (m : Fin 64) (u : Upset) : Run :=
  if r.fenced (unitRoom m) || !(r.room m).trimWork || !(r.bit 0xC00830 0) || !(r.canIdle m.val) then r
  else (((r.grant m.val).tagUpsets m (r.room m).trimSet u).trimStep m).cohPoll m

def execTrimVisit (v : Visit) (s : State) : Host.Outcome State Fault Refusal :=
  .next (Run.finish s ((Run.start s).trimVisit v.m v.upset))

end Sys2Proof.Machine
end

