-- ==== Sys2Proof/Machine/CellarReturn.lean ====
section
/-! DEFINITION. What the channels do: command issue, returned reads and their errors, poison rewrites, the scrubber,
RESILVER, the recovery sweep, the rebuild sequencer and FILL (R244–R275). -/
namespace Sys2Proof.Machine
open Sys2Proof

/-! ## Issue (R244, R105) -/

/-- CELLAR_COMMAND_ISSUE: in a slot of code 0x80 + sel, the oldest command of Room `sel` that fits. A write stores its
line; a read takes the line as it stands and is in flight. -/
def Run.celIssue (r : Run) (c : Fin 16) (sel : Nat) : Run :=
  if r.fenced (unitChan c) || r.fenced sel then r
  else match r.nextCmd c sel with
    | some (i, x) =>
      r.inSlot (160 + c.val) (0x80 + sel) fun r =>
        let r := r.modChan c fun y => { y with queue := y.queue.eraseIdx i }
        let r := (r.ddr c x.write x.idx).charge x.charge .cellar 1 x.tin
        if x.write then
          let r := (r.freshWrite c x.idx).putLine c x.idx (r.encrypt x.tenant x.pa x.data x.md)
          match x.wb with
          | some n => (r.modWb x.m n fun e => { e with needCel := false }).wbSweep x.m
          | none => r
        else r.modChan c fun y =>
          { y with flight := y.flight ++ [{ x with issuedAt := r.now, got := some (r.line c x.idx) }] }
    | none => r

def execCellarCommandIssue (c : Fin 16) (sel : Nat) (s : State) : Host.Outcome State Fault Refusal :=
  .next (Run.finish s ((Run.start s).celIssue c sel))

/-! ## Which line a line index is (R46–R48, R263, R269) -/

/-- The Room, set, way and line whose near copy lies at line index `idx` of channel c: in the refuge, a line of the
lost channel. -/
def Run.nearSlotOf (r : Run) (c : Fin 16) (idx : Nat) : Fin 64 × Nat × Nat × Fin 16 :=
  let n := idx - r.nearBase
  let way := n % r.nearWays
  let set := n / r.nearWays % 32768
  let m : Fin 64 := ⟨n / r.nearWays / 32768 % 64, Nat.mod_lt _ (by decide)⟩
  match allChans.find? fun x => r.lostChan x with
  | some x =>
    if (r.room m).refuge && way + 1 = r.nearWays then
      let w := (allChans.filter fun y => y ≠ x).idxOf c
      (m, set, w, r.lineIn (r.nearCell m set w) x)
    else (m, set, way, r.lineIn idx c)
  | none => (m, set, way, r.lineIn idx c)

/-- The region whose home frame holds line index `idx`, and whether this House is its home (R279). -/
def Run.frameRgn (r : Run) (idx : Nat) : Option (BitVec 18 × Bool) :=
  let w := (mget 0 r.m.frames (idx / 262144)).toNat
  if w.testBit 31 then
    let twin := w.testBit 24
    some ((if twin then BitVec.ofNat 6 (bitsOf w 17 12) else r.myId) ++ BitVec.ofNat 12 w, !twin)
  else none

/-- The pool line at line index `idx` of channel c of region n. -/
def Run.frameLine (r : Run) (n : BitVec 18) (c : Fin 16) (idx : Nat) : BitVec 40 :=
  blkLine (n ++ BitVec.ofNat 18 (idx % 262144)) (r.lineIn idx c)

/-! ## Counts and events of a read -/

/-- Who met the fault: kind, number and access of R373. -/
def Run.masterOf (r : Run) : Src → Nat × Nat × Nat
  | .host _ p _ => (1, p.val, 1)
  | .rsv _ p _ _ => (1, p.val, 1)
  | .land _ p => (1, p.val, 2)
  | .fab f => (3, ((r.c.fab.kept.find? fun e => e.1 = f).map fun e => e.2.2).getD 0, 3)
  | .house => (0, 0, 0)

/-- LINE_UE of either severity (R261), with its report to the hosts (R347). -/
def Run.lineUe (r : Run) (c : Fin 16) (major : Bool) (cause : Nat) (pa : PoolAddr) (ms : Nat × Nat × Nat) : Run :=
  r.chEvent c (if major then Code.lineUeMajor else Code.lineUeMinor) (some pa) 0 cause ms.1 ms.2.1 ms.2.2

/-- The pool address of a home line, by its line index. -/
def Run.frameAddr (r : Run) (c : Fin 16) (idx : Nat) : Option PoolAddr :=
  (r.frameRgn idx).map fun x => linePa (r.frameLine x.1 c idx)

/-- A corrected line goes to the counters and the repeat corrector; the remap table full (R258). -/
def Run.corrected (r : Run) (c : Fin 16) (idx : Nat) (lc : BitVec 2) (e : ErrPat) : Run :=
  if (badSyms lc e).isEmpty then r
  else
    let (r, full) := (r.countCorrected c ((r.chan c).rankOf idx) lc e true).repeatCount c idx
    if full then
      if idx < r.nearBase then r.chEvent c Code.remapFull (r.frameAddr c idx)
      else
        let (m, set, w, _) := r.nearSlotOf c idx
        r.retireSlot m set (fin16 w)
    else r

/-- The twin copy, or the home line, of a Mirror line can be read from the other House (R261, R268). -/
def Run.twinAlive (r : Run) (b : Block) (a : Attr) : Bool :=
  a.mirror && !(r.dead (r.partner b)) && r.partner b ≠ r.myId

/-! ## A demand read returns (R252, R261) -/

/-- A read of an item finds its near line uncorrectable. -/
def Run.nearUe (r : Run) (m : Fin 64) (it : Item) (c : Fin 16) (cause : Nat) (d : LineData) : Run :=
  let b := paBlock it.pa
  let l := paLineNo it.pa
  match r.liveEnt m b with
  | some (w, e) =>
    if e.state = 6 then r.addWaiter m it .ready
    else if e.dirty.getLsbD l && !it.attr.mirror then
      let r := r.lineUe c true cause it.pa (r.masterOf it.src)
      let r := r.nearPoison m (r.setOf b) w b l d
      let r := r.when (it.op = .rsvLoad) fun r => r.rsvUnplace m it
      r.answerData m (roomCal m) it 0 true
    else
      let r := r.lineUe c false cause it.pa (r.masterOf it.src)
      (r.setTag m (r.setOf b) w { e with valid := clrBit16 e.valid l }).addWaiter m it .ready
  | none => r.addWaiter m it .ready

/-- A read of an item finds its home line uncorrectable. -/
def Run.homeUe (r : Run) (m : Fin 64) (it : Item) (c : Fin 16) (idx cause : Nat) : Run :=
  let asked : Bool := match it.src with
    | .fab f => f.twin
    | _ => false
  if r.twinAlive (paBlock it.pa) it.attr && r.isHome (paBlock it.pa) && !asked then
    let r := r.twinLater c idx
    (r.lineUe c false cause it.pa (r.masterOf it.src)).readTwin m it
  else
    let r := (r.lineUe c true cause it.pa (r.masterOf it.src)).poisonLater c idx
    let r := r.when (it.op = .rsvLoad) fun r => r.rsvUnplace m it
    r.answerData m (roomCal m) it 0 true

/-- What a channel has for a Room sets out toward it, in a slot of code 0x5A. -/
def Run.toRoom (r : Run) (c : Fin 16) (m : Fin 64) (x : CelRet) : Run := r.post (chanCal c) 0x5A (.ret m x)

/-- The read of a read-modify-write has come: the merged line goes back in front of the channel's queue, and to the Room
(R108). -/
def Run.rmwWrite (r : Run) (m : Fin 64) (n : Nat) (x : CelCmd) (c : Fin 16) (d : LineData) (poison : Bool) : Run :=
  let data := mergeLine d x.data x.mask
  let bad := x.md.poison || poison
  let md : Meta := match x.near with
    | some n => { n with poison := bad, lcode := x.md.lcode }
    | none => homeMeta x.tenant x.md.lcode bad
  let r := (r.cancelRepeat c x.idx).modChan c fun y =>
    { y with queue := { x with write := true, data := data, md := md, near := none, purpose := none, wb := some n,
                               got := none } :: y.queue }
  (r.wbRetire m n).toRoom c m (.rmw n data bad)

/-- The line that a near read-modify-write needs is fetched again from the home (R261): the entry is Held until it
comes. -/
def Run.rmwRefill (r : Run) (m : Fin 64) (e : WbEnt) (set w : Nat) (t : TagEnt) : Option Run :=
  let b := lineBlk e.line
  let l := lineNo e.line
  (r.needTrk m b e.attr).map fun x =>
    let r := x.1.modTrk m x.2 fun t => { t with place := some (set, w) }
    let r := r.setTag m set w ({ t with valid := clrBit16 t.valid l }.inFlight true)
    let r := r.modWb m e.seq fun e => { e with st := .held, force := true }
    r.askFill m x.2 b e.attr (if e.attr.kind = kindShared then Op.fillO else Op.fillP) [l] false e.tin

/-- A read-modify-write finds its line uncorrectable (R108, R261). -/
def Run.rmwUe (r : Run) (m : Fin 64) (e : WbEnt) (x : CelCmd) (c : Fin 16) (cause : Nat) (d : LineData) : Run :=
  let pa := linePa e.line
  let b := lineBlk e.line
  let by' := r.masterOf ((e.owners ++ e.srcs).headD .house)
  let ms : Nat × Nat × Nat := if by'.1 = 0 then (2, m.val, 2) else (by'.1, by'.2.1, 2)
  match x.near with
  | none =>
    if r.twinAlive b e.attr && r.isHome b then match r.askTwin m e.line e.attr (some e.seq) e.tin with
      | some (r, _) => r.lineUe c false cause pa ms
      | none => (r.lineUe c true cause pa ms).rmwWrite m e.seq x c d true
    else (r.lineUe c true cause pa ms).rmwWrite m e.seq x c d true
  | some _ =>
    match r.liveEnt m b with
    | some (w, t) =>
      if t.dirty.getLsbD (lineNo e.line) && !e.attr.mirror then
        let r := (r.lineUe c true cause pa ms).rmwWrite m e.seq x c d true
        r.nearPoison m (r.setOf b) w b (lineNo e.line) (mergeLine d e.data e.mask)
      else match r.rmwRefill m e (r.setOf b) w t with
        | some r => r.lineUe c false cause pa ms
        | none => (r.lineUe c true cause pa ms).rmwWrite m e.seq x c d true
    | none => (r.lineUe c true cause pa ms).rmwWrite m e.seq x c d true

/-- The outcome of a read goes to what it was for. -/
def Run.celDeliver (r : Run) (c : Fin 16) (x : CelCmd) (rd : Rd) (raw : LineData) : Run :=
  match x.purpose with
  | some (.item m it home) =>
    if r.fenced (unitRoom m) then r
    else match rd with
      | .ok d p =>
        let r := r.when (p && it.op = .rsvLoad) fun r => r.rsvUnplace m it
        r.answerData m (chanCal c) it d p
      | .ue cause => if home then r.homeUe m it c x.idx cause else r.nearUe m it c cause raw
  | some (.mud m i) =>
    if r.fenced (unitRoom m) then r
    else match rd with
      | .ok d p => r.toRoom c m (.mud i d p)
      | .ue cause => (r.lineUe c true cause x.pa (2, m.val, 4)).toRoom c m (.mud i raw true)
  | some (.rmw m n) =>
    if r.fenced (unitRoom m) then r
    else match (r.room m).wbuf.find? fun e => e.seq = n with
      | some e => match rd with
        | .ok d p => r.rmwWrite m n x c d p
        | .ue cause => r.rmwUe m e x c cause raw
      | none => r
  | some (.answer m i l) =>
    if r.fenced (unitRoom m) then r
    else match rd with
      | .ok d p => r.toRoom c m (.answer i l d p)
      | .ue cause => (r.lineUe c true cause x.pa (2, m.val, 5)).toRoom c m (.answer i l raw true)
  | none => r

/-- CELLAR_READ_DONE: read `sel` in flight returns, and meets the errors `e` unless a remap line stands for it. -/
def Run.celDone (r : Run) (c : Fin 16) (sel : Nat) (e : ErrPat) : Run :=
  match (r.chan c).flight[sel]? with
  | some x =>
    if r.fenced (unitChan c) then r
    else
      let line := x.got.getD {}
      let rank := (r.chan c).rankOf x.idx
      let e := r.errOf c x.idx e
      let rd := r.rdLine c rank line e x.tenant x.pa x.near
      let r := (r.lineBack c).modChan c fun y => { y with flight := y.flight.eraseIdx sel }
      let r := r.when (r.decode c rank line e).isSome fun r => r.corrected c x.idx line.md.lcode e
      let r := match rd with
        | .ue cause => r.countUe c rank line.md.lcode cause e (some x.pa)
        | .ok _ _ => r
      r.celDeliver c x rd (r.decrypt x.tenant x.pa line)
  | none => r

def execCellarReadDone (c : Fin 16) (sel : Nat) (e : ErrPat) (s : State) : Host.Outcome State Fault Refusal :=
  .next (Run.finish s ((Run.start s).celDone c sel e))

/-- POISON_REWRITE (R261): in an idle slot that fits, the data as it stands is written with POISON = 1. -/
def Run.poisonRewrite (r : Run) (c : Fin 16) : Run :=
  if r.fenced (unitChan c) then r
  else match (r.chan c).poisonQ.find? fun i => r.idleFits c true i with
    | some i =>
      let r := (r.grant (160 + c.val)).ddr c true i
      let r := r.modChan c fun y => { y with poisonQ := y.poisonQ.filter fun j => j ≠ i }
      let x := r.line c i
      let st : BitVec 2 := if i < r.nearBase then 1 else 2
      (r.putLine c i { x with md := { x.md with poison := true, state := st } }).charge 0 .cellar 1 r.ftNs
    | none => r

def execPoisonRewrite (c : Fin 16) (s : State) : Host.Outcome State Fault Refusal :=
  .next (Run.finish s ((Run.start s).poisonRewrite c))

/-! ## A channel fails (R267) -/

def Run.chFail (r : Run) (c : Fin 16) (cause : Nat) : Run := r.chEvent c Code.chFail none 0 cause

/-- CHANNEL_READ_TIMEOUT: a read's data has not returned within 2 µs of its command. -/
def Run.chTimeout (r : Run) (c : Fin 16) : Run :=
  if (r.chan c).flight.any fun x => decide (x.issuedAt + usec 2 ≤ r.now) then r.chFail c 4 else r

def execChannelReadTimeout (c : Fin 16) (s : State) : Host.Outcome State Fault Refusal :=
  .next (Run.finish s ((Run.start s).chTimeout c))

/-- DDR_ALERT: ALERT_n persists through three CA-parity retries. -/
def execDdrAlert (c : Fin 16) (s : State) : Host.Outcome State Fault Refusal :=
  .next (Run.finish s ((Run.start s).chFail c 5))

/-- TCR_2X (R233): the channel's refresh doubles, with a Note, or returns to its rate. -/
def Run.tcr (r : Run) (c : Fin 16) (hot : Bool) : Run :=
  let was := (r.chan c).tcr2x
  (r.modChan c fun y => { y with tcr2x := hot }).when (hot && !was) fun r => r.chEvent c Code.tcr2x

def execTcr2x (c : Fin 16) (hot : Bool) (s : State) : Host.Outcome State Fault Refusal :=
  .next (Run.finish s ((Run.start s).tcr c hot))

/-! ## The scrubber (R262–R264) -/

/-- An idle read slot of channel c names this rank and bank group. -/
def Run.idleRead (r : Run) (c : Fin 16) (rank bg : Nat) : Bool :=
  r.canIdle (160 + c.val) && match r.curRecord (160 + c.val) with
    | some (_, w) => bitsOf w 1 0 = 0 && !(w.testBit 7) && bitsOf w 4 2 = bg && bitsOf w 6 5 = rank &&
        !(r.extraRefresh c)
    | none => false

def Run.scrubRuns (r : Run) : Bool :=
  r.bit 0x60100 0 && (r.mode = .join || r.mode = .run || r.mode = .degraded || r.mode = .drain || r.mode = .window)

/-- Lines of one rank and bank group. -/
def Run.scrubLines (r : Run) (c : Fin 16) : Nat := r.chGib * 4194304 / (8 * 2 ^ (r.chan c).rankBits)

/-- A scrub reads one line of a Mirror near copy from the twin, or from the home (R263, R313). -/
def Run.scrubTwin (r : Run) (m : Fin 64) (line : BitVec 40) (a : Attr) (near : Bool) : Run :=
  let b := lineBlk line
  let t := (r.region (blkRegion b)).twin
  let dst := if near && t ≠ r.myId && !(r.dead t) then t else if near then rgnHome (blkRegion b) else r.partner b
  if r.dead dst || dst = r.myId then r
  else match r.askOther m line a dst none near r.ftNs with
    | some (r, _) => r
    | none => r

/-- The scrubber finds a near line uncorrectable. -/
def Run.scrubNear (r : Run) (c : Fin 16) (idx cause : Nat) (raw : Line) : Run :=
  let (m, set, w, l) := r.nearSlotOf c idx
  let e := r.tag m set w
  let sc : Nat × Nat × Nat := (4, 0, 6)
  if !(r.live e) || !(e.valid.getLsbD l) || e.state = 6 then
    (r.putLine c idx Line.unwritten).chEvent c Code.slotUe none 0 cause 4 0 6
  else
    let b := r.entBlk m set e
    let line := blkLine b l
    let a := { r.attrOf b with tenant := e.tenant, cls := e.cls }
    if a.mirror then (r.lineUe c false cause (linePa line) sc).scrubTwin m line a true
    else if e.dirty.getLsbD l then
      (r.lineUe c true cause (linePa line) sc).nearPoison m set w b l (r.decrypt e.tenant (linePa line) raw)
    else (r.lineUe c false cause (linePa line) sc).setTag m set w { e with valid := clrBit16 e.valid l }

/-- The scrubber finds a line of a home frame uncorrectable. -/
def Run.scrubHome (r : Run) (c : Fin 16) (idx cause : Nat) : Run :=
  let sc : Nat × Nat × Nat := (4, 0, 6)
  match r.frameRgn idx with
  | some (n, _) =>
    let line := r.frameLine n c idx
    let b := lineBlk line
    let a := r.attrOf b
    if r.twinAlive b a then
      ((r.twinLater c idx).lineUe c false cause (linePa line) sc).scrubTwin (r.serving (r.roomOf b)) line a false
    else (r.lineUe c true cause (linePa line) sc).poisonLater c idx
  | none => (r.chEvent c Code.lineUeMajor none 0 cause 4 0 6).poisonLater c idx

/-- The lap has ended when every pointer of every channel in use has covered its lines. -/
def Run.lapEnd (r : Run) : Run :=
  let all := allChans.all fun c => r.lostChan c || !(r.chan c).trained ||
    (List.range (8 * 2 ^ (r.chan c).rankBits)).all fun i => (r.chan c).scrubDone.getLsbD i
  if all then
    let r := r.forEach allChans fun c r => r.modChan c fun y => { y with scrub := Vector.replicate 32 0, scrubDone := 0 }
    { r with c := { r.c with scrubLast := (r.now - r.c.scrubStart) / msec 1, scrubStart := r.now, scrubSlow := false,
                             lapNo := r.c.lapNo + 1 } }
  else r

/-- The line that a running RESILVER reads next, with its channel and line index. -/
def Run.resilNext (r : Run) : Option (BitVec 40 × Fin 16 × Nat) :=
  let j := r.c.rjob
  if !(j.busy && j.resilver) || decide (4194304 ≤ j.next) then none
  else
    let b : Block := j.region ++ BitVec.ofNat 18 (j.next / 16)
    some (blkLine b (fin16 j.next), r.homePlace b (fin16 j.next))

/-- RESILVER can read in this idle slot of channel c (R218). -/
def Run.resilFits (r : Run) (c : Fin 16) : Bool :=
  match r.resilNext with
  | some (_, d, idx) => d = c && !(r.lostChan c) && r.idleFits c false idx && !(r.lineBusy c idx)
  | none => false

/-- SCRUB_READ: the next line of the pointer of this rank and bank group, in an idle read slot that names them and that
RESILVER does not take, once the earlier writes of its line index have been carried out (R218, R244). -/
def Run.scrub (r : Run) (c : Fin 16) (rank : Fin 4) (bg : Fin 8) (e : ErrPat) : Run :=
  let i : Fin 32 := ⟨rank.val * 8 + bg.val, by omega⟩
  if !r.scrubRuns || r.lostChan c || (r.chan c).scrubDone.getLsbD i.val || !(r.idleRead c rank bg) ||
      decide (2 ^ (r.chan c).rankBits ≤ rank.val) || r.resilFits c ||
      r.lineBusy c ((r.chan c).nthLine rank bg ((r.chan c).scrub[i])) then r
  else
    let r := r.grant (160 + c.val)
    let n := (r.chan c).scrub[i]
    let idx := (r.chan c).nthLine rank bg n
    let line := r.line c idx
    let e := r.errOf c idx e
    let ended := decide (r.scrubLines c ≤ n + 1)
    let r := r.modChan c fun y =>
      { y with scrub := y.scrub.set i.val (n + 1) i.isLt,
               scrubDone := if ended then y.scrubDone ||| (1#32 <<< i.val) else y.scrubDone }
    let r := ((r.ddr c false idx).lineBack c).charge 0 .cellar 1 r.ftNs
    let ue (cause : Nat) : Run :=
      let r := (r.count32 0x60114 1).countUe c rank line.md.lcode cause e none
      if idx < r.nearBase then r.scrubHome c idx cause else r.scrubNear c idx cause line
    let r := match r.decode c rank line e with
      | none => ue 1
      | some y =>
        if y.md.state = 3 then ue 2
        else if (badSyms line.md.lcode e).isEmpty then r
        else (r.count32 0x60110 1).corrected c idx line.md.lcode e
    if ended then r.lapEnd else r

def execScrubRead (c : Fin 16) (rank : Fin 4) (bg : Fin 8) (e : ErrPat) (s : State) :
    Host.Outcome State Fault Refusal :=
  .next (Run.finish s ((Run.start s).scrub c rank bg e))

/-- SCRUB_SLOW (R264): the lap has lasted longer than SCB_LAP_MAX; once a lap. -/
def Run.slowLap (r : Run) : Run :=
  if r.scrubRuns && !r.c.scrubSlow && decide (r.reg 0x60104 * 1000 < (r.now - r.c.scrubStart) / msec 1) then
    { r with c := { r.c with scrubSlow := true } }.sysEvent 47 Code.scrubSlow
  else r

def execScrubSlow (s : State) : Host.Outcome State Fault Refusal := .next (Run.finish s (Run.start s).slowLap)

/-! ## RESILVER (R165, R166) -/

/-- One line of the home frame goes to the twin: as a write buffer entry that awaits the twin, unless a write of the
line already does. -/
def Run.resilverCopy (r : Run) (m : Fin 64) (x : Resil) : Run :=
  let y := r.room m
  if y.twinDue x.line || (y.wbOpen x.line).isSome then r
  else
    let e : WbEnt :=
      { idx := lowestFree (y.wbuf.map (·.idx)) 64, line := x.line, attr := x.attr, data := x.data, mask := fullMask,
        poison := x.poison, st := .issued, seq := y.seq, tin := r.ftNs, twinLater := true, resil := true, home := true,
        born := r.c.cc }
    let r := r.modRoom m fun y => { y with wbuf := y.wbuf ++ [e], seq := y.seq + 1 }
    (r.peak (rmBase m + 0x64) (y.wbuf.length + 1)).twinKick m x.line

/-- The pass of a RESILVER line through its Room's pipeline, in an idle Room-entry slot that trim has no use for (R165,
R218). -/
def Run.resilPass (r : Run) (m : Fin 64) : Run :=
  match (r.room m).resils with
  | x :: rest =>
    if !x.here || r.fenced (unitRoom m) || !(r.canIdle m.val) || r.wbFull m || ((r.room m).trimWork && r.bit 0xC00830 0) then r
    else ((r.grant m.val).modRoom m fun y => { y with resils := rest }).resilverCopy m x |>.jobsCheck
  | [] => r

/-- RESILVER_READ: the next line of the frame, in an idle read slot of its channel, once the earlier writes of its line
index have been carried out (R166, R244). -/
def Run.resilverRead (r : Run) (e : ErrPat) : Run :=
  match r.resilNext with
  | some (line, c, idx) =>
    let b := lineBlk line
    let a := r.attrOf b
    let m := r.serving (r.roomOf b)
    let next (r : Run) : Run := { r with c := { r.c with rjob := { r.c.rjob with next := r.c.rjob.next + 1 } } }.jobsCheck
    if r.fenced (unitRoom m) then r
    else if r.lostChan c || !(r.twinFor b a) then next r
    else if !(r.resilFits c) then r
    else
      let r := (((r.grant (160 + c.val)).ddr c false idx).lineBack c).charge 0 .cellar 1 r.ftNs
      let x := r.line c idx
      let rank := (r.chan c).rankOf idx
      let e := r.errOf c idx e
      let pass (r : Run) (d : LineData) (p : Bool) : Run :=
        let y : Resil := { line := line, attr := a, data := d, poison := p }
        next ((r.modRoom m fun z => { z with resils := z.resils ++ [y] }).toRoom c m (.resil line))
      match r.rdLine c rank x e a.tenant (linePa line) none with
      | .ok d p => pass (r.countRead c rank x e (some (linePa line))) d p
      | .ue cause =>
        pass (((r.countUe c rank x.md.lcode cause e (some (linePa line))).lineUe c true cause (linePa line)
          (2, m.val, 1)).poisonLater c idx) 0 true
  | none => r

def execResilverRead (e : ErrPat) (s : State) : Host.Outcome State Fault Refusal :=
  .next (Run.finish s ((Run.start s).resilverRead e))

/-! ## The recovery sweep (R273–R276) -/

/-- A sweep begins in the covering Room of a fenced Room. -/
def Run.sweepStart (r : Run) (lost : Fin 64) : Run :=
  r.modRoom (r.cover lost) fun y => { y with sweep := some { lost := lost, left := if r.nearWays = 0 then 0 else 32768 } }

/-- The set that the sweep reads: one that a request waits for, or the next in order. -/
def Sweep.target (s : Sweep) : Nat :=
  match s.cur with
  | some n => n
  | none => match s.front.find? fun n => !(s.done.contains n) && decide (s.next ≤ n) with
    | some n => n
    | none => s.next

def Sweep.begin (s : Sweep) (set ways : Nat) : Sweep :=
  if s.cur = some set then s
  else { s with cur := some set, front := s.front.filter fun n => n ≠ set,
                slots := (List.range ways).flatMap fun w => (List.range 16).map fun l => (w, l) }

/-- The lowest set from `n` on that is not in the list. -/
def skipDone (done : List Nat) : Nat → Nat → Nat
  | 0, n => n
  | k + 1, n => if done.contains n then skipDone done k (n + 1) else n

/-- One slot of the current set has been dealt with. -/
def Sweep.took (s : Sweep) (way line : Nat) : Sweep :=
  let slots := s.slots.filter fun x => x ≠ (way, line)
  match s.cur with
  | some set =>
    if slots.isEmpty then
      let done := if set = s.next then s.done else s.done ++ [set]
      let next := if set = s.next then skipDone done 32768 (set + 1) else s.next
      { s with slots := [], cur := none, done := done.filter fun n => decide (next ≤ n), next := next, left := s.left - 1 }
    else { s with slots := slots }
  | none => s

/-- A swept line goes home. None when this House serves it as home and has no write buffer entry for it. -/
def Run.sweepHome (r : Run) (m : Fin 64) (line : BitVec 40) (a : Attr) (d : LineData) (poison : Bool) : Option Run :=
  let b := lineBlk line
  let dst := r.homeOf b a.mirror
  if r.dead dst then
    some (((r.rmEvent m Code.lostWriteback (some (linePa line))).rmCount m 0x214 1).hostReport (linePa line) .fail .media)
  else if dst = r.myId then
    r.accept m { src := .house, op := .memWr, pa := linePa line, attr := a, data := d, mask := fullMask,
                 poison := poison, tin := r.ftNs } .home false
  else
    let f := r.mkMsg Op.wb dst line a (mkTag m 1023)
    some (r.hallMsg (roomCal m) { f with line := d, poison := poison } r.ftNs)

/-- The table of R274 for one slot. -/
def Run.sweepSlot (r : Run) (m lost : Fin 64) (set way : Nat) (c : Fin 16) (idx : Nat) (l : Fin 16) (e : ErrPat) :
    Option Run :=
  match r.shadow c ((r.chan c).rankOf idx) (r.line c idx) e with
  | none => some (r.chEvent c Code.sweepUnknown none 0 1 2 m)
  | some (md, ok) =>
    let r := r.charge md.tenant .cellar 1 r.ftNs
    if md.state = 2 && md.way = BitVec.ofNat 4 way && md.dirty then
      let b := r.blockOf lost set md.tagSh
      let a := { r.attrOf b with tenant := md.tenant }
      let line := blkLine b l
      if !(r.nearable b a) then some (r.rmEvent m Code.regionMismatch (some (linePa line)))
      else if md.epoch ≠ (r.cls a.cls).epoch then some (r.rmCount m 0x54 1)
      else match ok with
        | some y => (r.sweepHome m line a (r.decrypt md.tenant (linePa line) y) md.poison).map fun r => r.rmCount m 0x444 1
        | none => (r.sweepHome m line a 0 true).map fun r =>
          (r.rmCount m 0x448 1).lineUe c true 1 (linePa line) (2, m.val, 0)
    else some r

/-- SWEEP_READ: one slot of the set that the sweep rebuilds, in a command record that names Room m and that no demand
access of it fits (R275), once the earlier writes of its line index have been carried out: those of the lost Room are
among them (R244, R276). -/
def Run.sweepRead (r : Run) (m : Fin 64) (way line : Fin 16) (e : ErrPat) : Run :=
  match (r.room m).sweep with
  | some s =>
    if s.left = 0 || r.fenced (unitRoom m) then r
    else
      let set := s.target
      let s := s.begin set r.nearWays
      let blk := r.nearCell s.lost set way.val
      let c := r.chanOf blk line
      if !(s.slots.contains (way.val, line.val)) then r
      else if r.lostChan c then
        (r.modRoom m fun y => { y with sweep := some (s.took way line) }).jobsCheck
      else if (r.nextCmd c m.val).isSome || !(r.recFits c false blk) || r.lineBusy c blk then r
      else r.inSlot (160 + c.val) (0x80 + m.val) fun r =>
        let e := r.errOf c blk e
        let r := ((r.ddr c false blk).lineBack c).countRead c ((r.chan c).rankOf blk) (r.line c blk) e none
        match r.sweepSlot m s.lost set way c blk line e with
        | some r => (r.modRoom m fun y => { y with sweep := some (s.took way line) }).jobsCheck
        | none => r
  | none => r

def execSweepRead (m : Fin 64) (way line : Fin 16) (e : ErrPat) (s : State) : Host.Outcome State Fault Refusal :=
  .next (Run.finish s ((Run.start s).sweepRead m way line e))

/-! ## The rebuild sequencer (R270) and FILL (R265) -/

/-- The lines of a channel. -/
def Run.chLines (r : Run) : Nat := r.chGib * 4194304

def Run.modRebuild (r : Run) (f : Rebuild → Rebuild) : Run := { r with c := { r.c with rebuild := f r.c.rebuild } }

/-- The sequencer's own work on line index `idx`: a Mirror line is asked for and then written, another home line
becomes poison, and every other line takes the Unwritten pattern. -/
def Run.rebuildStep (r : Run) (c : Fin 16) (idx : Nat) : Run :=
  let next (r : Run) : Run := (r.ddr c true idx).modChan c fun y => { y with rebuildPtr := idx + 1 }
  if idx < r.nearBase then match r.frameRgn idx with
    | some (n, _) =>
      let line := r.frameLine n c idx
      let b := lineBlk line
      let a := r.attrOf b
      let lc := (r.cls a.cls).lcode
      if r.twinAlive b a then
        match r.c.rebuild.got with
        | some (d, p) =>
          next ((r.modRebuild fun x => { x with got := none, ask := none }).putLine c idx
            (r.encrypt a.tenant (linePa line) d (homeMeta a.tenant lc p)))
        | none =>
          if r.c.rebuild.ask = some line then r
          else
            let f := r.mkMsg Op.rdU (r.partner b) line a (mkTag (r.serving (r.roomOf b)) 1002)
            (r.modRebuild fun x => { x with ask := some line }).hallMsg (chanCal c)
              { f with twin := true, mask := lineMask [lineNo line] } r.ftNs 0x5C
      else next (r.putLine c idx (r.encrypt a.tenant (linePa line) 0 (homeMeta a.tenant lc true)))
    | none => next (r.putLine c idx Line.unwritten)
  else next (r.putLine c idx Line.unwritten)

/-- The sequencer has a command for its channel: a newer write of a line already copied, or the next line index, unless it
waits for the twin's answer. -/
def Run.rebuildReady (r : Run) (c : Fin 16) : Bool :=
  let x := r.c.rebuild
  let ptr := (r.chan c).rebuildPtr
  x.writing && x.ch = c && ((x.late.any fun w => decide (w.idx < ptr)) ||
    (decide (ptr < r.chLines) && (x.ask.isNone || x.got.isSome)))

/-- REBUILD_WRITE: in a slot of code 0x5C, a newer write of a line already copied, or the next line index. -/
def Run.rebuildWrite (r : Run) (c : Fin 16) : Run :=
  let x := r.c.rebuild
  if !(r.rebuildReady c) then r
  else
    let ptr := (r.chan c).rebuildPtr
    match x.late.find? fun w => decide (w.idx < ptr) with
    | some w => r.inSlot (160 + c.val) 0x5C fun r =>
        ((r.modRebuild fun x => { x with late := x.late.eraseP fun y => y = w }).ddr c true w.idx).putLine c w.idx
          (r.encrypt w.tenant w.pa w.data w.md)
    | none =>
      if x.ask.isSome && x.got.isNone then r
      else r.inSlot (160 + c.val) 0x5C fun r => r.rebuildStep c ptr

def execRebuildWrite (c : Fin 16) (s : State) : Host.Outcome State Fault Refusal :=
  .next (Run.finish s ((Run.start s).rebuildWrite c))

/-- CEL_FILL.LEFT: lines that remain in the slowest channel. -/
def Run.fillLeft (r : Run) : Nat :=
  ((allChans.filter fun c => !(r.lostChan c)).map fun c => r.chLines - (r.chan c).fillPtr).foldl max 0

/-- FILL_WRITE: the Unwritten pattern, in a data-access record whatever its DIR. -/
def Run.fillWrite (r : Run) (c : Fin 16) : Run :=
  let k := 160 + c.val
  let fits : Bool := match r.curRecord k with
    | some (_, w) => bitsOf w 1 0 = 0 && !(r.extraRefresh c) && !(r.xingFull (.celWrite c))
    | none => false
  let idx := (r.chan c).fillPtr
  if r.mode ≠ .fill || r.lostChan c || !(r.canIdle k) || !fits || decide (r.chLines ≤ idx) then r
  else (((r.grant k).ddr c true idx).putLine c idx Line.unwritten).modChan c fun y => { y with fillPtr := idx + 1 }

def execFillWrite (c : Fin 16) (s : State) : Host.Outcome State Fault Refusal :=
  .next (Run.finish s ((Run.start s).fillWrite c))

end Sys2Proof.Machine
end

