-- ==== Sys2Proof/Machine/Messages.lean ====
section
/-! DEFINITION. What a House does with the Falow messages that reach it, and with the death of another House
(R44, R66–R77, R113, R129, R151–R160, R164–R174, R294, R311–R313). -/
namespace Sys2Proof.Machine
open Sys2Proof

/-! ## Taking a message from the Doors -/

/-- No earlier message of the same House, class and block still waits (R162). -/
def Fabric.first (x : Fabric) (f : FMsg) : Bool :=
  match x.inbox.find? fun e => e.1.src = f.src && opClass e.1.op = opClass f.op && lineBlk e.1.addr = lineBlk f.addr with
  | some e => e.1 = f
  | none => false

/-- The delivered message, with its stamp and Door. -/
def Run.inboxOf (r : Run) (f : FMsg) (op : BitVec 8) : Option (Stamp × Nat) :=
  if f.op = op && r.c.fab.first f then (r.c.fab.inbox.find? fun e => e.1 = f).map (·.2) else none

def Run.unbox (r : Run) (f : FMsg) : Run :=
  r.modFab fun x => { x with inbox := x.inbox.eraseP fun e => e.1 = f }

/-- The Room that serves a message about a block. -/
def Run.roomFor (r : Run) (f : FMsg) : Fin 64 := r.serving (r.roomOf (lineBlk f.addr))

/-! ## Requests -/

/-- The House serves fabric requests (R27, R307). -/
def Run.fabServes (r : Run) : Bool :=
  r.mode = .run || r.mode = .degraded || r.mode = .drain || r.mode = .window || (r.mode = .join && r.c.fab.routed)

/-- A request of another House enters its Room, in a slot of its Door; the Door keeps it until the Room retires it.
In SAFE it is answered with poison (R27). -/
def Run.fabRequest (r : Run) (f : FMsg) (op : BitVec 8) (u : Upset) : Run :=
  match r.inboxOf f op with
  | some (t, d) =>
    let m := r.roomFor f
    if r.mode = .safe then (r.unbox f).refuseFab f t
    else if !r.fabServes || r.fenced (unitRoom m) || (r.room m).closed then r
    else r.inSlot m.val (0x48 + d) fun r =>
      ((r.unbox f).modFab fun x => { x with kept := x.kept ++ [(f, t, d)] }).fabEnter m f t u
  | none => r

def execFillP (f : FMsg) (s : State) : Host.Outcome State Fault Refusal :=
  .next (Run.finish s ((Run.start s).fabRequest f Op.fillP {}))
def execFillS (f : FabReq) (s : State) : Host.Outcome State Fault Refusal :=
  .next (Run.finish s ((Run.start s).fabRequest f.msg Op.fillS f.upset))
def execFillO (f : FabReq) (s : State) : Host.Outcome State Fault Refusal :=
  .next (Run.finish s ((Run.start s).fabRequest f.msg Op.fillO f.upset))
def execUpgrade (f : FabReq) (s : State) : Host.Outcome State Fault Refusal :=
  .next (Run.finish s ((Run.start s).fabRequest f.msg Op.upgrade f.upset))
def execRdU (f : FabReq) (s : State) : Host.Outcome State Fault Refusal :=
  .next (Run.finish s ((Run.start s).fabRequest f.msg Op.rdU f.upset))
def execWrU (f : FabReq) (s : State) : Host.Outcome State Fault Refusal :=
  .next (Run.finish s ((Run.start s).fabRequest f.msg Op.wrU f.upset))
def execWb (f : FabReq) (s : State) : Host.Outcome State Fault Refusal :=
  .next (Run.finish s ((Run.start s).fabRequest f.msg Op.wb f.upset))
def execMirrorWr (f : FMsg) (s : State) : Host.Outcome State Fault Refusal :=
  .next (Run.finish s ((Run.start s).fabRequest f Op.mirrorWr {}))

/-! ## DATA (R69, R109, R160, R261) -/

/-- Nothing has come between the item's pass and the end of its wait: no Screen entry that it must snoop, and no tracker
that holds it back (R139, R147). -/
def Run.stillClear (r : Run) (m : Fin 64) (it : Item) : Bool :=
  (r.screenPlan m it).isNone &&
    !((r.room m).cohs.any fun c => c.holds (paBlock it.pa) (some (paGran it.pa)) && c.stops it)

/-- The grant that a tracker holds serves its waiters, in order, and is used up (R156). -/
def Run.runGrant (r : Run) (m : Fin 64) (idx : Nat) : Run :=
  let (r, ws) := r.pullWaiters m fun w => w.why = .grant idx
  let r := r.forEach ws fun w r =>
    if r.stillClear m w.item then r.serve m { w.item with granted := true } else r.addWaiter m w.item .ready
  let f (t : Trk) : Trk := if t.grant = .held then { t with grant := .none } else t
  (r.modTrk m idx f).trkSettle m idx

/-- The grant was not given: its waiters start again. -/
def Run.dropGrant (r : Run) (m : Fin 64) (idx : Nat) : Run :=
  let w' (w : Waiter) : Waiter := if w.why = .grant idx then { w with why := .ready } else w
  (r.modRoom m fun y => { y with waiters := y.waiters.map w' }).modTrk m idx fun t => { t with grant := .none, upg := 0 }

/-- Rewrite what a recovery read was for: the near copy of the scrubber, the entry that waits for its line, or the
line of the home frame when nothing has been written to it since. -/
def Run.twinFix (r : Run) (m : Fin 64) (x : TwinRead) (f : FMsg) : Run :=
  let b := lineBlk f.addr
  let l := lineNo f.addr
  if x.nearFix then match r.liveEnt m b with
    | some (w, e) =>
      if e.valid.getLsbD l && e.state ≠ 6 && ((r.room m).wbOpen f.addr).isNone then
        let set := r.setOf b
        let e := { e with state := if f.poison then 4 else e.state }
        (r.setTag m set w e).nearWrite m
          { set := set, way := w, line := l, blk := b, data := f.line, tenant := e.tenant, tin := r.ftNs,
            md := nearMeta e w l (r.cls e.cls).lcode f.poison }
      else r
    | none => r
  else match x.rmw with
    | some n => match (r.room m).wbuf.find? fun e => e.seq = n with
      | some e =>
        let e' : WbEnt := { e with data := mergeLine f.line e.data e.mask, mask := fullMask, poison := e.poison || f.poison }
        let r := r.modWb m n fun _ => e'
        let r := if e.needCel then r.homeWrite m e' else r
        r.twinKick m f.addr
      | none => r
    | none =>
      let (c, idx) := r.homePlace b l
      if (r.chan c).twinQ.contains idx && !(r.lineBusy c idx) && !(r.lostChan c) then
        let a := r.attrOf b
        (r.modChan c fun y => { y with twinQ := y.twinQ.filter fun i => i ≠ idx }).chanCmd m c
          { m := m, idx := idx, write := true, pa := linePa f.addr, tenant := a.tenant, data := f.line,
            md := homeMeta a.tenant (r.cls a.cls).lcode f.poison, tin := r.ftNs }
      else r

/-- An answer to a recovery read: the line is put right, and whoever waits for it is answered. -/
def Run.dataTwin (r : Run) (m : Fin 64) (t : Trk) (f : FMsg) : Run :=
  let mine (x : TwinRead) : Bool := x.line = lineNo f.addr && x.dst = f.src
  let r := r.modTrk m t.idx fun t => { t with twins := t.twins.filter fun x => !(mine x) }
  let r := r.forEach (t.twins.filter mine) fun x r => r.twinFix m x f
  let (r, ws) := r.pullWaiters m fun w => w.why = .fill t.idx && paLine w.item.pa = f.addr
  (r.forEach ws fun w r => r.giveData m w.item f.line f.poison).trkSettle m t.idx

/-- A waiter whose line has come starts again without the ownership or the listing that it asks for, or when it must
snoop or wait first. `rdu` says that the line came by RD_U. -/
def Run.fillWaiter (r : Run) (m : Fin 64) (w : Waiter) (d : LineData) (poison owner rdu : Bool) : Run :=
  let it := w.item
  if (it.owns && it.attr.kind = kindShared && !owner) || (it.listed && rdu) || !(r.stillClear m it) then r.addWaiter m it .ready
  else if it.reads then r.giveData m it d poison
  else if it.writes then r.serve m { it with granted := owner }
  else r.giveDone m it

/-- The arriving line goes to the near copy that the tracker fills (R59, R69, R109). -/
def Run.install (r : Run) (m : Fin 64) (t : Trk) (l : Fin 16) (d : LineData) (poison covered : Bool) : Run :=
  match (if t.noinst.getLsbD l then none else t.place) with
  | some (s, w) =>
    let line := blkLine t.blk l
    let write (r : Run) (e : TagEnt) : Run :=
      if covered then r
      else r.nearWrite m { set := s, way := w, line := l, blk := t.blk, data := d, tenant := t.attr.tenant, tin := r.ftNs,
                           md := nearMeta e w l (r.cls t.attr.cls).lcode poison }
    if t.evicting then
      let e : TagEnt := { tag := blkTag t.blk, tenant := t.attr.tenant, cls := t.attr.cls, dirty := t.newDirty,
                          epoch := (r.cls t.attr.cls).epoch }
      write (r.modTrk m t.idx fun t =>
        { t with newValid := setBit16 t.newValid l, newPoison := t.newPoison || poison }) e
    else
      let e := r.tag m s w
      if e.tag = blkTag t.blk && e.counts && e.state ≠ 6 then
        let more := decide (1 < t.pend.length)
        let e := ({ e with valid := setBit16 e.valid l, state := if poison then 4 else e.state }).inFlight more
        let r := if poison then r.poisonWb m line else r
        write (r.setTag m s w e) e
      else r
  | none => r

/-- The Held entry of a line whose fill has come (R109): it is Open with the whole line, or with its own bytes when the
fill is poison. When the fill leaves no near copy, the entry goes to the home. -/
def Run.fillHeld (r : Run) (m : Fin 64) (line : BitVec 40) (d : LineData) (poison leaves : Bool) : Run :=
  let f (e : WbEnt) : WbEnt :=
    if e.line = line && e.st = .held then
      if poison then { e with st := .open', poison := true, after := 0 }
      else { e with st := .open', data := mergeLine d e.data e.mask, mask := fullMask }
    else e
  (r.modRoom m fun y => { y with wbuf := y.wbuf.map f }).when leaves fun r => r.wbHomeward m line

/-- DATA for a tracker that still waits for its line. An Open entry that covers the line and drains to the near copy is
the near-copy write of the fill (R109). -/
def Run.dataFill (r : Run) (m : Fin 64) (t : Trk) (f : FMsg) : Run :=
  let l := lineNo f.addr
  let owner := f.grant = grantO || f.grant = grantP
  let d := match (r.room m).wbuf.find? fun e => e.line = f.addr && e.st = .held with
    | some e => mergeLine f.line e.data e.mask
    | none => f.line
  let r := r.fillHeld m f.addr f.line f.poison (r.fillLeaves m t l)
  let covered := !f.poison && ((r.room m).wbOpen f.addr).any fun e => e.st = .open' && e.needCel && e.mask = fullMask
  let r := r.install m t l f.line f.poison covered
  let r := r.modTrk m t.idx fun t =>
    { t with pend := t.pend.eraseP fun x => x.1 = l, upg := clrBit16 t.upg l, rdu := clrBit16 t.rdu l,
             grant := if f.grant = grantO && t.grant = .asked then .held else t.grant }
  let (r, ws) := r.pullWaiters m fun w => w.why = .fill t.idx && paLineNo w.item.pa = l
  let r := (r.pulse m 0x07).forEach ws fun w r => r.fillWaiter m w d f.poison owner (t.rdu.getLsbD l)
  let r := if f.grant = grantU && t.grant = .asked then r.dropGrant m t.idx else r
  match (r.room m).trks.find? fun x => x.idx = t.idx with
  | some t => if t.grant = .held && t.upg = 0 then r.runGrant m t.idx else r.trkSettle m t.idx
  | none => r

/-- The home refuses an UPGRADE that names no line, with poison for the line of ADDR (R44; log entry 93, DEDUCED): the
near copy is poison, and the tracker's waiters go on. -/
def Run.upgradeRefused (r : Run) (m : Fin 64) (t : Trk) (f : FMsg) : Run :=
  let r := (r.poisonNear m f.addr true).modTrk m t.idx fun t => { t with upg := 0, grant := .held }
  (r.pulse m 0x07).runGrant m t.idx

/-- An answer that nobody waits for any more (R77). -/
def Run.lateFill (r : Run) (m : Fin 64) : Run := r.rmCount m 0x58 1

/-- The answer to a read of the rebuild sequencer (R270). -/
def Run.dataRebuild (r : Run) (f : FMsg) : Run :=
  if r.c.rebuild.ask = some f.addr then r.modRebuild fun x => { x with got := some (f.line, f.poison) } else r

def Run.dataIn (r : Run) (m : Fin 64) (f : FMsg) : Run :=
  match (r.room m).trks.find? fun t => t.idx = msgIdx f && t.blk = lineBlk f.addr with
  | some t =>
    let l := lineNo f.addr
    if (t.pend.any fun x => x.1 = l) || t.upg.getLsbD l then (r.dataFill m t f).cohPoll m
    else if t.twins.any fun x => x.line = l && x.dst = f.src then r.dataTwin m t f
    else if t.grant = .asked && f.grant = grantO && f.poison then (r.upgradeRefused m t f).cohPoll m
    else r.lateFill m
  | none => r.lateFill m

/-- An answer to Room m: in a fill-completion slot (code 0x50) or a slot of its Door. An answer to a fenced Room is
dropped, but for the acknowledgement of a write that the Room had issued (log entry 43, DEDUCED). -/
def Run.fabAnswer (r : Run) (f : FMsg) (op : BitVec 8) (fill : Bool) (act : Run → Fin 64 → Run) : Run :=
  match r.inboxOf f op with
  | some (_, d) =>
    let m := msgRoom f
    if r.fenced (unitRoom m) then (if op = Op.wrAck then act (r.unbox f) m else r.unbox f)
    else r.inSlot m.val (if fill then 0x50 else 0x48 + d) fun r => act (r.unbox f) m
  | none => r

/-- DATA. The answer to the sequencer's own read comes in a slot of code 0x5C of its Door. -/
def Run.dataMsg (r : Run) (f : FMsg) : Run :=
  if msgIdx f = 1002 then match r.inboxOf f Op.data with
    | some (_, d) => r.inSlot (152 + d) 0x5C fun r => (r.unbox f).dataRebuild f
    | none => r
  else r.fabAnswer f Op.data true fun r m => r.dataIn m f

def execData (f : FMsg) (s : State) : Host.Outcome State Fault Refusal :=
  .next (Run.finish s ((Run.start s).dataMsg f))

/-! ## ACK_O and WR_ACK -/

def Run.ackOIn (r : Run) (m : Fin 64) (f : FMsg) : Run :=
  match (r.room m).trks.find? fun t => t.idx = msgIdx f && t.blk = lineBlk f.addr with
  | some t =>
    if t.grant = .asked then
      let r := r.modTrk m t.idx fun t => { t with upg := 0, grant := .held }
      ((r.pulse m 0x07).runGrant m t.idx).cohPoll m
    else r.lateFill m
  | none => r.lateFill m

def execAckO (f : FMsg) (s : State) : Host.Outcome State Fault Refusal :=
  .next (Run.finish s ((Run.start s).fabAnswer f Op.ackO false fun r m => r.ackOIn m f))

/-- The home refused a write (R294, R335): the loss is reported to the hosts. -/
def Run.refusedWrite (r : Run) (line : BitVec 40) : Run := r.hostReport (linePa line) .fail .media

/-- A Mirror home line that the twin has acknowledged sets out for the sequencer that rebuilds its channel, in a slot of
code 0x5C (R226, R270). -/
def Run.rebuildCopy (r : Run) (m : Fin 64) (e : WbEnt) : Run :=
  let (c, idx) := r.homePlace (lineBlk e.line) (lineNo e.line)
  let x := r.c.rebuild
  if x.writing && x.ch = c && e.home then
    r.post (roomCal m) 0x5C (.late c
      { m := m, idx := idx, write := true, pa := linePa e.line, tenant := e.attr.tenant, data := e.data,
        md := homeMeta e.attr.tenant (r.cls e.attr.cls).lcode e.poison, tin := e.tin })
  else r

/-- An entry's write has been acknowledged by its twin or its home. -/
def Run.wbAcked (r : Run) (m : Fin 64) (e : WbEnt) (twin refused : Bool) : Run :=
  let r := r.modWb m e.seq fun e => if twin then { e with needTwin := false } else { e with needAck := false }
  let e' : WbEnt := if twin then { e with needTwin := false } else { e with needAck := false }
  let r := r.when twin fun r => r.rebuildCopy m e
  let r := r.when (refused && !twin) fun r => r.refusedWrite e.line
  let told := !e'.needAck && !e'.needTwin && !e'.twinLater
  let r := if told then (r.modWb m e.seq fun e => { e with srcs := [] }).forEach e.srcs fun s r => r.tellDone m s e.tin else r
  (((r.wbSweep m).twinKick m e.line).cohPoll m).jobsCheck.barsCheck

def Run.wrAckIn (r : Run) (m : Fin 64) (f : FMsg) : Run :=
  let i := msgIdx f
  let refused := f.grant = 1
  if 320 ≤ i && decide (i < 384) then
    match (r.room m).wbuf.find? fun e => e.idx = i - 320 && e.line = f.addr with
    | some e =>
      if e.needTwin && r.isHome (lineBlk e.line) then r.wbAcked m e true refused
      else if e.needAck then r.wbAcked m e false refused
      else r
    | none => r
  else if 256 ≤ i && decide (i < 288) then
    match (r.room m).mud.find? fun e => e.idx = i - 256 && e.line = f.addr && e.st = .writing with
    | some e =>
      let r := if refused then
          (((r.rmEvent m Code.lostWriteback (some (linePa e.line))).rmCount m 0x214 1).refusedWrite e.line) else r
      (r.mudEnd m e).cohPoll m
    | none => r
  else r

def execWrAck (f : FMsg) (s : State) : Host.Outcome State Fault Refusal :=
  .next (Run.finish s ((Run.start s).fabAnswer f Op.wrAck false fun r m => r.wrAckIn m f))

/-! ## INV and RECALL (R71, R159) -/

/-- What S3 finds in the tag set and the Screen set that an INV or RECALL reads. -/
def Run.snoopUpsets (r : Run) (m : Fin 64) (f : FMsg) (u : Upset) : Run :=
  (r.tagUpsets m (r.setOf (lineBlk f.addr)) u).scnUpsets m (r.scnSetOf (lineGran f.addr)) u

/-- A snoop enters its Room even while the Room's entry is closed (R162); one that another tracker holds back
stays at its Door. -/
def Run.fabSnoop (r : Run) (f : FMsg) (op : BitVec 8) (u : Upset) : Run :=
  match r.inboxOf f op with
  | some (_, d) =>
    let m := r.roomFor f
    if r.fenced (unitRoom m) then r
    else r.inSlot m.val (0x48 + d) fun r =>
      let (r, ok) := ((r.pulse m 0x01).snoopUpsets m f u).takeSnoop m f
      (if ok then r.unbox f else r).cohPoll m
  | none => r

def execInvSnp (f : FabReq) (s : State) : Host.Outcome State Fault Refusal :=
  .next (Run.finish s ((Run.start s).fabSnoop f.msg Op.inv f.upset))
def execRecallSnp (f : FabReq) (s : State) : Host.Outcome State Fault Refusal :=
  .next (Run.finish s ((Run.start s).fabSnoop f.msg Op.rcl f.upset))

/-- The tracker that waits for this House's answer. -/
def Run.invTracker (r : Run) (m : Fin 64) (f : FMsg) : Option Coh :=
  (r.room m).cohs.find? fun c => decide (384 ≤ msgIdx f) && c.idx = msgIdx f - 384 && c.blk = lineBlk f.addr &&
    c.invs.any fun i => i.house = f.src

/-- The House has answered. -/
def Run.invDone (r : Run) (m : Fin 64) (c : Coh) (f : FMsg) : Run :=
  (r.modCoh m c.idx fun c =>
    { c with invs := c.invs.filter fun i => i.house ≠ f.src,
             heldBy := if f.held then c.heldBy ||| bit64 f.src else c.heldBy }).cohPoll m

/-- An answer without a line; one to a transaction that has ended is ignored (R155). -/
def Run.invAckIn (r : Run) (m : Fin 64) (f : FMsg) : Run :=
  match r.invTracker m f with
  | some c => r.invDone m c f
  | none => r

def execInvAck (f : FMsg) (s : State) : Host.Outcome State Fault Refusal :=
  .next (Run.finish s ((Run.start s).fabAnswer f Op.invAck false fun r m => r.invAckIn m f))
def execRecallAck (f : FMsg) (s : State) : Host.Outcome State Fault Refusal :=
  .next (Run.finish s ((Run.start s).fabAnswer f Op.recallAck false fun r m => r.invAckIn m f))

/-- A returned line is written to the home (R151, R164). While the write buffer is full it stays at its Door. -/
def Run.invDataIn (r : Run) (m : Fin 64) (f : FMsg) : Run :=
  match r.invTracker m f with
  | some c =>
    let it : Item := { src := .house, op := .memWrPtl, pa := linePa f.addr, attr := r.attrOf (lineBlk f.addr),
                       data := f.line, mask := f.bmask, poison := f.poison, tin := r.ftNs }
    match r.accept m it .home false with
    | some r => let r := r.unbox f; if f.last then r.invDone m c f else r
    | none => r
  | none => r.unbox f

/-- INV_DATA or RECALL_DATA, in a slot of its Door. -/
def Run.invDataMsg (r : Run) (f : FMsg) (op : BitVec 8) : Run :=
  match r.inboxOf f op with
  | some (_, d) =>
    if r.fenced (unitRoom (msgRoom f)) then r.unbox f
    else r.inSlot (msgRoom f).val (0x48 + d) fun r => r.invDataIn (msgRoom f) f
  | none => r

def execInvData (f : FMsg) (s : State) : Host.Outcome State Fault Refusal :=
  .next (Run.finish s ((Run.start s).invDataMsg f Op.invData))
def execRecallData (f : FMsg) (s : State) : Host.Outcome State Fault Refusal :=
  .next (Run.finish s ((Run.start s).invDataMsg f Op.recallData))

/-! ## A House dies (R113, R129, R174) -/

/-- Regions of the frame map in one role whose partner is House e. -/
def Run.partnerRgns (r : Run) (e : BitVec 6) (role : Bool) : List (BitVec 18) :=
  r.m.frames.filterMap fun x =>
    let w := x.2.toNat
    if w.testBit 31 && w.testBit 25 && w.testBit 24 = role && bitsOf w 17 12 = e.toNat then
      some ((if role then e else r.myId) ++ BitVec.ofNat 12 w)
    else none

/-- Entries that wait for the dead twin stop waiting; SYNCs that wait on them note it (R113, R195). -/
def Run.twinDead (r : Run) (m : Fin 64) (e : BitVec 6) : Run :=
  let es := (r.room m).wbuf.filter fun w => (w.needTwin || w.twinLater) && (r.region (blkRegion (lineBlk w.line))).twin = e
  let r := r.forEach (r.room m).markers fun k r =>
    let hit : Bool := match k.waits with
      | some ws => es.any fun w => ws.contains w.seq
      | none => es.any fun w => w.porches.contains k.p
    r.when hit fun r => r.modPorch k.p fun x => { x with bars := x.bars.map fun b =>
      if b.id = k.bar then { b with twin := true } else b }
  let seen (b : Bar) : Bar := { b with twin := b.twin || b.risks.any fun y => y.1 = m && es.any fun w => w.seq = y.2 }
  let r := r.forEach allPorches fun p r => r.modPorch p fun x => { x with bars := x.bars.map seen }
  let r := r.forEach es fun w r =>
    let r := r.modWb m w.seq fun w => { w with needTwin := false, twinLater := false, srcs := [] }
    r.forEach w.srcs fun s r => r.tellDone m s w.tin
  ((r.wbSweep m).cohPoll m).barsCheck

/-- Mudroom lines and forwards toward the dead home (R129). -/
def Run.homeDead (r : Run) (m : Fin 64) (e : BitVec 6) : Run :=
  let muds := (r.room m).mud.filter fun x => (x.st = .ready || x.st = .writing) && (lineBlk x.line).extractLsb' 30 6 = e
  let r := r.forEach muds fun x r =>
    if r.dead (r.homeOf (lineBlk x.line) x.attr.mirror) then r.mudLost m x
    else r.modMud m x.seq fun x => { x with st := .ready, readyCc := r.c.cc }
  let wbs := (r.room m).wbuf.filter fun x => x.needAck && (lineBlk x.line).extractLsb' 30 6 = e
  let r := r.forEach wbs fun x r =>
    if r.dead (r.homeOf (lineBlk x.line) x.attr.mirror) then
      if x.fwd || !x.needCel then r.wbLost m x
      else
        let r := ((r.rmEvent m Code.lostWriteback (some (linePa x.line))).rmCount m 0x214 1).hostReport (linePa x.line)
          .fail .media
        (r.modWb m x.seq fun x => { x with needAck := false, srcs := [] }).forEach x.srcs fun s r => r.tellDone m s x.tin
    else r.when (x.st = .issued) fun r => r.wbForward m x
  r.cohPoll m

/-- Recovery reads from the dead House are answered as for a region that is not mirrored (R313). -/
def Run.twinsDead (r : Run) (m : Fin 64) (t : Trk) (e : BitVec 6) : Run :=
  let xs := t.twins.filter fun x => x.dst = e
  let r := r.modTrk m t.idx fun t => { t with twins := t.twins.filter fun x => x.dst ≠ e }
  let r := r.forEach xs fun x r => r.twinGiveUp m t.blk x
  let (r, ws) := r.pullWaiters m fun w => w.why = .fill t.idx && xs.any fun x => x.line = paLineNo w.item.pa
  r.forEach ws fun w r => r.giveData m w.item 0 true

/-- The lines that the tracker still waits for are asked of the twin, as they were of the home (R172): of an owned
Shared block with FILL_O (R157). -/
def Run.trkReask (r : Run) (m : Fin 64) (t : Trk) : Run :=
  let ls := t.pend.map fun x => x.1
  let own := t.grant ≠ .none || r.owned m { src := .house, op := .memRd, pa := blkPa t.blk, attr := t.attr }
  let op (l : Fin 16) : BitVec 8 :=
    if t.rdu.getLsbD l then Op.rdU else if t.attr.kind ≠ kindShared then Op.fillP else if own then Op.fillO else Op.fillS
  let r := r.modTrk m t.idx fun t => { t with pend := [] }
  let r := r.forEach ls fun l r => r.askFill m t.idx t.blk t.attr (op l) [l] (t.noinst.getLsbD l) r.ftNs
  if t.upg ≠ 0 || (t.grant = .asked && ls.isEmpty) then
    r.askFill m t.idx t.blk t.attr Op.upgrade (allLines.filter fun (l : Fin 16) => t.upg.getLsbD l.val) false r.ftNs
  else r

/-- This House is the twin, and serves the block as home from now on: what waited for the dead home starts again, and
held writes go to the twin's copy (R172). -/
def Run.trkHome (r : Run) (m : Fin 64) (t : Trk) : Run :=
  let (r, ws) := r.pullWaiters m fun w => w.why = .fill t.idx || w.why = .grant t.idx
  let f (x : WbEnt) : WbEnt :=
    if lineBlk x.line = t.blk && x.st = .held then
      { x with st := .open', home := true, fwd := false, needAck := false, needCel := true }
    else x
  let r := r.modRoom m fun y => { y with wbuf := y.wbuf.map f }
  let r := r.modTrk m t.idx fun t => { t with pend := [], grant := .none, upg := 0, rdu := 0 }
  (r.forEach ws fun w r => r.addWaiter m w.item .ready).trkSettle m t.idx

/-- Trackers that wait for the dead home (R172, R174). In regions that are not mirrored, the writes that wait for ownership
are completed and lost, and everything else times out. -/
def Run.trkDead (r : Run) (m : Fin 64) (t : Trk) (e : BitVec 6) : Run :=
  let dst := r.homeOf t.blk t.attr.mirror
  if dst = e then
    let (r, ws) := r.pullWaiters m fun w => w.why = .grant t.idx && w.item.writes
    r.forEach ws fun w r => r.giveUp m w true
  else if dst = r.myId then r.trkHome m t
  else r.trkReask m t

/-- What Room m does when House e has died. -/
def Run.roomDead (r : Run) (m : Fin 64) (e : BitVec 6) : Run :=
  let r := (r.twinDead m e).homeDead m e
  let r := r.forEach (r.room m).trks fun t r => r.twinsDead m t e
  let r := r.forEach (r.room m).trks fun t r =>
    r.when (t.blk.extractLsb' 30 6 = e && (!t.pend.isEmpty || t.grant = .asked)) fun r => r.trkDead m t e
  let r := r.forEach (r.room m).cohs fun c r =>
    r.forEach (c.invs.filter fun i => i.house = e) fun i r => r.invLost m c i
  (r.jobStart m (.purge e)).cohPoll m

/-- What every Room does when House e has died. In SAFE the Rooms are frozen: they do it when the House leaves SAFE (R27,
R30; log entry 100, DEDUCED). -/
def Run.roomsDead (r : Run) (e : BitVec 6) : Run :=
  r.forEach (allRooms.filter fun m => !(r.fenced (unitRoom m))) fun m r => r.roomDead m e

/-- A fence shadow opens (R384). -/
def Run.openShadow (r : Run) (u : UnitNo) (start : Stamp) : Run :=
  r.modFbx fun x => { x with shadows := x.shadows ++ [{ unit := u, start := start, stop := start + r.reg 0x10010 }] }

/-- House e is declared dead (R311). -/
def Run.declareDead (r : Run) (e : BitVec 6) : Run :=
  if r.dead e then r
  else
    let r := r.modPeer e fun p => { p with live := false, dead := true, deadAt := r.now }
    let r := (r.sysEvent 50 Code.houseDead).openShadow (unitHouse e) r.ftNs
    let r := r.forEach (r.partnerRgns e false) fun n r =>
      r.rmEvent (r.serving (r.roomOf (n ++ 0#18))) Code.twinLost (some (n ++ 0#30))
    (r.when (r.mode ≠ .safe) fun r => r.roomsDead e).discardTo e

/-- HOUSE_DEAD: no HEARTBEAT from a live House for RTE_CTRL.DEAD_US microseconds. -/
def Run.houseDead (r : Run) (e : BitVec 6) : Run :=
  let p := r.peer e
  if r.mode.fabric && p.live && decide (p.lastHb + usec (r.fld 0x190110 27 16) ≤ r.now) then r.declareDead e else r

def execHouseDead (e : Fin 64) (s : State) : Host.Outcome State Fault Refusal :=
  .next (Run.finish s ((Run.start s).houseDead (BitVec.ofFin e)))

/-! ## HEARTBEAT (R310, R311) -/

def Run.purging (r : Run) (e : BitVec 6) : Bool := allRooms.any fun m => (r.room m).jobs.any fun j => j.kind = .purge e

/-- End-to-end counters of a new incarnation start at 0. -/
def Peer.fresh (p : Peer) (incarn : BitVec 16) : Peer :=
  if p.incarn = incarn then p
  else { p with incarn := incarn, rxEseq := Vector.replicate 3 0, txEseq := Vector.replicate 3 0 }

def Run.heartbeatIn (r : Run) (f : FMsg) : Run :=
  let e := f.src
  let p := r.peer e
  let mode := f.mask.toNat % 16
  let incarn := f.word4hi
  if e = r.myId then r
  else if p.dead then
    if p.incarn ≠ incarn && mode ≠ Mode.safe.code && !(r.purging e) then
      (r.modPeer e fun p => { p.fresh incarn with live := true, dead := false, lastHb := r.now }).modFab fun x =>
        { x with held := x.held.filter fun h => h.src ≠ e }
    else r
  else if mode = Mode.safe.code then r.declareDead e
  else
    let r := r.when (p.incarn ≠ incarn) fun r => r.modFab fun x => { x with held := x.held.filter fun h => h.src ≠ e }
    r.modPeer e fun p => { p.fresh incarn with live := true, lastHb := r.now }

def Run.heartbeatMsg (r : Run) (f : FMsg) : Run :=
  match r.inboxOf f Op.heartbeat with
  | some _ => (r.unbox f).heartbeatIn f
  | none => r

def execHeartbeat (f : FMsg) (s : State) : Host.Outcome State Fault Refusal :=
  .next (Run.finish s ((Run.start s).heartbeatMsg f))

/-- Send a HEARTBEAT to every House with a route. -/
def Run.heartbeats (r : Run) : Run :=
  let es := (List.range 64).filter fun e =>
    e ≠ r.myId.toNat && (r.bit (0x190000 + 4 * e) 3 || r.bit (0x190000 + 4 * e) 7)
  let r := r.forEach es fun e r =>
    let f := r.mkMsg Op.heartbeat (BitVec.ofNat 6 e) 0 {} 0
    r.sendMsg { f with mask := BitVec.ofNat 16 r.mode.code, word4hi := r.c.fab.incarn } r.ftNs
  r.modFab fun x => { x with hbAt := r.now }

/-- HEARTBEAT_SEND: RTE_CTRL.HB_US microseconds after the last, once a Door has become up (R307). -/
def Run.heartbeatSend (r : Run) : Run :=
  if r.mode.fabric && (allPorches.any fun d => (r.door d).up) &&
      decide (r.c.fab.hbAt + usec (r.fld 0x190110 9 0) ≤ r.now) then r.heartbeats
  else r

def execHeartbeatSend (s : State) : Host.Outcome State Fault Refusal :=
  .next (Run.finish s (Run.start s).heartbeatSend)

end Sys2Proof.Machine
end

