-- ==== Sys2Proof/Machine/Barriers.lean ====
section
/-! DEFINITION. SYNC markers; barriers that run out of time, and writes lost with the House they were sent to (R189,
R192–R195). -/
namespace Sys2Proof.Machine
open Sys2Proof

/-- The marker is answered for its barrier. -/
def Run.markerDone (r : Run) (m : Fin 64) (k : Marker) : Run :=
  let r := r.modRoom m fun y => { y with markers := y.markers.filter fun k' => k'.bar ≠ k.bar || k'.p ≠ k.p }
  let r := r.modPorch k.p fun x => { x with bars := x.bars.map fun b =>
    if b.id = k.bar then { b with markers := b.markers &&& ~~~(1#64 <<< m.val) } else b }
  r.barCheck k.p

/-- SYNC_MARKER_ANSWER (R189): the oldest marker that has arrived is answered when no entry accepted before it
with data of its Porch waits for a twin or for the home of a Mirror region; that of a fenced Room by R90. -/
def Run.syncMarker (r : Run) (m : Fin 64) : Run :=
  let y := r.room m
  if r.fenced (unitRoom m) then
    match y.markers with
    | k :: _ =>
      if r.sweepEnded m && !((r.room (r.cover m)).markers.any fun k' => k'.bar = k.bar && k'.p = k.p) then r.markerDone m k
      else r
    | [] => r
  else match y.markers.find? fun k => k.behind = 0 with
    | some k =>
      let waits := k.waits.getD ((y.wbuf.filter fun e => e.porches.contains k.p && e.atRisk).map (·.seq))
      let left := waits.filter fun n => y.wbuf.any fun e => e.seq = n && e.atRisk
      if left.isEmpty then r.markerDone m k
      else r.modRoom m fun y => { y with markers := y.markers.map fun k' =>
        if k'.bar = k.bar && k'.p = k.p then { k' with waits := some left } else k' }
    | none => r

def execSyncMarkerAnswer (m : Fin 64) (s : State) : Host.Outcome State Fault Refusal :=
  .next (Run.finish s ((Run.start s).syncMarker m))

/-- The entry's Room forwards its line home, as far as that is known: it may not near-cache the line, or it has sent the
forward (R24, R117). -/
def Run.landForwards (r : Run) (e : Land) : Bool :=
  let b := lineBlk e.line
  e.orphan || !(r.nearable b e.attr) || !(r.cls e.attr.cls).nearEn ||
    (r.room (r.serving e.room)).wbuf.any fun w => w.fwd && w.line = e.line && w.srcs.any fun s => match s with
      | .land seq _ => seq = e.seq
      | _ => false

/-- The Landing entry waits on a House that has been declared dead, and no twin takes it (R192). -/
def Run.landDead (r : Run) (e : Land) : Bool :=
  let b := lineBlk e.line
  !e.attr.mirror && !(r.isHome b) && r.dead (b.extractLsb' 30 6) && r.landForwards e

/-- A lost write (R193): its entry frees, the loss is logged, and the line is poison where the block is live. Every
barrier that waits on it ends with ERR (R194). -/
def Run.loseWrite (r : Run) (p : Fin 8) (e : Land) : Run :=
  let m := r.serving e.room
  let pa := linePa e.line
  let r := r.modPorch p fun x =>
    { x with bars := x.bars.map fun b =>
               if b.lands.contains e.seq then { b with err := true, ended := b.ended || b.kind ≠ .msync } else b }
  let r := (r.modSent p e.seq fun d => { d with retired := true }).landDrop p fun y => y.seq = e.seq
  let k : Nat := if e.links.contains 0 then 0 else if e.links.contains 1 then 1 else 0
  let r := ((r.pchEvent p k Code.porchLostWrite (some pa) 2).poisonNear m e.line true).hostReport pa .fail .media
  r.porchSettle p

/-- LOST_WRITE (R194): PCH_DRAIN_TIMEOUT.US have passed since the House was declared dead. -/
def Run.lostWrite (r : Run) (p : Fin 8) : Run :=
  match (r.porch p).lands.find? fun e => r.landDead e &&
      decide ((r.peer ((lineBlk e.line).extractLsb' 30 6)).deadAt + usec (r.fld (pchBase p + 0x508) 15 0) ≤ r.now) with
  | some e => r.loseWrite p e
  | none => r

def execLostWrite (p : Fin 8) (s : State) : Host.Outcome State Fault Refusal :=
  .next (Run.finish s ((Run.start s).lostWrite p))

/-- One barrier whose time is up (R192, R195): entries toward a dead House are lost, others drain later. In SAFE
nothing drains, and the barrier ends as late. A SYNC sets ERR and LATE for its Landing writes and goes on waiting for
its requests and markers (log entry 104, DESIGN CHOICE). -/
def Run.barLate (r : Run) (p : Fin 8) (b : Bar) : Run :=
  let mine := (r.porch p).lands.filter fun e => b.lands.contains e.seq
  let dead := mine.filter fun e => r.landDead e
  let late := (mine.filter fun e => !(r.landDead e))
  let r := r.forEach dead fun e r => r.loseWrite p e
  let safe := r.mode = .safe
  let isLate := safe || !late.isEmpty
  let f (x : Bar) : Bar :=
    if x.id = b.id then
      { x with err := x.err || isLate, late := x.late || isLate, lands := [], ended := x.ended || safe || x.kind = .drain }
    else x
  let r := r.when (!late.isEmpty) fun r =>
    r.pchEvent p b.k.val Code.drainLate (path := (late.map fun e => unitRoom (r.serving e.room)) ++
      ((late.filter fun e => !(r.isHome (lineBlk e.line))).map fun e => unitHouse ((lineBlk e.line).extractLsb' 30 6)))
  (r.modPorch p fun x => { x with bars := x.bars.map f }).barCheck p

/-- DRAIN_TIMEOUT: the oldest barrier that has waited PCH_DRAIN_TIMEOUT.US for Landing entries; in SAFE, for anything. -/
def Run.drainTimeout (r : Run) (p : Fin 8) : Run :=
  match (r.porch p).bars.find? fun b => b.kind ≠ .msync && decide (b.by' ≤ r.now) && !b.ended &&
      (!b.lands.isEmpty || r.mode = .safe) with
  | some b => r.barLate p b
  | none => r

def execDrainTimeout (p : Fin 8) (s : State) : Host.Outcome State Fault Refusal :=
  .next (Run.finish s ((Run.start s).drainTimeout p))

end Sys2Proof.Machine
end

