-- ==== Sys2Proof/Machine/Doors.lean ====
section
/-! DEFINITION. The Doors: frames, replay and acknowledgement, link encryption, BEACONs, routing in transit and
end-to-end order, training and the loss of a lane or a link (R284–R310, R318, R319). -/
namespace Sys2Proof.Machine
open Sys2Proof

/-! ## Frame bits (R289, R290, R301, R305) -/

/-- Eight steps of the reflected CRC-32C polynomial. -/
def crcBits : Nat → BitVec 32 → BitVec 32
  | 0, c => c
  | k + 1, c => crcBits k (if c.getLsbD 0 then (c >>> 1) ^^^ 0x82F63B78#32 else c >>> 1)

/-- CRC-32C of a byte list. -/
def crc32c (bs : List Byte) : BitVec 32 :=
  ~~~(bs.foldl (fun c b => crcBits 8 (c ^^^ b.setWidth 32)) (BitVec.allOnes 32))

/-- Byte i of a frame. -/
def frameByte (f : Frame) (i : Nat) : Byte := f.extractLsb' (8 * i) 8
def frameCrc (f : Frame) : BitVec 32 := crc32c ((List.range 124).map (frameByte f))
def frameHdr (f : Frame) : BitVec 32 := f.extractLsb' 0 32
def frameMsg (f : Frame) : BitVec 896 := f.extractLsb' 32 896
def frameTag (f : Frame) : BitVec 64 := f.extractLsb' 928 64
def frameSum (f : Frame) : BitVec 32 := f.extractLsb' 992 32

def hdrCls (h : BitVec 32) : Nat := (h.extractLsb' 0 3).toNat
def hdrKid (h : BitVec 32) : Bool := h.getLsbD 3
def hdrPos (h : BitVec 32) : BitVec 2 := h.extractLsb' 4 2
def hdrSeq (h : BitVec 32) : BitVec 10 := h.extractLsb' 6 10
def hdrLink (h : BitVec 32) : LinkHdr := { ack := h.extractLsb' 16 10, xoff := h.extractLsb' 27 5 }
def hdrAbort (h : BitVec 32) : Bool := h.getLsbD 26

def mkHdr (cls : Nat) (kid : Bool) (pos : BitVec 2) (seq ack : BitVec 10) (abort : Bool) (xoff : BitVec 5) : BitVec 32 :=
  BitVec.ofNat 32 (cls + b2n kid * 8 + pos.toNat * 2 ^ 4 + seq.toNat * 2 ^ 6 + ack.toNat * 2 ^ 16 + b2n abort * 2 ^ 26 +
    xoff.toNat * 2 ^ 27)

/-- A frame of its header, message bytes and tag, with its CRC. -/
def mkFrame (h : BitVec 32) (msg : BitVec 896) (tag : BitVec 64) : Frame :=
  let body : Frame := (h.setWidth 1024) ||| ((msg.setWidth 1024) <<< 32) ||| ((tag.setWidth 1024) <<< 928)
  body ||| ((frameCrc body).setWidth 1024 <<< 992)

/-- The 96-bit nonce; byte 0 lies in bits [7:0]. The 64-bit counter stands most significant byte first. -/
def nonce (link : Bool) (id : BitVec 6) (door : Nat) (n : Nat) : BitVec 96 :=
  let ctr := (List.range 8).foldl (fun acc i => acc ||| (bitsOf n (63 - 8 * i) (56 - 8 * i) <<< (32 + 8 * i))) 0
  BitVec.ofNat 96 (b2n link + id.toNat * 2 ^ 8 + door * 2 ^ 16 + ctr)

/-- Key slot k of a Door: transmit slots at 0x100, receive slots at 0x140. -/
def Run.doorKey (r : Run) (d : Fin 8) (off : Nat) (k : Bool) : BitVec 256 :=
  BitVec.ofNat 256 ((List.range 8).foldl
    (fun acc w => acc ||| (r.reg (dorBase d + off + 0x20 * b2n k + 4 * w) <<< (32 * w))) 0)

def Run.secOn (r : Run) (d : Fin 8) : Bool := r.bit (dorBase d + 0x14) 0
def Run.txKsel (r : Run) (d : Fin 8) : Bool := r.bit (dorBase d + 0x14) 1
def Fin.boolIdx (b : Bool) : Fin 2 := if b then 1 else 0

/-! ## Acknowledgement and XOFF (R296, R299, R300) -/

def clsBuffer (cls : Nat) : Nat := if cls < 2 then 512 else if cls = 2 then 256 else if cls = 3 then 16 else 64

/-- Frames of a message that Door d has for a Room, and that has still to reach it. -/
def Load.rxFrames (d cls : Nat) : Load → Nat
  | .room _ f e => if e = d && opClass f.op = cls then (opFrames f.op).getD 1 else 0
  | _ => 0

/-- Receive-buffer frames of a class that have not been passed on: pieces of an unfinished message, and messages
that are on their way to their Room or wait for it. -/
def Run.rxUsed (r : Run) (d : Fin 8) (cls : Nat) : Nat :=
  (((r.door d).parts.filter fun p => p.cls = cls && p.transit.isNone).map fun p => p.pieces.length).sum +
    ((r.c.fab.inbox.filter fun e => e.2.2 = d.val && opClass e.1.op = cls).map fun e => (opFrames e.1.op).getD 1).sum +
    (r.c.wait.map fun x => x.load.rxFrames d cls).sum + (r.c.fly.map fun x => x.load.rxFrames d cls).sum

/-- The XOFF bits that the Door sends. -/
def Run.rxXoff (r : Run) (d : Fin 8) : BitVec 5 :=
  let free := r.fld (dorBase d + 0x10) 9 0
  let low (c : Nat) : Nat := if c < 2 then free else if c = 2 then free / 2 else 4
  BitVec.ofNat 5 (gather 5 fun c => decide (clsBuffer c - r.rxUsed d c < low c)) ||| (r.door d).reorderXoff

/-- The last frame of the message that the i-th kept frame belongs to. -/
def keptLast (ks : List Kept) (i : Nat) : Option Kept :=
  match ks[i]? with
  | some k => (ks.drop i).find? fun x => x.f.cls = k.f.cls && x.f.via = k.f.via && (x.f.pos = 0 || x.f.pos = 3)
  | none => none

/-- The frames from the rewind mark on (R296). -/
def keptFrom (ks : List Kept) : List Kept :=
  ks.drop ((List.range ks.length).find? (fun i => match keptLast ks i with
    | some k => !k.acked
    | none => true) |>.getD ks.length)

/-- The ACK field of a good frame: every kept frame up to it is acknowledged; the mark may advance. -/
def Run.takeAck (r : Run) (d : Fin 8) (h : LinkHdr) : Run :=
  let x := r.door d
  let ks := match x.kept.findIdx? fun k => k.seq = h.ack with
    | some i => (x.kept.zipIdx.map fun (k : Kept × Nat) => if k.2 ≤ i then { k.1 with acked := true } else k.1)
    | none => x.kept
  let left := keptFrom ks
  let moved := decide (left.length < x.kept.length)
  r.modDoor d fun x =>
    { x with kept := left, txXoff := h.xoff,
             replay := x.replay.filter fun s => left.any fun k => k.seq = s,
             markAt := if moved then r.now else x.markAt,
             fails := if moved then 0 else x.fails, replaying := x.replaying && !moved }

/-- The Door exchanges frames. -/
def Run.doorRuns (r : Run) (d : Fin 8) : Bool :=
  let x := r.door d
  x.trained && !x.training && !x.quick && !(r.fenced (unitDoor d)) && r.mode.fabric

/-- The Door's link is trained while it is under re-check or in service (R395). -/
def Run.doorLinks (r : Run) (d : Fin 8) : Bool :=
  let x := r.door d
  x.trained && !x.training && !x.quick && (r.mode.fabric || r.mode = .pantry)

/-- A frame of a running link comes out of its receive crossing (R489; log entry 115, DESIGN CHOICE). -/
def Run.doorTook (r : Run) (d : Fin 8) : Run := r.when (r.doorRuns d || r.doorLinks d) fun r => r.took (.doorRx d) 1

/-- RTE_STATUS.ROUTED: every cabled Door is up, or has logged CABLE_MISMATCH or DOOR_FAIL. -/
def Run.routedCheck (r : Run) : Run :=
  if r.mode = .join && !r.c.fab.routed && allPorches.all fun d =>
      !(r.bit (dorBase d + 8) 15) || (r.door d).up || (r.door d).mismatch || (r.door d).failed || r.fenced (unitDoor d) then
    r.modFab fun x => { x with routed := true }
  else r

/-- DOOR_FAIL (R318). -/
def Run.doorFail (r : Run) (d : Fin 8) : Run :=
  ((r.modDoor d fun x => { x with failed := true }).dorEvent d Code.doorFail 0 7).routedCheck

/-! ## Delivery (R309, R310) -/

/-- A message has reached its Room, or what else takes it. -/
def Run.inboxAdd (r : Run) (d : Nat) (f : FMsg) : Run :=
  r.modFab fun x => { x with inbox := x.inbox ++ [(f, r.ftNs, d)] }

/-- The Room that a delivered message goes to: none for a HEARTBEAT, and for an answer to the rebuild sequencer. -/
def Run.msgTo (r : Run) (f : FMsg) : Option (Fin 64) :=
  if 3 ≤ opClass f.op || (opClass f.op = 1 && msgIdx f = 1002) then none
  else some (if opClass f.op = 1 then msgRoom f else r.roomFor f)

/-- A delivered message sets out for its Room, in a slot of code 0x5A of its Door. An answer to a fenced Room goes no
further than its Door (log entry 43, DEDUCED); while the Timetable stands, every message arrives at once. -/
def Run.handOver (r : Run) (d : Nat) (f : FMsg) : Run :=
  match r.msgTo f with
  | some m =>
    if !r.c.tt.run || (opClass f.op = 1 && r.fenced (unitRoom m)) then r.inboxAdd d f
    else r.post (152 + d) 0x5A (.room m f d)
  | none => r.inboxAdd d f

def heldFrames (hs : List Held) : Nat := (hs.map fun h => (opFrames h.msg.op).getD 1).sum

/-- Deliver the held messages of a source and class that now follow in order. -/
def Run.heldGo (r : Run) (src : BitVec 6) (cls : Nat) : Nat → Run
  | 0 => r
  | n + 1 =>
    let next := (r.peer src).rxEseq[fin3 cls]
    match r.c.fab.held.find? fun h => h.src = src && h.cls = cls && h.msg.eseq = next with
    | some h =>
      let r := (r.modFab fun x => { x with held := x.held.eraseP fun y => y = h }).handOver h.door h.msg
      let r := r.modPeer src fun p => { p with rxEseq := p.rxEseq.set (cls % 3) (next + 1) (Nat.mod_lt _ (by decide)) }
      r.heldGo src cls n
    | none => r

/-- The reorder store has room again: XOFF ends. -/
def Run.reorderRoom (r : Run) : Run :=
  if heldFrames r.c.fab.held < 256 then
    r.forEach allPorches fun d r => r.modDoor d fun x => { x with reorderXoff := 0 }
  else r

/-- A whole message for this House (R310). -/
def Run.deliver (r : Run) (d : Fin 8) (f : FMsg) : Run :=
  let cls := opClass f.op
  if 3 ≤ cls then r.handOver d f
  else
    let next := (r.peer f.src).rxEseq[fin3 cls]
    if f.eseq = next then
      let r := (r.handOver d f).modPeer f.src fun p =>
        { p with rxEseq := p.rxEseq.set (cls % 3) (next + 1) (Nat.mod_lt _ (by decide)) }
      (r.heldGo f.src cls 256).reorderRoom
    else if 0x8000#16 ≤ f.eseq - next || r.c.fab.held.any (fun h => h.src = f.src && h.cls = cls && h.msg.eseq = f.eseq) then
      r.count32 (dorBase d + 0x40) 1
    else
      let r := r.modFab fun x => { x with held := x.held ++ [{ src := f.src, cls := cls, since := r.now, msg := f, door := d }] }
      r.when (decide (256 ≤ heldFrames r.c.fab.held)) fun r =>
        r.modDoor d fun x => { x with reorderXoff := x.reorderXoff ||| (1#5 <<< cls) }

/-- The message that the pieces of a part spell. -/
def piecesMsg (ps : List (BitVec 896)) : FMsg :=
  msgOfBits (ps.zipIdx.foldl (fun (acc : BitVec 2688) (p : BitVec 896 × Nat) =>
    acc ||| ((p.1.setWidth 2688) <<< (896 * p.2))) 0)

/-- OP is listed, and NFR and the number of frames agree with it (R293). -/
def msgFits (ps : List (BitVec 896)) : Bool :=
  match ps with
  | [] => false
  | p :: _ => match opFrames (p.extractLsb' 16 8) with
    | some n => n = ps.length && (p.extractLsb' 24 2).toNat = n
    | none => false

/-- HOPS of the first frame of a transit message is decremented (R309). -/
def hopDown (p : BitVec 896) : BitVec 896 :=
  let h := p.extractLsb' 12 4
  (p &&& ~~~(0xF#896 <<< 12)) ||| ((h - 1).setWidth 896 <<< 12)

def Run.setPart (r : Run) (d : Fin 8) (cls : Nat) (p : Option Part) : Run :=
  r.modDoor d fun x => { x with parts := (x.parts.filter fun y => y.cls ≠ cls) ++ p.toList }

/-- Begin a message of a class on a link. -/
def Run.partOpen (r : Run) (d : Fin 8) (cls : Nat) (p : BitVec 896) : Run :=
  let dst : BitVec 6 := p.extractLsb' 0 6
  if dst = r.myId then r.setPart d cls (some { cls := cls })
  else if p.extractLsb' 12 4 ≤ 1 then
    ((r.count32 (dorBase d + 0x3C) 1).sysEvent 50 Code.routeLoop).setPart d cls (some { cls := cls, dropIt := true })
  else if r.dead dst then (r.discard false dst).setPart d cls (some { cls := cls, dropIt := true })
  else match r.route dst with
    | .go e => r.setPart d cls (some { cls := cls, transit := some e })
    | .wait => r.setPart d cls (some { cls := cls })
    | .none => (r.discard true dst).setPart d cls (some { cls := cls, dropIt := true })

/-- A transit frame sets out for Door e, in a slot of code 0x5B of its own Door. -/
def Run.toTransit (r : Run) (d e : Fin 8) (f : TxFrame) : Run :=
  if r.c.tt.run then r.post (doorCal d) 0x5B (.transit e { f with via := some d.val })
  else r.modDoor e fun y => { y with txq := y.txq ++ [{ f with via := some d.val }] }

/-- One accepted frame of a message: it is collected, or forwarded and collected (R295, R309). -/
def Run.partFrame (r : Run) (d : Fin 8) (cls : Nat) (pos : BitVec 2) (p : BitVec 896) : Run :=
  let first := pos = 0 || pos = 1
  let last := pos = 0 || pos = 3
  let mine := (p.extractLsb' 0 6 : BitVec 6) = r.myId
  let r := if first then r.partOpen d cls p else r
  let p := if first && !mine then hopDown p else p
  match (r.door d).parts.find? fun x => x.cls = cls with
  | some x =>
    if x.dropIt then (if last then r.setPart d cls none else r)
    else
      let ps := x.pieces ++ [p]
      let f := piecesMsg ps
      let r := if last then r.setPart d cls none else r.setPart d cls (some { x with pieces := ps })
      let r := match x.transit with
        | some e =>
          if r.fenced (unitDoor e) then r
          else r.toTransit d e { cls := cls, pos := pos, bytes := p, msg := if last then some f else none }
        | none => r
      if !last then r
      else if !(msgFits ps) then
        if x.transit.isSome then r else r.dorEvent d Code.frameBad 0 6
      else match x.transit with
        | some e => if r.fenced (unitDoor e) then r.emit f r.ftNs else r
        | none => if f.dst = r.myId then r.deliver d f else r.emit f r.ftNs
  | none => r

/-! ## A frame arrives (R284, R297, R303) -/

/-- The Door owes a NAK, unless it sent one less than 1 µs ago. -/
def Run.oweNak (r : Run) (d : Fin 8) : Run :=
  r.modDoor d fun x =>
    { x with nakDue := x.nakDue || match x.nakAt with
        | some t => decide (t + usec 1 ≤ r.now)
        | none => true }

/-- FEC codewords of the frame (R284, R287). -/
def Run.fecCount (r : Run) (d : Fin 8) (fec : FecInfo) : Run :=
  let r := (r.count32 (dorBase d + 0x2C) fec.ce).count32 (dorBase d + 0x30) fec.ue
  r.forEach (List.range fec.ue) fun _ r => r.dorEvent d Code.fecUe ((fec.lane.map (·.val)).getD 0) 7

/-- What a frame says once its tag has been checked: its message bytes, or none when the tag fails (R301, R302). -/
def Run.openFrame (r : Run) (d : Fin 8) (f : Frame) : Option (BitVec 896) :=
  let h := frameHdr f
  if !(r.secOn d) then some (frameMsg f)
  else
    let x := r.door d
    let kid := hdrKid h
    let key := r.doorKey d 0x140 kid
    let ahead := (hdrSeq h - x.expSeq).toNat
    let cnt := x.rxCnt[Fin.boolIdx kid]
    let n := if ahead < 512 then cnt + ahead else cnt - (1024 - ahead)
    let nc := nonce false x.farId x.farDoor.toNat n
    let plain := Config.gcmOpen key nc (frameMsg f)
    if (Config.gcmSeal key nc (h.setWidth 928) plain).2 = frameTag f then some plain else none

def seqFrame (cls : Nat) : Bool := cls = 0 || cls = 1 || cls = 2 || cls = 4

/-- The tag of a link or time frame, which is authenticated only, does not agree (R301, R303). -/
def Run.plainBad (r : Run) (d : Fin 8) (f : Frame) : Bool :=
  let x := r.door d
  let nc := nonce true x.farId x.farDoor.toNat ((frameMsg f).toNat % 2 ^ 64)
  r.secOn d &&
    (Config.gcmSeal (r.doorKey d 0x140 (hdrKid (frameHdr f))) nc (frameMsg f ++ frameHdr f) 0).2 ≠ frameTag f

/-- A sequenced frame (R297); `abort` is what ABORT must read. -/
def Run.frameIn (r : Run) (d : Fin 8) (f : Frame) (fec : FecInfo) (abort : Bool) : Run :=
  let h := frameHdr f
  let cls := hdrCls h
  let x := r.door d
  if !(r.doorRuns d) || !x.up || (hdrAbort h) ≠ abort then r
  else
    let r := r.fecCount d fec
    if 0 < fec.ue || frameSum f ≠ frameCrc f then (r.count32 (dorBase d + 0x24) 1).oweNak d
    else if !(seqFrame cls) then r.when (r.plainBad d f) fun r => r.count32 (dorBase d + 0x28) 1
    else match r.openFrame d f with
      | none => (r.count32 (dorBase d + 0x28) 1).oweNak d
      | some msg =>
        let r := r.takeAck d (hdrLink h)
        let seq := hdrSeq h
        let behind := (x.expSeq - seq).toNat
        if seq = x.expSeq && decide (r.rxUsed d cls < clsBuffer cls) then
          let kid := hdrKid h
          let i := Fin.boolIdx kid
          let r := r.modDoor d fun x =>
            { x with expSeq := x.expSeq + 1, lastAcc := seq, rxKid := kid,
                     rxCnt := x.rxCnt.set i.val (x.rxCnt[i] + 1) i.isLt }
          if abort then
            let r := match ((r.door d).parts.find? fun p => p.cls = cls).bind (·.transit) with
              | some e => r.toTransit d e { cls := cls, pos := 3, abort := true, bytes := 0 }
              | none => r
            r.setPart d cls none
          else r.partFrame d cls (hdrPos h) msg
        else if 1 ≤ behind && decide (behind ≤ 512) then r.count32 (dorBase d + 0x40) 1
        else r.oweNak d

def execFrameReceive (d : Fin 8) (f : Frame) (fec : FecInfo) (s : State) : Host.Outcome State Fault Refusal :=
  .next (Run.finish s (((Run.start s).doorTook d).frameIn d f fec false))
def execAbort (d : Fin 8) (f : Frame) (s : State) : Host.Outcome State Fault Refusal :=
  .next (Run.finish s (((Run.start s).doorTook d).frameIn d f {} true))

/-- Send the kept frames again from `i` on (R298). -/
def Run.rewind (r : Run) (d : Fin 8) (i : Nat) : Run :=
  (r.modDoor d fun x =>
    { x with replay := (x.kept.drop i).map (·.seq), replayAt := r.now, replaying := decide (i < x.kept.length) }).count32
      (dorBase d + 0x20) 1

/-- NAK: the read pointer goes to the named SEQ, or to the mark when that lies before it. -/
def Run.nakIn (r : Run) (d : Fin 8) (h : LinkHdr) (expected : BitVec 10) : Run :=
  if !(r.doorRuns d) then r
  else
    let r := r.takeAck d h
    let x := r.door d
    r.rewind d (if expected = x.nextSeq then x.kept.length else (x.kept.findIdx? fun k => k.seq = expected).getD 0)

def execNak (d : Fin 8) (h : LinkHdr) (expected : BitVec 10) (s : State) : Host.Outcome State Fault Refusal :=
  .next (Run.finish s (((Run.start s).doorTook d).nakIn d h expected))

def execIdle (d : Fin 8) (h : LinkHdr) (s : State) : Host.Outcome State Fault Refusal :=
  .next (Run.finish s (((Run.start s).doorTook d).when ((Run.start s).doorRuns d) fun r => r.takeAck d h))

/-! ## BEACONs (R305–R307) -/

/-- A BEACON arrives. -/
def Run.beaconIn (r : Run) (d : Fin 8) (h : LinkHdr) (b : Beacon) : Run :=
  if !(r.doorLinks d) then r
  else
    let r := r.takeAck d h
    let r := r.modDoor d fun x => { x with farId := b.id, farDoor := b.door, farV := b.idValid }
    let ex := r.reg (dorBase d + 8)
    let right := ex.testBit 15 && b.id.toNat = bitsOf ex 5 0 && b.door.toNat = bitsOf ex 10 8 && b.id ≠ r.myId &&
      b.pool.toNat = r.reg 0x190118
    let echo := b.echoValid && b.echoId = r.myId && b.echoDoor.toNat = d.val
    let x := r.door d
    if x.up then (if right then r else r.doorFail d)
    else if x.mismatch then r
    else if !right then
      ((r.modDoor d fun x => { x with mismatch := true }).dorEvent d Code.cableMismatch).routedCheck
    else if echo then ((r.modDoor d fun x => { x with up := true }).routedCheck).flushWaiting
    else r

def execBeacon (d : Fin 8) (h : LinkHdr) (b : Beacon) (s : State) : Host.Outcome State Fault Refusal :=
  .next (Run.finish s (((Run.start s).doorTook d).beaconIn d h b))

/-! ## Frames leave (R286, R295–R301) -/

/-- A frame goes into the transmit crossing and out on the Door. -/
def Run.toLink (r : Run) (d : Fin 8) (w : Frame) : Run :=
  (r.cross (.doorTx d) 1).modOut fun o => { o with frames := o.frames ++ [(d, w)] }

/-- A link or time frame of these payload bytes: authenticated only, with its counter in payload bytes 0–7. -/
def Run.sendPlain (r : Run) (d : Fin 8) (cls : Nat) (payload : BitVec 896) : Run :=
  let x := r.door d
  let kid := r.txKsel d
  let h := mkHdr cls kid 0 0 x.lastAcc false (r.rxXoff d)
  let sec := r.secOn d
  let msg := if sec then payload ||| BitVec.ofNat 896 (x.linkCnt % 2 ^ 64) else payload
  let nc := nonce true r.myId d x.linkCnt
  let tag := if sec then (Config.gcmSeal (r.doorKey d 0x100 kid) nc (msg ++ h) 0).2 else 0
  let r := r.modDoor d fun x =>
    { x with linkCnt := x.linkCnt + 1, freeCc := r.c.cc + (if x.half then 2 else 1) }
  r.toLink d (mkFrame h msg tag)

/-- A payload with a value at byte b. -/
def atByte (b v : Nat) : BitVec 896 := BitVec.ofNat 896 (v <<< (8 * b))

def Run.sendIdle (r : Run) (d : Fin 8) : Run := r.sendPlain d 7 0

def Run.sendNak (r : Run) (d : Fin 8) : Run :=
  let x := r.door d
  (r.sendPlain d 7 (atByte 12 1 ||| atByte 16 x.expSeq.toNat)).modDoor d fun x =>
    { x with nakDue := false, nakAt := some r.now }

def Run.sendBeacon (r : Run) (d : Fin 8) : Run :=
  let x := r.door d
  let p := atByte 12 2 ||| atByte 13 (r.myId.toNat + 0x80) ||| atByte 14 (d.val + r.mode.code * 16) |||
    atByte 15 (if x.half then 4 else 8) ||| atByte 16 (r.reg 0x190118) ||| atByte 20 r.c.fab.incarn.toNat |||
    atByte 22 (x.farId.toNat + b2n x.farV * 0x80) ||| atByte 23 x.farDoor.toNat ||| atByte 24 r.c.fuses.serial.toNat |||
    atByte 32 (r.ftNs % 2 ^ 64)
  (r.sendPlain d 7 p).modDoor d fun x => { x with beaconNow := false }

/-- A capture of FT on arrival, with the Door's asymmetry in ps (R315). -/
def Run.capture (r : Run) (d : Fin 8) : Int :=
  let a := r.fld (dorBase d + 0x1C) 15 0
  let ps : Int := if 0x8000 ≤ a then (a : Int) - 0x10000 else a
  ((r.c.ft : Int) + ps * 10 ^ 7) / 10 ^ 10

/-- What the start of a time frame captures: t1 with T_REQ, and t3, sent on as T_FOLLOW, with T_RESP. -/
def Run.timeSent (r : Run) (d : Fin 8) (p : BitVec 896) : Run :=
  let ty := (p.extractLsb' 96 8).toNat
  let xn : BitVec 16 := p.extractLsb' 112 16
  if ty = 0 then r.modTime fun t => if t.xn = xn then { t with t1 := some (r.ftNs : Int) } else t
  else if ty = 1 then match (r.door d).asked.find? fun a => a.1 = xn with
    | some a =>
      let b := (atByte 12 2 ||| atByte 14 xn.toNat) ||| (atByte 16 (BitVec.toNat a.2) ||| atByte 24 (r.ftNs % 2 ^ 64))
      let g : TxFrame := { cls := 3, pos := 0, bytes := b }
      r.modDoor d fun x => { x with asked := (x.asked.filter fun y => y.1 ≠ xn), txq := x.txq ++ [g] }
    | none => r
  else r

/-- The partner takes frames of the class, and the replay buffer has room for one (R299, R300). -/
def Run.clsOpen (r : Run) (d : Fin 8) (cls : Nat) : Bool :=
  let x := r.door d
  x.up && !(r.fenced (unitDoor d)) && r.mode.fabric && !(x.txXoff.getLsbD cls) &&
    !(seqFrame cls && decide (512 ≤ x.kept.length))

/-- No message of the frame's class is half sent, or it is the frame's own (R295). -/
def Door.mayStart (x : Door) (f : TxFrame) : Bool := x.midTx.all fun y => y.1 ≠ f.cls || y.2 = f.via

/-- The requester code of a frame (R211, R309). -/
def TxFrame.code (f : TxFrame) : Nat := if f.via.isSome then 0x5B else 0x60 + f.cls

/-- The oldest frame of a requester code that the Door may start. -/
def Run.txReady (r : Run) (d : Fin 8) (code : Nat) : Option TxFrame :=
  let x := r.door d
  x.txq.find? fun f => f.code = code && r.clsOpen d f.cls && x.mayStart f

/-- Send a sequenced frame for the first time. -/
def Run.sendSeq (r : Run) (d : Fin 8) (f : TxFrame) : Run :=
  let x := r.door d
  let kid := r.txKsel d
  let h := mkHdr f.cls kid f.pos x.nextSeq x.lastAcc f.abort (r.rxXoff d)
  let i := Fin.boolIdx kid
  let (msg, tag) := if r.secOn d then
      Config.gcmSeal (r.doorKey d 0x100 kid) (nonce false r.myId d x.txCnt[i]) (h.setWidth 928) f.bytes
    else (f.bytes, 0)
  let wire := mkFrame h msg tag
  let ends := f.pos = 0 || f.pos = 3
  let r := r.modDoor d fun x =>
    { x with txq := x.txq.eraseP fun y => y = f,
             midTx := (x.midTx.filter fun y => y.1 ≠ f.cls) ++ (if ends then [] else [(f.cls, f.via)]),
             kept := x.kept ++ [{ seq := x.nextSeq, f := f, wire := wire }], nextSeq := x.nextSeq + 1,
             txCnt := x.txCnt.set i.val (x.txCnt[i] + 1) i.isLt, markAt := if x.kept.isEmpty then r.now else x.markAt,
             freeCc := r.c.cc + (if x.half then 2 else 1) }
  r.toLink d wire

/-- Send the next frame of a replay as it was first sent. -/
def Run.sendReplay (r : Run) (d : Fin 8) (s : BitVec 10) : Run :=
  match (r.door d).kept.find? fun k => k.seq = s with
  | some k =>
    let r := r.modDoor d fun x => { x with replay := x.replay.tail, freeCc := r.c.cc + (if x.half then 2 else 1) }
    r.toLink d k.wire
  | none => r.modDoor d fun x => { x with replay := x.replay.tail }

/-- A frame slot of the Door: its calendar has a record now, no frame is still serialising, and the transmit crossing has
room (R216). In SAFE, where the
Timetable stands, the link needs no slot. -/
def Run.frameSlot (r : Run) (d : Fin 8) : Bool :=
  decide ((r.door d).freeCc ≤ r.c.cc) && !(r.xingFull (.doorTx d)) && (r.hasSlot (176 + d.val) || !r.c.tt.run)

/-- No code of the slot's record has a frame to start. -/
def Run.slotUnused (r : Run) (d : Fin 8) : Bool := !r.c.tt.run || r.canIdle (176 + d.val)

/-- The frame of class `cls` that a slot starts, or a transit frame of the class in a transit slot. -/
def Run.slotFrame (r : Run) (d : Fin 8) (cls : Nat) : Option TxFrame :=
  let may (code : Nat) : Bool := !r.c.tt.run || r.canGrant (176 + d.val) code
  match if may (0x60 + cls) then r.txReady d (0x60 + cls) else none with
  | some f => some f
  | none => if may 0x5B then (r.txReady d 0x5B).filter fun f => f.cls = cls else none

def Run.beaconOver (r : Run) (d : Fin 8) : Bool :=
  (r.door d).beaconNow && decide ((r.door d).beaconAt + usec 1 ≤ r.now)

/-- FRAME_START: in a frame slot the Door sends the NAK that it owes, an overdue BEACON, the next frame of a replay,
or the frame of class `cls` that the slot grants; in a slot without a grant, a due BEACON or an IDLE. -/
def Run.frameStart (r : Run) (d : Fin 8) (cls : Nat) : Run :=
  let x := r.door d
  let take (r : Run) (code : Nat) : Run := if r.c.tt.run then r.grant (176 + d.val) code else r
  if !(r.doorLinks d) || !(r.frameSlot d) then r
  else if x.nakDue then (take r 0xFF).sendNak d
  else if r.beaconOver d then (take r 0xFF).sendBeacon d
  else match x.replay with
    | s :: _ => (take r 0xFF).sendReplay d s
    | [] =>
      match r.slotFrame d cls with
      | some f =>
        let r := take r f.code
        if seqFrame cls then r.sendSeq d f
        else
          let r := r.modDoor d fun x => { x with txq := x.txq.eraseP fun y => y = f }
          (r.sendPlain d cls f.bytes).timeSent d f.bytes
      | none =>
        if r.slotUnused d then (if x.beaconNow then (take r 0xFF).sendBeacon d else (take r 0xFF).sendIdle d) else r

def execFrameStart (d : Fin 8) (cls : Nat) (s : State) : Host.Outcome State Fault Refusal :=
  .next (Run.finish s ((Run.start s).frameStart d cls))

/-- BEACON_DUE: the interval has passed; the BEACON goes at once when the slot carries nothing. -/
def Run.beaconDue (r : Run) (d : Fin 8) : Run :=
  let gap := if r.mode = .join then usec 10 else usec 100
  if r.doorLinks d && !(r.door d).beaconNow && decide ((r.door d).beaconAt + gap ≤ r.now) then
    let r := r.modDoor d fun x => { x with beaconNow := true, beaconAt := r.now }
    r.when (r.slotUnused d) fun r => r.frameStart d 7
  else r

def execBeaconDue (d : Fin 8) (s : State) : Host.Outcome State Fault Refusal :=
  .next (Run.finish s ((Run.start s).beaconDue d))

/-! ## Retraining and replay (R287, R288, R299) -/

/-- A quick retrain begins. -/
def Run.quickTrain (r : Run) (d : Fin 8) : Run :=
  (r.modDoor d fun x => { x with quick := true, replaying := false, replay := [] }).count32 (dorBase d + 0x34) 1

/-- ACK_TIMEOUT: frames are unacknowledged and the mark has not advanced in time. -/
def Run.ackTimeout (r : Run) (d : Fin 8) : Run :=
  let x := r.door d
  if r.doorRuns d && x.up && !x.kept.isEmpty && !x.replaying &&
      decide (x.markAt + usec (r.fld (dorBase d + 0xC) 9 0) ≤ r.now) then
    (r.dorEvent d Code.ackTimeout 0 4 (path := [unitDoor d, unitHouse x.farId])).quickTrain d
  else r

def execAckTimeout (d : Fin 8) (s : State) : Host.Outcome State Fault Refusal :=
  .next (Run.finish s ((Run.start s).ackTimeout d))

/-- REPLAY_FAIL: the mark has not advanced in time since the replay began; the third in a row fails the Door. -/
def Run.replayFail (r : Run) (d : Fin 8) : Run :=
  let x := r.door d
  if r.doorRuns d && x.replaying && decide (x.replayAt + usec (r.fld (dorBase d + 0xC) 9 0) ≤ r.now) then
    let r := r.modDoor d fun x => { x with fails := x.fails + 1, replaying := false }
    if 3 ≤ x.fails + 1 then r.doorFail d else r.quickTrain d
  else r

def execReplayFail (d : Fin 8) (s : State) : Host.Outcome State Fault Refusal :=
  .next (Run.finish s ((Run.start s).replayFail d))

/-- Both halves of the link hold a bad lane. -/
def bothBad (v : BitVec 8) : Bool := v.extractLsb' 0 4 ≠ 0 && v.extractLsb' 4 4 ≠ 0

/-- A lane is bad (R287): the link retrains on the other half, or the Door fails. -/
def Run.laneLost (r : Run) (d : Fin 8) (lane : Fin 8) : Run :=
  let x := r.door d
  let bad := x.laneBad ||| (1#8 <<< lane.val)
  let r := r.modDoor d fun x => { x with laneBad := bad }
  if bothBad bad then r.doorFail d
  else (r.modDoor d fun x => { x with degrade := true }).quickTrain d

/-- LANE_FAIL. -/
def Run.laneFail (r : Run) (d : Fin 8) (lane : Fin 8) : Run :=
  if (r.door d).trained && !(r.fenced (unitDoor d)) && r.mode.fabric then r.laneLost d lane else r

def execLaneFail (d : Fin 8) (lane : Fin 8) (s : State) : Host.Outcome State Fault Refusal :=
  .next (Run.finish s ((Run.start s).laneFail d lane))

/-- QUICK_RETRAIN_END: the link replays from the mark, at half width when a lane was lost; a failure fails the Door. -/
def Run.quickEnd (r : Run) (d : Fin 8) (ok : Bool) : Run :=
  let x := r.door d
  if !x.quick then r
  else
    let r := r.modDoor d fun x => { x with quick := false, degrade := false, trained := ok, up := x.up && ok }
    if !ok then r.doorFail d
    else
      let r := if x.degrade then
          (r.modDoor d fun x => { x with half := true, lset := decide (x.laneBad.extractLsb' 0 4 ≠ 0) }).dorEvent d
            Code.laneDegrade
        else r
      r.rewind d 0

def execQuickRetrainEnd (d : Fin 8) (ok : Bool) (s : State) : Host.Outcome State Fault Refusal :=
  .next (Run.finish s ((Run.start s).quickEnd d ok))

/-- A full training begins (R288). -/
def Run.fullTrain (r : Run) (d : Fin 8) : Run :=
  (r.modDoor d fun x =>
    { x with training := true, quick := false, up := false, mismatch := false, failed := false, replaying := false, replay := [] }).count32
    (dorBase d + 0x34) 1

/-- DOOR_TRAIN_DONE: a full training ends. No link trains while JTAG holds the balls (R546). -/
def Run.trainDone (r : Run) (d : Fin 8) (e : TrainEnd) : Run :=
  let x := r.door d
  if !x.training || r.c.jtag ≠ .none then r
  else
    let wide := r.bit (dorBase d + 4) 2
    let r := r.modDoor d fun x => { x with training := false, beaconAt := r.now }
    match e with
    | .full =>
      if wide then r.modDoor d fun x => { x with trained := true, half := false, lset := false, laneBad := 0 }
      else r.modDoor d fun x => { x with trained := true, half := true, lset := decide (x.laneBad.extractLsb' 0 4 ≠ 0) }
    | .half =>
      let r := r.modDoor d fun x =>
        { x with trained := true, half := true, lset := decide (x.laneBad.extractLsb' 0 4 ≠ 0) }
      r.when wide fun r => r.dorEvent d Code.laneDegrade
    | .failed =>
      let was := x.trained
      let r := r.modDoor d fun x => { x with trained := false }
      r.when was fun r => r.doorFail d

def execDoorTrainDone (d : Fin 8) (e : TrainEnd) (s : State) : Host.Outcome State Fault Refusal :=
  .next (Run.finish s ((Run.start s).trainDone d e))

/-! ## Gaps (R310) -/

/-- SEQ_GAP: delivery skips to the oldest held message of the source and class. -/
def Run.seqGap (r : Run) (src : BitVec 6) (cls : Nat) : Run :=
  let hs := r.c.fab.held.filter fun h => h.src = src && h.cls = cls
  let next := (r.peer src).rxEseq[fin3 cls]
  if hs.any fun h => decide (h.since + usec (r.fld 0x190114 9 0) ≤ r.now) then
    match (hs.map fun h => (h.msg.eseq - next).toNat).min? with
    | some n =>
      let r := r.modPeer src fun p =>
        { p with rxEseq := p.rxEseq.set (cls % 3) (next + BitVec.ofNat 16 n) (Nat.mod_lt _ (by decide)) }
      let r := (r.count32 0x190124 1).sysEvent 50 Code.seqGap 4 none (r.routePath src) 3 ((hs.head?.map (·.door)).getD 0)
      (r.heldGo src cls 256).reorderRoom
    | none => r
  else r

def execSeqGap (src : Fin 64) (cls : Nat) (s : State) : Host.Outcome State Fault Refusal :=
  .next (Run.finish s ((Run.start s).seqGap (BitVec.ofFin src) cls))

/-! ## A Door is fenced (R318, R319) -/

/-- From the fence on the Door sends nothing, and none of its codes has work: what it has accepted goes on at once (log
entry 111, DESIGN CHOICE), and what it had begun to forward from other Houses is closed with ABORT. -/
def Run.doorFence (r : Run) (d : Fin 8) : Run :=
  let mine (x : Xfer) : Bool := x.k = doorCal d
  let xs := r.c.wait.filter mine
  let r := { r with c := { r.c with wait := r.c.wait.filter fun x => !(mine x) } }
  let r := r.forEach xs fun x r => r.launch (doorCal d) (x.load.dest d) x.load
  let r := r.forEach (r.door d).parts fun p r => match p.transit with
    | some e =>
      if p.pieces.isEmpty then r
      else r.launch (doorCal d) (doorCal e)
        (.transit e { cls := p.cls, pos := 3, abort := true, bytes := 0, via := some d.val })
    | none => r
  r.modDoor d fun x => { x with up := false, parts := [], replay := [], replaying := false, quick := false }

/-- At the seam boundary: every message of the fenced Door not wholly acknowledged is sent again, oldest first, before
those that waited (R319). The Door's sequence state starts anew. -/
def Run.doorResend (r : Run) (d : Fin 8) : Run :=
  let x := r.door d
  let ms := ((x.kept.filter fun k => !k.acked).map (·.f) ++ x.txq).filterMap fun f => f.msg
  let ws := r.c.fab.waiting
  let r := r.modFab fun y => { y with waiting := [] }
  let r := r.modDoor d fun x =>
    { x with kept := [], txq := [], midTx := [], nextSeq := 0, expSeq := 0, lastAcc := 0, nakDue := false, fails := 0,
             txCnt := Vector.replicate 2 0, rxCnt := Vector.replicate 2 0 }
  let r := (r.count32 (dorBase d + 0x44) ms.length).forEach ms fun f r => r.emit f r.ftNs
  r.forEach ws fun w r => r.emit w.1 w.2

end Sys2Proof.Machine
end

