-- ==== Sys2Proof/Machine/Time.lean ====
section
/-! DEFINITION. Fabric time: the acting master, the exchange with the parent House, and the correction of FT
(R314–R317, R324). -/
namespace Sys2Proof.Machine
open Sys2Proof

def timCtrl : Nat := 0x40008

/-- A House is live as this House sees it: it is this House, or one not declared dead (R311). -/
def Run.houseLive (r : Run) (e : BitVec 6) : Bool := e = r.myId || !(r.dead e)

/-- The acting master: MASTER while it is live, BACKUP while MASTER is dead (R315). -/
def Run.actingMaster (r : Run) : Option (BitVec 6) :=
  let w := r.reg timCtrl
  let ms := BitVec.ofNat 6 w
  if w.testBit 6 && r.houseLive ms then some ms
  else if w.testBit 14 then some (BitVec.ofNat 6 (bitsOf w 13 8))
  else none

/-- The upstream Door: the Door of R308 toward the acting master, when that is another House. -/
def Run.upstream (r : Run) : Option (Fin 8) :=
  match r.actingMaster with
  | some e => if e = r.myId then none else match r.route e with
    | .go d => some d
    | _ => none
  | none => none

/-- TIM_CTRL.PERIOD_US in microseconds. -/
def Run.timePeriod (r : Run) : Nat := r.fld timCtrl 25 16

/-- A time frame waits for a class 3 slot of the Door. -/
def Run.timeFrame (r : Run) (d : Fin 8) (ty : Nat) (xn : BitVec 16) : Run :=
  let b := atByte 12 ty ||| atByte 14 xn.toNat
  let g : TxFrame := { cls := 3, pos := 0, bytes := b }
  r.modDoor d fun x => { x with txq := x.txq ++ [g] }

/-- T_REQ: the parent captures t2 and answers with T_RESP, whose departure gives t3. -/
def Run.tReq (r : Run) (d : Fin 8) (xn : BitVec 16) : Run :=
  if !(r.doorRuns d) then r
  else
    let t2 := BitVec.ofInt 64 (r.capture d)
    let r := r.modDoor d fun x => { x with asked := (x.asked.filter fun y => y.1 ≠ xn) ++ [(xn, t2)] }
    r.timeFrame d 1 xn

def execTReq (d : Fin 8) (xn : BitVec 16) (s : State) : Host.Outcome State Fault Refusal :=
  .next (Run.finish s (((Run.start s).doorTook d).tReq d xn))

/-- The exchange under way is the one that a frame on Door d names. -/
def Run.timeMatch (r : Run) (d : Fin 8) (xn : BitVec 16) : Bool :=
  r.doorRuns d && r.upstream = some d && r.c.time.xn = xn && r.c.time.t1.isSome

/-- T_RESP: t4 is captured. -/
def Run.tResp (r : Run) (d : Fin 8) (xn : BitVec 16) : Run :=
  if r.timeMatch d xn then
    let t4 := r.capture d
    r.modTime fun t => { t with t4 := some t4 }
  else r

def execTResp (d : Fin 8) (xn : BitVec 16) (s : State) : Host.Outcome State Fault Refusal :=
  .next (Run.finish s (((Run.start s).doorTook d).tResp d xn))

/-- θ of R315, halves rounded down (log entry 42, DESIGN CHOICE). -/
def timeTheta (t1 t2 t3 t4 : Int) : Int := ((t2 - t1) + (t3 - t4)) / 2
def timeDelay (t1 t2 t3 t4 : Int) : Int := ((t4 - t1) - (t3 - t2)) / 2

def clampInt (lim v : Int) : Int := max (-lim) (min lim v)

/-- The rate that removes θ over one period of `p` µs, limited to ±200 ppm (R316). -/
def slewRate (theta : Int) (p : Nat) : Int := clampInt 200000 (theta * 10 ^ 6 / p)

/-- R316: slew, step, hold, or slew at the limit. -/
def Run.correctFt (r : Run) (theta : Int) : Run :=
  if decide (-1000 ≤ theta ∧ theta ≤ 1000) then
    let rate := slewRate theta r.timePeriod
    r.modTime fun t => { t with rate := rate }
  else if r.mode = .join then
    if 0 < theta then { r with c := { r.c with ft := (r.c.ft + theta.toNat * 10 ^ 10) % (2 ^ 64 * 10 ^ 10) } }
    else r.modTime fun t => { t with holdUnits := (-theta).toNat * 10 ^ 10 }
  else
    let rate : Int := if 0 < theta then 200000 else -200000
    (r.modTime fun t => { t with rate := rate }).sysEvent 46 Code.timeFar

/-- T_FOLLOW completes an exchange. -/
def Run.tFollow (r : Run) (d : Fin 8) (xn : BitVec 16) (t2 t3 : BitVec 64) : Run :=
  if !(r.timeMatch d xn) then r
  else match r.c.time.t1, r.c.time.t4 with
    | some t1, some t4 =>
      let theta := timeTheta t1 t2.toNat t3.toNat t4
      let delay := timeDelay t1 t2.toNat t3.toNat t4
      let good := decide (-10 ≤ theta ∧ theta ≤ 10)
      let run := if good then min 8 (r.c.time.goodRun + 1) else 0
      let r := r.modTime fun t =>
        { t with offset := theta, delay := delay.toNat, goodRun := run, locked := t.locked || decide (8 ≤ run),
                 holdover := false, lastXn := r.now, t1 := none, t4 := none }
      r.correctFt theta
    | _, _ => r

def execTFollow (d : Fin 8) (xn : BitVec 16) (t2 t3 : BitVec 64) (s : State) : Host.Outcome State Fault Refusal :=
  .next (Run.finish s (((Run.start s).doorTook d).tFollow d xn t2 t3))

/-- TIME_EXCHANGE: once every PERIOD_US the House sends T_REQ; an exchange not completed is abandoned (R315). -/
def Run.timeExchange (r : Run) : Run :=
  match r.upstream with
  | some d =>
    if r.doorRuns d && decide (r.c.time.nextXn ≤ r.now) then
      let xn := r.c.time.xn + 1
      let p := usec r.timePeriod
      let r := r.modTime fun t => { t with xn := xn, t1 := none, t4 := none, nextXn := r.now + p }
      r.timeFrame d 0 xn
    else r
  | none => r

def execTimeExchange (s : State) : Host.Outcome State Fault Refusal := .next (Run.finish s (Run.start s).timeExchange)

/-- TIME_HOLDOVER: 16 periods without a completed exchange in a House that is not the acting master (R316). -/
def Run.timeHoldover (r : Run) : Run :=
  let t := r.c.time
  if r.mode.fabric && !t.holdover && r.actingMaster.isSome && r.actingMaster ≠ some r.myId &&
      decide (t.lastXn + 16 * usec r.timePeriod ≤ r.now) then
    let path := match r.actingMaster with
      | some e => r.routePath e
      | none => []
    ((r.modTime fun t => { t with holdover := true, locked := false, goodRun := 0 }).windowFlag 16).sysEvent 46 Code.timeHoldover 4 none path
  else r

def execTimeHoldover (s : State) : Host.Outcome State Fault Refusal := .next (Run.finish s (Run.start s).timeHoldover)

end Sys2Proof.Machine
end

