-- ==== Sys2Proof/Machine/Traffic.lean ====
section
/-! DEFINITION. Transfers leave their stops and arrive; who has work at each calendar, and to whom the slots of a cc go
(R17, R207, R211, R216–R218, R220, R236). -/
namespace Sys2Proof.Machine
open Sys2Proof

/-! ## A transfer leaves its stop -/

/-- The fabric request whose first DATA has just left. -/
def Run.fabLeft (r : Run) (f : FMsg) : Run :=
  let mine (z : FabOut) : Bool := z.posted && z.f.src = f.dst && z.f.tag = f.tag && match z.lines with
    | x :: _ => blkLine (lineBlk z.f.addr) x.1 = f.addr
    | [] => false
  match allRooms.findSome? fun m => ((r.room m).fabOut.find? mine).map fun z => (m, z) with
  | some (m, z) => r.fabNext m z
  | none => r

/-- A transfer leaves its stop: a fabric message for the Door of its route, a delivered message for the Room that now
serves its block, anything else for where it was to go. Its request retires (R223). -/
def Run.xferGo (r : Run) (x : Xfer) : Run :=
  let r := match x.load with
    | .msg f t =>
      let r := if r.route f.dst = .wait then r.sendMsg f t else r.msgGo x.k f t
      if f.op = Op.data then r.fabLeft f else r
    | .room m f d =>
      let m := (r.msgTo f).getD m
      r.launch x.k (roomCal m) (.room m f d)
    | l => r.launch x.k (l.dest 0) l
  match x.retire with
  | some s => r.retire s
  | none => r

/-! ## A transfer arrives -/

/-- A transfer that has met another on a lane arrives damaged: its line is poison, and a read that it asked for is
answered with poison (R236; log entry 113, DEDUCED). -/
def hurtMsg (f : FMsg) : FMsg := { f with poison := f.poison || opFrames f.op = some 3 }
def CelRet.hurt : CelRet → CelRet
  | .mud i d _ => .mud i d true
  | .rmw n d _ => .rmw n d true
  | .answer i l d _ => .answer i l d true
  | .resil l => .resil l
def CelCmd.hurt (x : CelCmd) : CelCmd := { x with md := { x.md with poison := true } }
def Ans.hurt : Ans → Ans
  | .data _ _ => .data 0 true
  | .done => .done

/-- A request reaches its Room. -/
def Run.itemIn (r : Run) (p : Fin 8) (m : Fin 64) (it : Item) (bad : Bool) : Run :=
  if bad && it.reads then (r.answered it.src (.data 0 true)).retire it.src
  else { r with c := { r.c with hall := r.c.hall ++
    [{ p := p, m := m, item := { it with poison := it.poison || (bad && it.writes) } }] } }

/-- A command reaches its channel. -/
def Run.celIn (r : Run) (c : Fin 16) (x : CelCmd) (bad : Bool) : Run :=
  if !bad then r.celPush c x
  else if x.write then r.celPush c x.hurt
  else r.celDeliver c x (.ok 0 true) 0

/-- A DRAM return reaches its Room. -/
def Run.retIn (r : Run) (m : Fin 64) : CelRet → Run
  | .resil line => r.modRoom m fun y =>
      { y with resils := y.resils.map fun x => if x.line = line then { x with here := true } else x }
  | x => r.modRoom m fun y => { y with returns := y.returns ++ [x] }

/-- A transit frame reaches its egress Door. When that Door is fenced, the whole message is sent on another route. -/
def Run.transitIn (r : Run) (e : Fin 8) (f : TxFrame) : Run :=
  if r.fenced (unitDoor e) then match f.msg with
    | some g => (r.count32 (dorBase e + 0x44) 1).emit g r.ftNs
    | none => r
  else r.modDoor e fun y => { y with txq := y.txq ++ [f] }

/-- A message reaches its Door; one whose Door has been fenced, or whose House has died, takes another way, or none. -/
def Run.msgIn (r : Run) (d : Fin 8) (f : FMsg) (stamp : Stamp) : Run :=
  if r.fenced (unitDoor d) || r.dead f.dst then r.emit f stamp else r.toDoor d f stamp

def Run.arrive (r : Run) (f : Fly) : Run :=
  match f.load with
  | .item p m it => r.itemIn p m it f.bad
  | .ans s a => r.answered s (if f.bad then a.hurt else a)
  | .cel c x => r.celIn c x f.bad
  | .msg g t => r.msgIn (fin8 (f.dst - 152)) (if f.bad then hurtMsg g else g) t
  | .bi p k kind hpa blk => r.toHost (.biSnp p k kind hpa blk)
  | .room _ g d => r.inboxAdd d (if f.bad then hurtMsg g else g)
  | .ret m x => r.retIn m (if f.bad then x.hurt else x)
  | .transit e g => r.transitIn e g
  | .late c x =>
    if r.c.rebuild.ch = c then r.modRebuild fun y => { y with late := y.late ++ [if f.bad then x.hurt else x] } else r

/-- The transfers that their destinations can use from this cc on arrive, in the order in which they set out (R179). -/
def Run.arrivals (r : Run) : Run :=
  let now (f : Fly) : Bool := !f.queued && decide (f.due ≤ r.c.cc)
  let fs := r.c.fly.filter now
  let r := { r with c := { r.c with fly := r.c.fly.filter fun f => !(now f) } }
  r.forEach fs fun f r => r.arrive f

/-- One cc of the word queues (R132). -/
def Run.wordQueues (r : Run) : Run :=
  let r := r.forEach allPorches fun p r =>
    let (q, w) := (r.porch p).drainQ.step 512
    (r.modPorch p fun x => { x with drainQ := q }).wordsOut w
  r.forEach allRooms fun m r =>
    let (q, w) := (r.room m).homeQ.step 128
    (r.modRoom m fun y => { y with homeQ := q }).wordsOut w

/-! ## Who has work (R216) -/

/-- The transfer's next stage takes it: a message has its route, and a delivered message a Room that is not fenced. -/
def Run.xferMay (r : Run) (x : Xfer) : Bool :=
  match x.load with
  | .msg f _ => r.canSend f.dst
  | .room m f _ => !(r.fenced (unitRoom ((r.msgTo f).getD m)))
  | _ => true

/-- The transfer waits for a slot of calendar `k` that goes to `code`: what is sent again by a Door takes ordinary slots
too (R225). -/
def Xfer.fits (x : Xfer) (k code : Nat) : Bool := x.k = k && (x.code = code || (x.code = 0x55 && code = 0x5A))

/-- The oldest transfer that the slot of calendar `k` can take for `code`. -/
def Run.nextXfer (r : Run) (k code : Nat) : Option Xfer := r.c.wait.find? fun x => x.fits k code && r.xferMay x

/-- The Room's entry takes the message in a slot of its Door: a request while the entry is open (R76), a snoop or an
answer at any time. -/
def Run.entryTakes (r : Run) (m : Fin 64) (e : FMsg × Stamp × Nat) (fill : Bool) : Bool :=
  let f := e.1
  r.msgTo f = some m && r.c.fab.first f && match opClass f.op with
    | 0 => !fill && r.fabServes && !(r.room m).closed
    | 1 => fill == decide (f.op = Op.data)
    | _ => !fill

def Run.entryWork (r : Run) (m : Fin 64) (code : Nat) : Bool :=
  let y := r.room m
  if r.fenced (unitRoom m) then false
  else if code < 0x48 then
    decide (0x40 ≤ code) && !y.closed && r.c.hall.any fun h => h.p.val + 0x40 = code && h.m = m
  else if code < 0x50 then r.c.fab.inbox.any fun e => e.2.2 + 0x48 = code && r.entryTakes m e false
  else if code = 0x50 then r.c.fab.inbox.any fun e => r.entryTakes m e true
  else if code = 0x51 then y.waiters.zipIdx.any fun w => r.ready m w.1 && y.firstOf w.2 w.1 && y.inTurn w.2 w.1
  else if code = 0x52 then !y.jobs.isEmpty
  else code = 0x53 && !y.returns.isEmpty

def Run.porchWork (r : Run) (p : Fin 8) (code : Nat) : Bool :=
  let x := r.porch p
  if r.fenced (unitPorch p) then false
  else if code = 0x54 then (x.landSent.any fun d => r.canResend p d) || x.lands.any fun e => r.landEligible p e
  else if code = 0x55 then (x.store.any fun e => e.reissue && r.canInject p e) || x.landSent.any fun d => r.canResend p d
  else x.store.any fun e => e.item.attr.cls.toNat = code && r.canInject p e

/-- The Mudroom has a line that may go home. -/
def Run.mudWork (r : Run) (m : Fin 64) : Bool :=
  match (r.room m).mud.find? fun e => r.mudEligible m e with
  | some e => r.canSend (r.homeOf (lineBlk e.line) e.attr.mirror)
  | none => false

def Run.roomStopWork (r : Run) (m : Fin 64) (code : Nat) : Bool :=
  let drains (fwd : Bool) : Bool := (r.room m).wbuf.any fun e => e.fwd = fwd && r.wbEligible m e && r.wbFirst m e
  !(r.fenced (unitRoom m)) && ((r.nextXfer (roomCal m) code).isSome ||
    (code = 0x57 && ((r.outNext m 0 (r.room m).outC []).isSome || drains false)) ||
    (code = 0x58 && (drains true || r.mudWork m)))

/-- The answer that the rebuild sequencer waits for is at Door d (R270). -/
def Run.seqAnswer (r : Run) (d : Nat) : Bool :=
  r.c.fab.inbox.any fun e => e.2.2 = d && e.1.op = Op.data && msgIdx e.1 = 1002 && r.c.fab.first e.1

/-- A recovery sweep has a slot of its set on the channel that the record fits, and no demand access does (R275). -/
def Run.sweepWork (r : Run) (c : Fin 16) (m : Fin 64) : Bool :=
  match (r.room m).sweep with
  | some s =>
    let s := s.begin s.target r.nearWays
    s.left ≠ 0 && s.slots.any fun x =>
      let blk := r.nearCell s.lost s.target x.1
      r.chanOf blk (fin16 x.2) = c && r.recFits c false blk && !(r.lineBusy c blk)
  | none => false

def Run.cellarWork (r : Run) (c : Fin 16) (code : Nat) : Bool :=
  if code = 0x5C then r.rebuildReady c
  else if decide (0x80 ≤ code) then
    let m : Fin 64 := ⟨(code - 0x80) % 64, Nat.mod_lt _ (by decide)⟩
    !(r.fenced (unitChan c)) && !(r.fenced (unitRoom m)) && ((r.nextCmd c m.val).isSome || r.sweepWork c m)
  else false

/-- The Door can start a frame now. -/
def Run.frameWork (r : Run) (d : Fin 8) (code : Nat) : Bool :=
  r.doorLinks d && decide ((r.door d).freeCc ≤ r.c.cc) && !(r.xingFull (.doorTx d)) && (r.txReady d code).isSome

def Run.hasWork (r : Run) (k code : Nat) : Bool :=
  if h : k < 64 then r.entryWork ⟨k, h⟩ code
  else if k < 72 then r.porchWork (fin8 (k - 64)) code
  else if k < 136 then r.roomStopWork ⟨(k - 72) % 64, Nat.mod_lt _ (by decide)⟩ code
  else if k < 152 then (code = 0x5C || !(r.fenced (unitChan (fin16 (k - 136))))) && (r.nextXfer k code).isSome
  else if k < 160 then
    !(r.fenced (unitDoor (fin8 (k - 152)))) && ((r.nextXfer k code).isSome || (code = 0x5C && r.seqAnswer (k - 152)))
  else if k < 176 then r.cellarWork (fin16 (k - 160)) code
  else if k < 184 then r.frameWork (fin8 (k - 176)) code
  else !(r.fenced (unitPorch (fin8 (k - 184)))) && (r.nextResponse (fin8 (k - 184)) code).isSome

/-! ## To whom the slots go (R217, R218) -/

/-- The code that calendar `k`'s slot goes to: the owner's, or the first heir's with work; 0xFF when it is idle. -/
def Run.winner (r : Run) (k : Nat) : Option (Nat × Nat) :=
  (r.curRecord k).map fun w => (k, ((recCodes w.1).find? fun c => r.hasWork k c).getD 0xFF)

/-- The slots of the cc that begins. -/
def Run.takeSlots (r : Run) : Run :=
  { r with c := { r.c with slots := if r.c.tt.run then (List.range 192).filterMap r.winner else [] } }

/-- The slot of calendar `k`, one of those of the Hallway's other stops: its oldest transfer of the code leaves, a RESILVER
copy in an idle slot; a drain or a home write leaves by its own command. -/
def Run.inject1 (r : Run) (k : Nat) : Run :=
  match r.c.slots.find? fun s => s.1 = k with
  | some (_, code) => match r.nextXfer k code with
    | some x => ({ r.grant k code with c := { (r.grant k code).c with wait := r.c.wait.erase x } } : Run).xferGo x
    | none =>
      let m : Fin 64 := ⟨(k - 72) % 64, Nat.mod_lt _ (by decide)⟩
      if code = 0x57 && k < 136 && (r.outNext m 0 (r.room m).outC []).isSome then (r.grant k code).outStep m else r
  | none => r

/-- The Hallway in the cc that begins: transfers arrive, the slots of the cc go to who had work, waiting transfers leave,
and a RESILVER line makes its pass in an idle Room-entry slot (R165, R218). -/
def Run.hallway (r : Run) : Run :=
  let r := r.wordQueues.arrivals.takeSlots
  let r := r.forEach ((List.range 88).map (· + 72)) fun k r => r.inject1 k
  r.forEach allRooms fun m r => r.when (!(r.room m).resils.isEmpty) fun r => r.resilPass m

end Sys2Proof.Machine
end

