-- ==== Sys2Proof/Machine/Fences.lean ====
section
/-! DEFINITION. What a fence does to its unit, what changes at the seam boundary at which the fallback table starts, and
how the unit returns (R173, R224–R226, R267–R276, R318, R319, R346, R395–R397). -/
namespace Sys2Proof.Machine
open Sys2Proof

def fin64 (n : Nat) : Fin 64 := ⟨n % 64, Nat.mod_lt _ (by decide)⟩

/-! ## A Room (R90, R223, R224) -/

/-- A request that the lost Room had not retired waits at its Porch to be issued again (R182, R223). -/
def Ent.again (e : Ent) : Ent := { e with stage := .waiting, reissue := true }

/-- The same of a Landing drain. -/
def LandSent.again (d : LandSent) : LandSent := { d with stage := .waiting, reissue := true }

/-- A request on its way to Room m. -/
def Load.itemOf (m : Fin 64) : Load → Bool
  | .item _ n _ => n = m
  | _ => false

/-- The Porches keep every request that Room m has not retired, those still in the Hallway among them. -/
def Run.keepForRoom (r : Run) (m : Fin 64) : Run :=
  let r := { r with c := { r.c with hall := r.c.hall.filter fun h => h.m ≠ m,
                                    fly := r.c.fly.filter fun f => !(f.load.itemOf m) } }
  let mine (e : Ent) : Ent := if e.room = m && e.stage ≠ .waiting && !e.retired then e.again else e
  let drain (d : LandSent) : LandSent := if d.room = m && !d.retired then d.again else d
  r.forEach allPorches fun p r => r.modPorch p fun x =>
    { x with store := x.store.map mine, landSent := x.landSent.map drain }

/-- The Doors take back every request and snoop that Room m has not retired, oldest first: they wait to be sent again, in
reissue slots (R225). -/
def Run.keepForDoors (r : Run) (m : Fin 64) : Run :=
  let asks (f : FMsg) : Bool := opClass f.op ≠ 1 && decide (opClass f.op < 3) && r.roomOf (lineBlk f.addr) = m
  let mine (x : FMsg × Stamp × Nat) : Bool := asks x.1
  let onWay : Load → Option (FMsg × Nat)
    | .room _ f d => if asks f then some (f, d) else none
    | _ => none
  let back (x : FMsg × Nat) : Xfer := { k := 152 + x.2, code := 0x55, load := .room m x.1 x.2 }
  let xs := ((r.c.fab.kept ++ r.c.fab.inbox).filter mine).map (fun x => (x.1, x.2.2)) ++
    r.c.fly.filterMap fun f => onWay f.load
  let r := r.modFab fun x =>
    { x with inbox := x.inbox.filter fun y => !(mine y), kept := x.kept.filter fun y => !(mine y) }
  { r with c := { r.c with wait := xs.map back ++ r.c.wait, fly := r.c.fly.filter fun f => (onWay f.load).isNone } }

/-- The Room has retired the request, or the drain, that this source names. -/
def Run.retired (r : Run) : Src → Bool
  | .host uid p _ | .rsv uid p _ _ => (r.ent p uid).all fun e => e.retired
  | .land seq p => (r.porch p).landSent.all fun d => d.seq ≠ seq || d.retired
  | .fab f => !(r.c.fab.kept.any fun x => x.1 = f)
  | .house => true

/-- The Room to which the source's request was sent. -/
def Run.srcRoom (r : Run) : Src → Option (Fin 64)
  | .host uid p _ | .rsv uid p _ _ => (r.ent p uid).map (·.room)
  | .land seq p => ((r.porch p).landSent.find? fun d => d.seq = seq).map (·.room)
  | .fab f => some (r.roomOf (lineBlk f.addr))
  | .house => none

/-- A write buffer entry of a lost Room that has issued its writes still has its acknowledgements taken (log entry 43, DEDUCED). -/
def Run.wbKept (r : Run) (m : Fin 64) (e : WbEnt) : Option WbEnt :=
  let mine (x : CelCmd) : Bool := x.m = m && x.wb = some e.seq
  let queued := (allChans.any fun c => ((r.chan c).queue ++ (r.chan c).flight).any mine) || r.c.fly.any fun f =>
    match f.load with
    | .cel _ x => mine x
    | _ => false
  if e.st = .issued && (e.needAck || e.needTwin) then
    some { e with needCel := e.needCel && queued, twinLater := false, owners := [] }
  else none

/-- A message that waits at the stop of Room m and that its loss does not undo: an answer to a snoop, the
acknowledgement of a request that the Room has retired, and a write that it has issued. -/
def Run.msgStands (r : Run) (m : Fin 64) (f : FMsg) : Bool :=
  if f.op = Op.wrAck then !(r.c.fab.kept.any fun x => x.1.src = f.dst && x.1.tag = f.tag && x.1.addr = f.addr)
  else if f.op = Op.wrU || f.op = Op.wb || f.op = Op.mirrorWr then
    (r.room m).wbuf.any fun e => e.idx + 320 = msgIdx f && (r.wbKept m e).isSome
  else opClass f.op = 1 && f.op ≠ Op.data

/-- A transfer that waits for its slot is lost with Room m: its own, or an answer that will be given again. -/
def Run.xferLost (r : Run) (m : Fin 64) (x : Xfer) : Bool :=
  match x.load with
  | .ans s _ => r.srcRoom s = some m && !(r.retired s)
  | .ret n _ => n = m
  | .msg f _ =>
    if x.k = roomCal m then !(r.msgStands m f)
    else (r.room m).fabOut.any fun z => z.f.src = f.dst && z.f.tag = f.tag && f.op = Op.data
  | .room _ _ _ => false
  | _ => x.k = roomCal m

/-- What waits at the stop of Room m, and what it is still owed, goes with the Room; the rest leaves its stop at once (log
entry 112, DESIGN CHOICE). -/
def Run.roomXfers (r : Run) (m : Fin 64) : Run :=
  let here (x : Xfer) : Bool := x.k = roomCal m
  let xs := r.c.wait.filter fun x => here x && !(r.xferLost m x)
  let left := r.c.wait.filter fun x => !(here x) && !(r.xferLost m x)
  let lostFly (f : Fly) : Bool := match f.load with
    | .ret n _ => n = m
    | .cel _ x => x.m = m && !x.write
    | _ => false
  let r := { r with c := { r.c with wait := left, fly := r.c.fly.filter fun f => !(lostFly f) } }
  r.forEach xs fun x r => r.xferGo x

/-- Room m is fenced: what it held is lost, but for what the Porches, the Doors and DRAM still have. Lines that RESILVER has
read are the covering Room's to copy. -/
def Run.roomFence (r : Run) (m : Fin 64) : Run :=
  let r := (((r.rsvBreak m fun _ => true).keepForRoom m).roomXfers m).keepForDoors m
  let y := r.room m
  let r := r.modRoom (r.cover m) fun z => { z with resils := z.resils ++ y.resils.map fun x => { x with here := true } }
  let r := r.setRoom m
    { wbuf := y.wbuf.filterMap fun e => r.wbKept m e, markers := y.markers.map fun k => { k with behind := 0 }, walkSet := y.walkSet, trimSet := y.trimSet,
      refuge := y.refuge, refugeWalk := y.refugeWalk, refugeShut := y.refugeShut, homeQ := y.homeQ, seq := y.seq }
  let others (x : CelCmd) : Bool := x.m ≠ m || x.write
  r.forEach allChans fun c r => r.modChan c fun x => { x with queue := x.queue.filter others, flight := x.flight.filter others }

/-- At the seam boundary the covering Room takes over, and its sweep begins. -/
def Run.roomSeam (r : Run) (m : Fin 64) : Run := r.sweepStart m

/-- The tag entries of Room m leave the occupancy of their tenants (R353). -/
def Run.roomOcc (r : Run) (m : Fin 64) : Run :=
  let es := r.m.tags.filter fun x => decide (tagKey m 0 0 ≤ x.1 ∧ x.1 < tagKey m 32768 0) && x.2.counts
  r.forEach es fun x r => r.setOcc x.2.tenant (r.occ x.2.tenant - 1)

/-- Room m reopens with an empty Screen, directory and tag slice (R173). -/
def Run.roomReturn (r : Run) (m : Fin 64) : Run :=
  let r := (r.roomOcc m).st (.drop .tags (tagKey m 0 0) (tagKey m 32768 0))
  let r := r.st (.drop .plru (plruKey m 0) (plruKey m 32768))
  let r := r.st (.drop .scn (scnKey m 0 0) (scnKey m 16384 0))
  let r := r.st (.drop .dir (dirKey m 0 0) (dirKey m 2048 0))
  let r := r.modRoom (r.cover m) fun y => { y with sweep := none }
  r.modRoom m fun y => { wbuf := y.wbuf, markers := y.markers, homeQ := y.homeQ, seq := y.seq }

/-! ## A channel (R267–R270) -/

/-- A read that the lost channel does not answer: its item is looked up again, and other readers get poison or start
again. -/
def Run.readLost (r : Run) (x : CelCmd) : Run :=
  let b := lineBlk (paLine x.pa)
  let l := lineNo (paLine x.pa)
  match x.purpose with
  | some (.item m it _) => r.addWaiter m it .ready
  | some (.mud m i) =>
    (r.slotLost m (r.setOf b) ((r.findTag m b).getD 0) l b).modRoom m fun y =>
      { y with returns := y.returns ++ [.mud i 0 true] }
  | some (.rmw m n) => r.modWb m n fun e => { e with st := .open', force := true }
  | some (.answer m i l) =>
    ((r.slotLost m (r.setOf b) ((r.findTag m b).getD 0) l b).modCoh m i fun k => { k with reads := k.reads.filter fun y => y ≠ l, lines := k.lines ++ [(l, 0, true)] }).cohPoll m
  | none => r

/-- A twin reports each region whose copy lies partly on the lost channel (R268): every region has lines there. -/
def Run.twinDegraded (r : Run) (c : Fin 16) : Run :=
  r.forEach r.m.frames fun x r => match r.frameRgn (x.1 * 262144) with
    | some (n, false) => r.chEvent c Code.twinDegraded (some (n ++ 0#30))
    | _ => r

/-- Channel c is fenced: the Timetable issues no command on it. Lines that it has read go to where they were to go (log
entry 111, DESIGN CHOICE). -/
def Run.chanFence (r : Run) (c : Fin 16) : Run :=
  let mine : ChanOut → Option CelCmd
    | .cmd d x => if d = c then some x else none
    | .near _ => none
  let sent : Load → Option CelCmd
    | .cel d x => if d = c then some x else none
    | _ => none
  let here (x : Xfer) : Bool := x.k = chanCal c
  let go := r.c.wait.filter here
  let xs := (r.chan c).flight ++ (r.chan c).queue ++ r.c.fly.filterMap (fun f => sent f.load) ++
    allRooms.flatMap fun m => (r.room m).outC.filterMap mine
  let r := { r with c := { r.c with wait := r.c.wait.filter fun x => !(here x),
                                    fly := r.c.fly.filter fun f => (sent f.load).isNone } }
  let r := r.forEach go fun x r => r.xferGo x
  let r := r.modChan c fun x => { x with lost := true, queue := [], flight := [], lostRegions := [] }
  let r := r.forEach allRooms fun m r => r.modRoom m fun y => { y with outC := y.outC.filter fun o => (mine o).isNone }
  let r := r.forEach xs fun x r =>
    if x.write then match x.wb with
      | some n => r.wbNoCel x.m n
      | none => r
    else r.readLost x
  r.twinDegraded c

/-- Way NEAR_WAYS − 1 of a Room becomes the refuge (R269). -/
def Run.refugeStart (r : Run) (m : Fin 64) : Run :=
  if r.nearWays ≤ 1 || (r.room m).refuge || r.fenced (unitRoom m) then r
  else
    let w := fin16 (r.nearWays - 1)
    let r := if r.bit (rmBase m + 0x20) w then r
      else (r.wayDisable m w).modFbx fun x => { x with refugeBits := x.refugeBits ||| (1#64 <<< m.val) }
    r.modRoom m fun y =>
      { y with refuge := true, refugeShut := false, refugeWalk := !(y.jobs.any fun j => j.kind = .wayDis w) }

/-- The Rooms clear the refuge bits that they set, and the channel takes its own lines again (R270). -/
def Run.chanReturn (r : Run) (c : Fin 16) : Run :=
  let w := fin16 (r.nearWays - 1)
  let bits := r.c.fbx.refugeBits
  let r := r.forEach allRooms fun m r =>
    let r := r.when (bits.getLsbD m) fun r => r.wayEnable m w
    r.modRoom m fun y => { y with refuge := false, refugeWalk := false, refugeShut := false }
  let r := r.modFbx fun x => { x with refugeBits := 0 }
  let r := if r.c.rebuild.ch = c then
      (r.forEach r.c.rebuild.late fun w r => r.putLine c w.idx (r.encrypt w.tenant w.pa w.data w.md)).modRebuild fun x =>
        { ch := c, done := x.done }
    else r
  r.modChan c fun x => { x with lost := false, lostRegions := [] }

/-! ## A Porch (R346) -/

/-- A write that the fenced Porch discards. -/
def Run.dropWrite (r : Run) (p : Fin 8) (k : Nat) (pa : PoolAddr) : Run :=
  (r.pchEvent p k Code.porchLostWrite (some pa) 2).hostReport pa .fail .media

/-- Back-invalidates that the fenced Porch has not answered count as answered. -/
def Run.snoopsFenced (r : Run) (p : Fin 8) : Run :=
  r.forEach allRooms fun m r => r.forEach (r.room m).cohs fun c r =>
    r.forEach (c.snps.filter fun s => s.p = p) fun s r =>
      (r.when s.excl fun r => r.poisonLine m s.line).snoopDone m c.idx s

/-- Porch p is fenced: its links go down, and what it has not injected is discarded. -/
def Run.porchFence (r : Run) (p : Fin 8) : Run :=
  let r := r.forEach allLinks fun k r => r.linkLost p k
  let x := r.porch p
  let ents := x.store.filter fun e => e.stage = .waiting && !e.reissue
  let lands := x.lands.filter fun e => !e.draining
  let r := r.forEach (ents.filter fun e => isWrite e.item.op) fun e r => r.dropWrite p e.k.val e.item.pa
  let r := r.forEach lands fun e r => r.dropWrite p (if e.links.contains 0 then 0 else e.links.length) (linePa e.line)
  let gone (e : Ent) : Bool := ents.any fun y => y.uid = e.uid
  let keep (b : Bar) : Bar :=
    { b with lands := b.lands.filter fun n => !(lands.any fun y => y.seq = n),
             uids := b.uids.filter fun n => !(ents.any fun y => y.uid = n) }
  let r := r.modPorch p fun x =>
    { x with opened := false, store := x.store.filter fun e => !(gone e), bars := x.bars.map keep }
  (((r.landDrop p fun e => !e.draining).porchSettle p)).snoopsFenced p

/-! ## Fence, seam and return -/

/-- A fence lands (R382): the unit's bit is set, and the unit leaves service. -/
def Run.fenceUnit (r : Run) (u : UnitNo) : Run :=
  let r := r.when (decide (88 ≤ u)) fun r => r.porchFence (fin8 (u - 88))
  let r := r.modFbx fun x => { x with fenced := x.fenced ||| (1#96 <<< u) }
  if u < 64 then r.roomFence (fin64 u)
  else if u < 80 then r.chanFence (fin16 (u - 64))
  else if u < 88 then r.doorFence (fin8 (u - 80))
  else r

/-- Table t runs from this cc on, and ran not before: what its family moves (R225, R226, R269, R319). FILL has
nothing to recover (R430). -/
def Run.seamEffects (r : Run) (t : Nat) : Run :=
  if t < 2 then r
  else
    let u := t - 2
    if u < 64 then r.when (r.mode ≠ .fill) fun r => r.roomSeam (fin64 u)
    else if u < 80 then r.forEach allRooms fun m r => r.refugeStart m
    else if u < 88 then r.doorResend (fin8 (u - 80))
    else r

/-- The unit takes traffic again: its fence bit clears and FBX_FENCE_CUR.V clears (R397). -/
def Run.unfence (r : Run) (u : UnitNo) : Run :=
  let r := if u < 64 then r.roomReturn (fin64 u) else if u < 80 then r.chanReturn (fin16 (u - 64)) else r
  let r := r.modFbx fun x => { x with fenced := x.fenced &&& ~~~(1#96 <<< u), cur := none, phase := 0 }
  if 88 ≤ u then r.modPorch (fin8 (u - 88)) fun x => { x with opened := r.bit (pchBase (u - 88)) 0 }
  else r

end Sys2Proof.Machine
end

