-- ==== Sys2Proof/Machine/Modes.lean ====
section
/-! DEFINITION. The modes of the House (R13, R27–R31, R429–R436): what entering each of them does to the blocks, how
the Timetable starts and stops, and the resets (R411). -/
namespace Sys2Proof.Machine
open Sys2Proof

/-! ## The Timetable starts and stops (R208, R219) -/

/-- The Timetable stops; a pending switch is dropped. -/
def Run.ttStop (r : Run) : Run :=
  if r.c.tt.run then r.modTt fun t => { t with run := false, pend := false, stopAt := r.now } else r

/-- Time limits in a Room that was frozen move with the time that it stood still (R27; log entry 44, DESIGN CHOICE). -/
def Trk.shift (dt : Nat) (t : Trk) : Trk :=
  { t with pend := t.pend.map fun x => (x.1, x.2 + dt), grantBy := t.grantBy + dt }
def Coh.shift (dt : Nat) (c : Coh) : Coh :=
  let s (x : BiSnp) : BiSnp := { x with sentAt := x.sentAt + dt, by' := x.by' + dt }
  let i (x : InvOut) : InvOut := { x with sentAt := x.sentAt + dt, retryBy := x.retryBy + dt, lostBy := x.lostBy + dt }
  { c with snps := c.snps.map s, invs := c.invs.map i }
def Room.shift (dt : Nat) (y : Room) : Room :=
  { y with trks := y.trks.map (Trk.shift dt), cohs := y.cohs.map (Coh.shift dt) }

/-- The Timetable starts with table t in slot 0; NOMINAL under a thermal warning asks for COOL at once. What a Room's
fallback moves, it has moved already when that table ran before (log entry 50, DEDUCED). -/
def Run.ttStart (r : Run) (t : Nat) : Run :=
  let dt := r.now - r.c.tt.stopAt
  let r := r.forEach allRooms fun m r => r.modRoom m (Room.shift dt)
  let cool := t = 0 && r.c.thm.warn
  let again := r.c.tt.cur = t && t < 66
  let r := r.modTt fun x =>
    { x with run := true, cur := t, slot := 0, pend := cool, pendCc := r.c.cc, next := if cool then 1 else x.next }
  r.when (!again) fun r => r.seamEffects t

/-- The fallback table of a unit (R213, R402). -/
def unitTable (u : UnitNo) : Nat := u + 2

def Run.fencedUnits (r : Run) : List UnitNo := (List.range 96).filter fun u => r.fenced u

def Run.tablePresent (r : Run) (t : Nat) : Bool := r.bit (0x800000 + 16 * t) 0

/-- The table with which the Timetable starts: the fallback of a fenced unit, else NOMINAL (R398, R430). -/
def Run.startTable (r : Run) : Nat := match r.fencedUnits with
  | u :: _ => unitTable u
  | [] => 0

/-! ## Fences of unused units (R553) -/

/-- The Floorplan uses the unit. -/
def Run.unitUsed (r : Run) (u : UnitNo) : Bool :=
  if u < 64 then r.roomUsed u
  else if u < 80 then true
  else if u < 88 then r.bit (dorBase (u - 80) + 4) 0 && r.bit (dorBase (u - 80) + 8) 15
  else r.bit (pchBase (u - 88)) 0

/-! ## Blocks that a mode turns off (R27) -/

/-- Rooms are held in reset, but for their tag SRAM, and no transfer is on its way. -/
def Run.roomsReset (r : Run) : Run :=
  let r := (r.st (.drop .scn 0 (2 ^ 24))).st (.drop .dir 0 (2 ^ 24))
  { r with c := { r.c with rooms := Vector.replicate 64 {}, hall := [], wait := [], fly := [] } }

/-- Operations over all Rooms end with the jobs that a reset of the Rooms drops (R90, R101, R165). -/
def Run.jobsStop (r : Run) : Run :=
  { r with c := { r.c with cdrainBusy := false, csweepBusy := false, rjob := { r.c.rjob with busy := false } } }

def Run.porchesOff (r : Run) : Run := { r with c := { r.c with porches := Vector.replicate 8 {} } }

/-- A channel that is off keeps its remap table (R257, R411). -/
def Chan.stopped (x : Chan) : Chan := { remap := x.remap, lost := x.lost, capGib := x.capGib }
def Run.chansOff (r : Run) : Run := { r with c := { r.c with chans := r.c.chans.map Chan.stopped, rebuild := {} } }

def Run.doorsOff (r : Run) : Run :=
  (r.modFab fun x => { x with waiting := [], held := [], inbox := [], kept := [], routed := false }).modTime
    (fun t => { t with t1 := none, t4 := none }) |> fun r => { r with c := { r.c with doors := Vector.replicate 8 {} } }

/-! ## Changing the mode -/

/-- MOD_STATE takes a new value (R29, R437, R449). Liveness and time exchanges count from the start of the fabric. -/
def Run.modeIs (r : Run) (m : Mode) : Run :=
  let old := r.mode
  let r := (r.modMod fun x => { x with mode := m, prev := old, lastFt := r.ftNs }).vector 4
  let peer (p : Peer) : Peer := { p with lastHb := r.now }
  if m.fabric && !old.fabric then
    (r.modFab fun x => { x with peers := x.peers.map peer, hbAt := r.now }).modTime fun t =>
      { t with lastXn := r.now, nextXn := r.now }
  else r

/-- R28: which Porches are open follows from the mode. -/
def Run.closePorches (r : Run) : Run := r.forEach allPorches fun p r => r.modPorch p fun x => { x with opened := false }
def Run.openPorches (r : Run) : Run :=
  r.forEach allPorches fun p r =>
    if r.bit (pchBase p) 0 && !(r.fenced (unitPorch p)) then r.modPorch p fun x => { x with opened := true } else r

/-- Requests that waited in DRAIN or SAFE are judged again when the House leaves DRAIN (R334, R434). -/
def Run.releaseHeld (r : Run) : Run :=
  r.forEach allPorches fun p r => if (r.porch p).opened then r.pump p else r.pumpClosed p

/-- LOAD (R27). A load that IMG_CTRL.AUTO asks for is begun by the caller. Requests refused now are answered before
the Porches go into reset (log entry 48, DESIGN CHOICE). -/
def Run.enterLoad (r : Run) : Run :=
  let fresh := r.mode = .aux
  let r := (r.jobsStop.ttStop.modeIs .load).closePorches.releaseHeld
  let r := r.forEach allPorches fun p r => r.forEach (r.porch p).refused fun _ r => r.responseReturn p 64
  let r := r.roomsReset.porchesOff.chansOff.doorsOff
  r.when fresh fun r => r.modCrc fun x => { x with lapCc := r.c.cc }

/-- The BIST and the self-test run: the BIST destroys what the Pantry holds (R97, R424). -/
def Run.bistRuns (r : Run) : Run :=
  let r := r.st (.drop .pan 0 (2 ^ 25))
  { r with c := { r.c with selft := { busy := true, wiped := true, runs := r.c.selft.runs + 1 } } }

/-- CHECK: training, BIST and the self-test start (R424). -/
def Run.enterCheck (r : Run) : Run :=
  let r := r.modeIs .check |>.closePorches
  let train (x : Chan) : Chan := { x.stopped with capGib := 0 }
  let r := r.bistRuns
  { r with c := { r.c with chans := r.c.chans.map train, mod := { r.c.mod with logged := 0 } } }

/-- FILL (R97, R265, R368, R430): the SRAM and the meters are cleared, and the channels begin to be written. -/
def Run.enterFill (r : Run) : Run :=
  let r := ((r.jobsStop.modeIs .fill).closePorches).roomsReset
  let r := ((((r.st (.drop .tags 0 (2 ^ 25))).st (.drop .plru 0 (2 ^ 21))).st (.drop .pan 0 (2 ^ 25))).meterClear)
  let go (x : Chan) : Chan := { x with fillPtr := 0, cam := [], camSeq := 0, queue := [], flight := [] }
  let r := { r with c := { r.c with chans := r.c.chans.map go, selft := { r.c.selft with wiped := false } } }
  r.ttStart r.startTable

/-- JOIN (R307, R310, R368, R431, R436). A Door that is trained already is not trained again (log entry 45, DEDUCED). -/
def Run.enterJoin (r : Run) : Run :=
  let fromDrain := r.mode = .drain
  let r := ((r.modeIs .join).closePorches)
  let r := r.when fromDrain Run.releaseHeld
  let fresh (p : Peer) : Peer := { p with txEseq := Vector.replicate 3 0, rxEseq := Vector.replicate 3 0 }
  let r := r.modFab fun x =>
    { x with incarn := x.incarn + 1, routed := false, held := [], peers := x.peers.map fresh }
  let r := r.modMod fun x => { x with joinAt := r.now, joinOver := false, rejoin := !fromDrain }
  let r := r.meterOpen
  let r := if fromDrain then r else { r with c := { r.c with scrubStart := r.now } }
  let r := r.forEach allPorches fun d r =>
    let cabled := r.bit (dorBase d + 4) 0 && r.bit (dorBase d + 8) 15 && !(r.fenced (unitDoor d))
    if cabled && !(r.door d).trained then r.fullTrain d else r
  let r := r.when fromDrain fun r => r.forEach allRooms fun m r => r.jobStart m .rejoin
  r.routedCheck

/-- RUN, or DEGRADED while a unit is fenced. -/
def Run.enterRun (r : Run) : Run :=
  let fromJoin := r.mode = .join
  let fromDrain := r.mode = .drain
  let bad := !r.fencedUnits.isEmpty
  let r := r.modeIs (if bad then .degraded else .run)
  let r := r.when bad fun r => r.windowFlag 1
  let r := r.when fromJoin Run.openPorches
  r.when fromDrain Run.releaseHeld

/-- A Major fence leaves RUN or WINDOW for DEGRADED (R31, R380). -/
def Run.enterDegraded (r : Run) : Run := (r.modeIs .degraded).windowFlag 1

/-- DRAIN from RUN, DEGRADED or WINDOW (R434). -/
def Run.enterDrain (r : Run) : Run :=
  let old := r.mode
  (r.modeIs .drain).modMod fun x => { x with drainFrom := old }

/-- The answer of a read that SAFE ends (R30). -/
def Ent.safe (now : Nat) (e : Ent) : Ent :=
  if e.ans.isNone && (isRead e.item.op || e.item.op = .rsvLoad) then
    { e with ans := some (.data 0 true), stage := .atPorch, answeredAt := now, sent := e.sent || (e.gone && !e.slotOp),
             retired := e.retired || e.stage = .waiting }
  else e

/-- Reads that wait in a link's buffers are answered with poison, and writes stay held (R29, R434). A write that
DRAIN held stays held too (log entry 106, DESIGN CHOICE). -/
def Run.safeLink (r : Run) (p : Fin 8) (k : Fin 2) : Run :=
  let bs := (r.link p k).buf
  let keep := (bs.filter fun b => isWrite b.op).map fun b => { b with chk := none }
  let r := r.modLink p k fun l => { l with buf := keep, devFatal := l.devFatal || l.up }
  let r := r.forEach (bs.filter fun b => !(isWrite b.op)) fun b r => r.ingress b.q b.op
  r.when (r.link p k).up fun r => r.hostLog p k .fatal .module none

/-- DRAM goes into self-refresh: reads that have not ended start again when it leaves it (R27; log entry 105, DEDUCED). -/
def Run.selfRefresh (r : Run) : Run :=
  let back (x : Chan) : Chan := { x with queue := x.flight.map (fun y => { y with got := none }) ++ x.queue, flight := [] }
  { r with c := { r.c with chans := r.c.chans.map back } }

/-- What the Doors have for Rooms and for other Doors goes on without a slot: in SAFE fabric requests are answered with
poison, and links run (R27). -/
def Run.safeDoors (r : Run) : Run :=
  let mine : Load → Bool
    | .room _ _ _ | .transit _ _ => true
    | _ => false
  let xs := r.c.wait.filter fun x => mine x.load
  let r := { r with c := { r.c with wait := r.c.wait.filter fun x => !(mine x.load) } }
  r.forEach xs fun x r => match x.load with
    | .room _ f d => r.inboxAdd d f
    | .transit e f => r.transitIn e f
    | _ => r

/-- SAFE (R27, R29–R31, R203, R311, R347, R364, R391): the Porches close when it is entered from DRAIN (R28), and requests
that wait in their links stay held, writes with no answer (R334; log entry 106, DESIGN CHOICE). In OFF and AUX the House
stays where it is (R412). -/
def Run.enterSafe (r : Run) : Run :=
  if r.mode = .off || r.mode = .aux || r.mode = .safe then r
  else
    let fab := r.mode.fabric
    let drain := r.mode = .drain
    let r := (r.ttStop.modeIs .safe).modMod fun x => { x with pend := false, pantryReq := false, safeAt := r.now }
    let r := (r.windowFlag 2).selfRefresh.safeDoors.when drain Run.closePorches
    let r := r.forEach allRooms fun m r => r.rsvBreak m fun _ => true
    let r := r.forEach allPorches fun p r =>
      let r := r.modPorch p fun x => { x with store := x.store.map (Ent.safe r.now) }
      (r.forEach allLinks fun k r => r.safeLink p k).porchSettle p
    (r.when fab Run.heartbeats).when r.c.mtr.settling Run.meterEnd

/-- DRAIN from SAFE (R398): a unit that SAFE only recorded as fenced leaves service now (log entry 50, DEDUCED); the
Timetable starts with the fallback of the fenced unit, or with NOMINAL or COOL. Time spent in SAFE does not count for the request watchdog (R343). -/
def Run.leaveSafe (r : Run) : Run :=
  let dt := r.now - r.c.mod.safeAt
  let r := r.modeIs .drain |>.modMod fun x => { x with drainFrom := .safe }
  let later (e : Ent) : Ent := { e with admitAt := e.admitAt + dt }
  let r := r.forEach allPorches fun p r => r.modPorch p fun x => { x with store := x.store.map later }
  let r := match r.fencedUnits with
    | u :: _ =>
      if r.c.fbx.cur = some u then r
      else
        let r := r.modFbx fun x => { x with fenced := x.fenced &&& ~~~(1#96 <<< u), cur := some u, phase := 0 }
        r.fenceUnit u
    | [] => r
  let r := r.ttStart r.startTable
  let since := r.c.mod.safeAt
  r.forEach ((List.finRange 64).filter fun e =>
    let x := r.c.fab.peers[e]
    x.dead && decide (since ≤ x.deadAt)) fun e r => r.roomsDead (BitVec.ofNat 6 e)

/-- PANTRY (R435): the Timetable stops; the table that ran is kept for the return. -/
def Run.enterPantry (r : Run) : Run :=
  let old := r.mode
  let t := r.c.tt.cur
  let r := ((r.ttStop.modTt fun x => { x with saved := t }).modeIs .pantry).selfRefresh
  let r := r.closePorches
  let r := r.when (old = .drain) Run.releaseHeld
  r.modMod fun x => { x with origin := old, pantryReq := false }

/-- The return to DRAIN: the Timetable restarts at slot 0 with the table that ran (R435). From this DRAIN, RUN is not
permitted (R433). -/
def Run.leavePantry (r : Run) : Run :=
  ((r.modeIs .drain).modMod fun x => { x with drainFrom := .pantry }).ttStart r.c.tt.saved

/-! ## Configuration clear (R421) -/

/-- Registers whose every covered bit is a command, a selector or a port-side setting, and those that the House
writes itself: they are not covered by the configuration CRC (R466). -/
def crcExcluded : List String :=
  ["RM_WAYDIS", "RM_ROWMAP", "CEL_CH_MARK", "DEV_CTRL", "MOD_REQ", "MTR_ACK", "MTR_SNAP", "FBX_INJ_CTRL",
   "FBX_INJ_ADDR_LO", "FBX_INJ_ADDR_HI", "TT_FORCE", "FBX_RECHECK", "CEL_REBUILD", "LCH_REL", "PAN_PAGE",
   "CEL_FRAME_SEL", "IMG_CTRL", "IMG_SRC_ADDR", "IMG_SRC_LEN", "IMG_SPI_CMD", "IMG_SPI_ADDR", "IMG_SPI_BUF",
   "LCH_LEASE", "CFG_COMMIT", "PCH_MSYNC", "SCB_SELFTEST"]

/-- The bits of a word that the configuration CRC covers: RW and W1 bits (R466). A self-clearing bit always reads 0. -/
def crcMask (a : Nat) : Nat :=
  match regDef a with
  | some d =>
    if crcExcluded.contains d.name then 0
    else d.maskOf (fun x => x = .rw || x = .w1) &&& (regMask a).toNat
  | none => 0

/-- Every configuration register and table returns to its reset value (log entry 46, DEDUCED). -/
def Run.configClear (r : Run) : Run :=
  let r := r.forEach (r.m.regs.map (·.1)) fun a r =>
    let k := crcMask a
    if k = 0 then r
    else
      let v := r.reg a
      r.setReg a ((v ^^^ (v &&& k)) ||| ((regReset a).toNat &&& k))
  r.st (.drop .frames 0 4096)

/-! ## Resets (R411) -/

/-- Count and capture registers of the Fuse box, which a PWR_GOOD reset keeps. -/
def fbxCount (a : Nat) : Bool :=
  a = 0x10020 || a = 0x10024 || a = 0x10028 || a = 0x1002C || a = 0x1011C || decide (0x11400 ≤ a ∧ a < 0x11800)

/-- The Fuse box after a reset that keeps its status, log and capture (R411). -/
def Fbx.kept (x : Fbx) : Fbx :=
  { log := x.log, logPtr := x.logPtr, logTotal := x.logTotal, status := x.status, wgErr := x.wgErr, maxSev := x.maxSev,
    anySev := x.anySev, first := x.first, firstSwap := x.firstSwap, selfFault := x.selfFault, selfArea := x.selfArea }

/-- A management port whose link retrains. -/
def Mg.retrain (_ : Mg) : Mg := {}

/-- A reset: the House is in AUX. `soft` is RESET_N or DEV_CTRL; PWR_GOOD low keeps what R411 says. -/
def Run.reset (r : Run) (soft : Bool) : Run :=
  let old := r.mode
  let r := r.forEach (r.m.regs.map (·.1)) fun a r => if !soft && fbxCount a then r else r.st (.reg a (regReset a))
  let r := r.forEach [Tbl.remap, .tags, .plru, .scn, .dir, .keys, .pmc, .pmcPrev, .hist, .mtr, .occ, .occFt, .frames, .pan]
    fun t r => r.st (.drop t 0 (2 ^ 25))
  let r := r.st (.drop .dram 0 (2 ^ 34))
  let c := r.c
  let r := { r with c :=
    { now := c.now, ft := c.ft, ftCore := c.ftCore, ftNext := c.ftNext, cc := c.cc, fab := { incarn := c.fab.incarn }, fuses := if soft then c.cells else c.fuses, cells := c.cells,
      vaux := c.vaux,
      pwrGood := c.pwrGood, railLow := c.railLow, clk := { c.clk with lossFirst := 0, lost := 0 }, jtag := c.jtag, free := c.free,
      out := { c.out with thermtripN := soft && c.out.thermtripN || !soft },
      mod := { mode := .aux, prev := old, lastFt := c.ftNs }, selft := { runs := c.selft.runs },
      fbx := if soft then {} else c.fbx.kept, lch := if soft then {} else c.lch,
      mgA := if soft then c.mgA.retrain else c.mgA, mgB := if soft then c.mgB.retrain else c.mgB } }
  if soft then r else r.vector 4

end Sys2Proof.Machine
end

