-- ==== Sys2Proof/Machine/FuseBox.lean ====
section
/-! DEFINITION. The Fuse box (R373–R401): classification, counting, reactions, fences, capture and log, injection, its
own faults, and the re-check and return of a fenced unit. -/
namespace Sys2Proof.Machine
open Sys2Proof

/-! ## Classification (R376–R378) -/

def evCfg (code : Nat) : Nat := 0x11000 + 4 * code

def evKind (code : Nat) : EvKind := match evDef code with
  | some d => d.kind
  | none => .none

/-- Nanoseconds of a window of `v` units (R403). -/
def winNs (v u : Nat) : Nat := v * (if u = 0 then 10 ^ 3 else if u = 1 then 10 ^ 6 else 10 ^ 9)

/-- One event of the cc under decision, as far as it has been decided. -/
structure Verdict where
  ev : Event
  sev : Nat
  /-- it reacts: real, or injected with FBX_INJ_REACT set -/
  live : Bool
  esc : Bool := false
  sec : Bool := false
deriving DecidableEq, Repr

def CntEnt.same (x : CntEnt) (e : Event) : Bool := x.code = e.code && x.src = e.src && x.sub = e.sub && x.key = e.key

/-- The 128-entry counting table takes a new entry; with no entry free, the one whose window opened earliest goes. -/
def Run.cntAdd (r : Run) (x : CntEnt) : Run :=
  let cs := r.c.fbx.cnt
  let old := cs.foldl (fun (b : Option CntEnt) (y : CntEnt) => match b with
    | some z => if y.start < z.start || (y.start = z.start && y.seq < z.seq) then some y else some z
    | none => some y) none
  let r := if 128 ≤ cs.length then match old with
      | some z => (r.modFbx fun f => { f with cnt := f.cnt.filter fun y => y.seq ≠ z.seq }).count32 0x1002C 1
      | none => r
    else r
  r.modFbx fun f => { f with cnt := f.cnt ++ [x], cntSeq := f.cntSeq + 1 }

/-- Count an event (R377): true when it brings its window to N. -/
def Run.countEvent (r : Run) (e : Event) : Run × Bool :=
  let cfg := r.reg (evCfg e.code)
  let n := bitsOf cfg 11 4
  let w := winNs (bitsOf cfg 23 16) (bitsOf cfg 25 24)
  match r.c.fbx.cnt.find? fun x => x.same e with
  | some x =>
    let inside := decide (x.start ≤ e.stamp ∧ e.stamp < x.start + w)
    let y : CntEnt := if inside then { x with count := x.count + 1 } else { x with start := e.stamp, count := 1 }
    if n ≤ y.count then (r.modFbx fun f => { f with cnt := f.cnt.filter fun z => z.seq ≠ x.seq }, true)
    else (r.modFbx fun f => { f with cnt := f.cnt.map fun z => if z.seq = x.seq then y else z }, false)
  | none =>
    if n ≤ 1 then (r, true)
    else (r.cntAdd { code := e.code, src := e.src, sub := e.sub, key := e.key, start := e.stamp, count := 1,
                     seq := r.c.fbx.cntSeq }, false)

/-- The reporting block acts on an escalation (R378): WAY_CE R85, DEV_HIT R251, FEC_UE R287, RANK_UE R267. -/
def Run.escalated (r : Run) (e : Event) : Run :=
  if e.code = Code.wayCe then
    let m := fin64 (16 * e.src + e.sub)
    if r.fenced (unitRoom m) then r
    else
      let r := if r.mode = .off || r.mode = .aux then r else r.wayDisable m (fin16 e.key)
      r.rmEvent m Code.wayDisabled
  else if e.code = Code.devHit then
    let c := fin16 (e.src - 4)
    let a := celBase c + 4 + 4 * (e.key / 20)
    if r.bit a 7 then r.when (r.fld a 4 0 ≠ e.key % 20) fun r => r.chEvent c Code.deviceSecond
    else (r.setReg a (0x80 ||| e.key % 20)).chEvent c Code.deviceMarked
  else if e.code = Code.fecUe then
    let d := fin8 (e.src - 28)
    if (r.door d).trained && !(r.fenced (unitDoor d)) then r.laneLost d (fin8 e.key) else r
  else if e.code = Code.rankUe then r.chFail (fin16 (e.src - 4)) 1
  else r

def Run.baseSev (r : Run) (e : Event) : Nat := r.fld (evCfg e.code) 1 0

/-- The severity of an event, by its mode (R376, R377). -/
def Run.classify (r : Run) (v : Verdict) : Run × Verdict :=
  if r.bit (evCfg v.ev.code) 2 then
    let (r, esc) := r.countEvent v.ev
    if esc then (r.escalated v.ev, { v with sev := min 3 (v.sev + 1), esc := true }) else (r, v)
  else (r, v)

/-- A consequence event is secondary when its stamp lies in the shadow of a unit or House on its path (R385). -/
def Run.secondary (r : Run) (e : Event) : Bool :=
  r.c.fbx.shadows.any fun s => decide (s.start ≤ e.stamp ∧ e.stamp < s.stop) && e.path.contains s.unit

/-- Judge the events of the consequence kind, or all others, in order. -/
def Run.judge (r : Run) (cons : Bool) : List Verdict → Run × List Verdict
  | [] => (r, [])
  | v :: vs =>
    let (r, v) :=
      if !v.live || decide (evKind v.ev.code = .c) != cons then (r, v)
      else if cons && r.secondary v.ev then (r, { v with sec := true })
      else r.classify v
    let (r, vs) := r.judge cons vs
    (r, v :: vs)

/-! ## Log, status and capture (R387–R391) -/

/-- Write the next record of the event log (R390). -/
def Run.logRecord (r : Run) (x : LogRec) : Run :=
  r.modFbx fun f =>
    { f with log := f.log.set (f.logPtr % 256) (some { x with seqNo := (f.logTotal + 1) % 2 ^ 32 }) (Nat.mod_lt _ (by decide)),
             logPtr := (f.logPtr + 1) % 256, logTotal := (f.logTotal + 1) % 2 ^ 32 }

def Verdict.deferred (v : Verdict) : Bool :=
  v.live && !v.sec && v.sev = 2 && (evKind v.ev.code = .c || evKind v.ev.code = .none)

def Verdict.record (v : Verdict) (n : Nat) : LogRec :=
  { ev := v.ev, sev := v.sev, defer := v.deferred, esc := v.esc, sec := v.sec, seqNo := n }

def fin4 (n : Nat) : Fin 4 := ⟨n % 4, Nat.mod_lt _ (by decide)⟩

/-- Set the status bit of a source, or the bit of the Room in its Wing (R387, R388). -/
def Run.statusBit (r : Run) (src sub : Nat) (wing : Bool) : Run :=
  if src < 4 then
    let w := fin4 src
    r.modFbx fun f => { f with wgErr := f.wgErr.set w (f.wgErr[w] ||| (1#17 <<< (if wing then 16 else sub % 16))) w.isLt }
  else r.modFbx fun f => { f with status := f.status ||| (1#51 <<< src) }

/-- First-error capture of one eligible event (R389). A real event replaces a captured injected one, once. -/
def Run.capture1 (r : Run) (v : Verdict) : Run :=
  let f := r.c.fbx
  let x := v.record ((f.logTotal + 1) % 2 ^ 32)
  if v.sev < r.fld 0x10118 3 2 then r
  else match f.first with
    | none => r.modFbx fun f => { f with first := some x, firstSwap := false }
    | some y =>
      if y.ev.inj && !v.ev.inj && !f.firstSwap then r.modFbx fun f => { f with first := some x, firstSwap := true }
      else r.count32 0x1011C 1

/-- Codes whose Minor events are correctable events with an address (R347). -/
def correctableCode (c : Nat) : Bool :=
  c = Code.deviceMarked || c = Code.lineUeMinor || c = Code.tagRebuilt || c = Code.blockRetired
/-- Writes lost have a record of their own (R347). -/
def lostCode (c : Nat) : Bool := c = Code.lostWrite || c = Code.porchLostWrite || c = Code.lostWriteback

/-- What a primary event does (R379): count, MAXSEV, status bit and interrupts, and the reports to hosts (R347). -/
def Run.primary (r : Run) (v : Verdict) : Run :=
  let e := v.ev
  let r := r.count16 (0x11400 + 4 * e.code) 1
  let r := r.modFbx fun f =>
    { f with anySev := true, maxSev := if f.maxSev.toNat < v.sev then BitVec.ofNat 2 v.sev else f.maxSev }
  let r := r.when (1 ≤ v.sev) fun r => r.statusBit e.src e.sub (e.code = Code.wgFail)
  let r :=
    if v.sev = 3 || (v.sev = 2 && evKind e.code = .h) then r.vector 1
    else if v.sev = 2 then r.vector 0
    else if v.sev = 1 && r.bit 0x10018 0 then r.vector 2
    else r
  match e.addr with
  | some pa =>
    if v.deferred && !(lostCode e.code) then r.hostReport pa .warn .media
    else if v.sev = 1 && correctableCode e.code then r.hostReport pa .info .dram
    else r
  | none => r

/-- Log one decided event, and let it act. -/
def Run.reactTo (r : Run) (v : Verdict) : Run :=
  let r := r.logRecord (v.record 0)
  let r := r.when v.ev.inj fun r => r.count32 0x10028 1
  if !v.live then r
  else if v.sec then r.count32 0x10024 1
  else r.primary v

/-! ## Fences (R380, R381) -/

def Verdict.unit (v : Verdict) : UnitNo := (evUnit v.ev.src v.ev.sub).getD 0

/-- A primary kind F event of Major severity or above. -/
def Verdict.names (v : Verdict) : Bool := v.live && evKind v.ev.code = .f && decide (2 ≤ v.sev)

def Verdict.fatal (v : Verdict) : Bool := v.live && !v.sec && (v.sev = 3 || (v.sev = 2 && evKind v.ev.code = .h))

/-- A fallback runs, or the switch to one, or back from one, is pending (R221). -/
def Run.fallbackBusy (r : Run) : Bool :=
  r.c.tt.run && (decide (2 ≤ r.c.tt.cur) || (r.c.tt.pend && decide (2 ≤ r.c.tt.next)))

/-- A fence by mode (R380). -/
def Run.fence (r : Run) (u : UnitNo) : Run :=
  let m := r.mode
  let r := (r.fenceUnit u).modFbx fun f => { f with cur := some u, phase := 0 }
  let r := r.ttRequest (unitTable u)
  r.when (m = .run || m = .window) Run.enterDegraded

/-- SAFE only records the unit as fenced (R380, R381). -/
def Run.recordFence (r : Run) (u : UnitNo) : Run := r.modFbx fun f => { f with fenced := f.fenced ||| (1#96 <<< u) }

/-- Events of one cc are logged by SOURCE, SUB and CODE (R381). -/
def evBefore (a b : Event) : Bool :=
  a.src < b.src || (a.src = b.src && (a.sub < b.sub || (a.sub = b.sub && a.code ≤ b.code)))

/-- EVENT_DECIDE: the Fuse box decides the oldest cc that has undecided events. -/
def Run.eventDecide (r : Run) : Run :=
  match (r.c.fbx.reported.map (·.det)).min? with
  | none => r
  | some t =>
    let evs := (r.c.fbx.reported.filter fun e => e.det = t).insertionSort fun a b => evBefore a b = true
    let react := r.bit 0x10014 0
    let r := r.modFbx fun f => { f with reported := f.reported.filter fun e => e.det ≠ t }
    let vs := evs.map fun e => ({ ev := e, sev := r.baseSev e, live := !e.inj || react } : Verdict)
    let (r, vs) := r.judge false vs
    -- the units that Major kind F events name, and that are in use and not fenced yet
    let fs := vs.filter fun v => v.names && r.unitUsed v.unit && !(r.fenced v.unit)
    let units := (fs.map Verdict.unit).dedup
    let up := decide (2 ≤ units.length) || (r.mode ≠ .safe && !units.isEmpty && (r.mode = .degraded || r.fallbackBusy))
    -- a unit is fenced, and not only recorded: its shadow opens at the stamp of the event (R384; log entry 85, DEDUCED)
    let lands := !up && r.mode ≠ .safe && !(vs.any fun v => decide (evKind v.ev.code ≠ .c) && v.fatal)
    let r := r.forEach (if lands then units else []) fun u r =>
      r.openShadow u (((fs.filter fun v => v.unit = u).map (·.ev.stamp)).foldl min ((fs.map (·.ev.stamp)).foldl max 0))
    let (r, vs) := r.judge true vs
    let lift (v : Verdict) : Verdict := if up && fs.any (fun f => f.ev = v.ev) then { v with sev := 3 } else v
    let vs := vs.map lift
    let fatal := vs.any Verdict.fatal
    let caught := vs.filter fun v => v.live && !v.sec
    let r := r.forEach ((caught.filter fun v => !v.ev.inj) ++ caught.filter fun v => v.ev.inj) fun v r => r.capture1 v
    let r := r.forEach vs fun v r => r.reactTo v
    let r :=
      if fatal then r.enterSafe.forEach units fun u r => r.recordFence u
      else if r.mode = .safe then r.forEach units fun u r => r.recordFence u
      else r.forEach units fun u r => r.fence u
    r.barsCheck

def execEventDecide (s : State) : Host.Outcome State Fault Refusal := .next (Run.finish s (Run.start s).eventDecide)

/-! ## Shadows end, and the collector's own faults (R384, R394) -/

/-- FENCE_SHADOW_END: shadows that have ended are dropped, once no undecided event lies before their end. -/
def Run.shadowEnd (r : Run) : Run :=
  r.modFbx fun f =>
    { f with shadows := f.shadows.filter fun s => decide (r.ftNs < s.stop) || f.reported.any fun e => decide (e.stamp < s.stop) }

def execFenceShadowEnd (s : State) : Host.Outcome State Fault Refusal := .next (Run.finish s (Run.start s).shadowEnd)

/-- FUSE_SELF_FAULT: the House enters SAFE past all classification. -/
def Run.selfFault (r : Run) (area : BitVec 2) : Run :=
  let r := r.modFbx fun f => { f with selfFault := true, selfArea := area }
  let e : Event := { code := 0xFF, src := 0, cause := 5, stamp := r.ftNs, det := r.c.now }
  ((r.logRecord { ev := e, sev := 3, defer := false, esc := false, sec := false, seqNo := 0 }).vector 1).enterSafe

def execFuseSelfFault (area : BitVec 2) (s : State) : Host.Outcome State Fault Refusal :=
  .next (Run.finish s ((Run.start s).selfFault area))

/-! ## Injection (R392) -/

/-- SOURCE and SUB of an injected event, when INST lies in its source's range. -/
def injTarget (code inst : Nat) : Option (Nat × Nat) :=
  if code < 0x30 then
    if inst < 64 then some (inst / 16, if code = Code.wgFail then 0 else inst % 16) else none
  else if code < 0x40 then if inst < 16 then some (20 + inst / 2, inst % 2) else none
  else if code < 0x50 then if inst < 16 then some (4 + inst, 0) else none
  else if code < 0x60 then if inst < 8 then some (28 + inst, 0) else none
  else if 0x80 ≤ code ∧ code < 0x90 ∨ code = Code.mgLinkDown then if inst < 2 then some (44 + inst, 0) else none
  else if inst ≠ 0 then none
  else if code < 0x68 then some (50, 0)
  else if code < 0x70 then some (46, 0)
  else if code < 0x78 then some (47, 0)
  else if code < 0x80 then some (48, 0)
  else if code < 0x94 then some (36, 0)
  else if code < 0x98 then some (37, 0)
  else if code < 0x9C then some (38, 0)
  else if code < 0xA0 then some (39, 0)
  else if code < 0xA4 then some (40, 0)
  else if code < 0xA8 then some (41, 0)
  else if code < 0xAC then some (42, 0)
  else if code < 0xB0 then some (43, 0)
  else some (49, 0)

/-- The highest KEY of a code that carries a counting key. -/
def keyLimit (code : Nat) : Option Nat :=
  if code = Code.wayCe then some 15 else if code = Code.devHit then some 79 else if code = Code.fecUe then some 7
  else if code = Code.rankUe then some 3 else none

/-- FBX_INJ_CTRL with GO = 1 is legal as it stands after the write. -/
def injLegal (v : Nat) : Bool :=
  (evDef (bitsOf v 7 0)).isSome && (injTarget (bitsOf v 7 0) (bitsOf v 14 8)).isSome &&
    match keyLimit (bitsOf v 7 0) with
    | some k => decide (bitsOf v 23 17 ≤ k)
    | none => true

/-- The injected event is created in the cc of the write. -/
def Run.inject' (r : Run) (w : Writer) (v : Nat) : Run :=
  let code := bitsOf v 7 0
  match injTarget code (bitsOf v 14 8) with
  | some (src, sub) =>
    r.report { code := code, src := src, sub := sub, key := if (keyLimit code).isSome then bitsOf v 23 17 else 0,
               cause := bitsOf v 26 24, mKind := 5, mId := (match w with | .port .b => 1 | _ => 0), access := 7,
               addr := if v.testBit 15 then some (BitVec.ofNat 48 (r.reg 0x10404 ||| (r.fld 0x10408 15 0 <<< 32))) else none,
               inj := true }
  | none => r

/-! ## Re-check and return (R395–R397) -/

/-- FBX_RECHECK with GO = 1 is legal for this unit. -/
def Run.recheckLegal (r : Run) (u : Nat) : Bool :=
  !r.c.fbx.reBusy && decide (u < 96) && r.fenced u && !(decide (64 ≤ u ∧ u < 80))

/-- The re-check of a unit begins; a Door trains (R288). -/
def Run.recheckStart (r : Run) (u : Nat) : Run :=
  let r := r.modFbx fun f => { f with reBusy := true, rePass := false, reFail := false, reUnit := u }
  r.when (decide (80 ≤ u ∧ u < 88)) fun r => r.fullTrain (fin8 (u - 80))

/-- Spare rows of a way bank that replace no row yet. -/
def Run.spareRows (r : Run) (m : Fin 64) (way : Fin 16) : List Nat :=
  (List.range 4).filter fun j => !(r.bit (rmBase m + 0x100 + 16 * way.val + 4 * j) 15)

/-- The BIST replaces the failing tag rows of a way by its spares; when they are more than its spares, it disables the way
and logs it once (R94). -/
def Run.rowRemap (r : Run) (m : Fin 64) (way : Fin 16) (rows : List (Fin 512)) : Run :=
  let spare := r.spareRows m way
  let r := r.forEach (spare.zip rows) fun x r => r.setReg (rmBase m + 0x100 + 16 * way.val + 4 * x.1) (0x8000 ||| x.2.val)
  r.when (decide (spare.length < rows.length)) fun r => (r.wayDisable m way).rmEvent m Code.wayDisabled

/-- The failing rows that a BIST has found, way bank by way bank. -/
def Run.bistRows (r : Run) (bad : List (Fin 64 × Fin 16 × Fin 512)) : Run :=
  r.forEach (bad.map fun x => (x.1, x.2.1)).dedup fun x r =>
    r.rowRemap x.1 x.2 ((bad.filter fun y => y.1 = x.1 && y.2.1 = x.2).map fun y => y.2.2).dedup

/-- RECHECK_END. A Door that passes is up again (R306); one that fails stays down. -/
def Run.recheckEnd (r : Run) (pass : Bool) (rows : List (Fin 16 × Fin 512)) : Run :=
  if !r.c.fbx.reBusy then r
  else
    let u := r.c.fbx.reUnit
    let r := r.modFbx fun f => { f with reBusy := false, rePass := pass, reFail := !pass }
    let r := r.when (decide (u < 64)) fun r => r.bistRows (rows.map fun x => (fin64 u, x.1, x.2))
    let r := r.when (decide (80 ≤ u ∧ u < 88)) fun r =>
      r.modDoor (fin8 (u - 80)) fun x => { x with training := false, trained := pass, up := pass }
    r.vector 5

def execRecheckEnd (pass : Bool) (rows : List (Fin 16 × Fin 512)) (s : State) : Host.Outcome State Fault Refusal :=
  .next (Run.finish s ((Run.start s).recheckEnd pass rows))

/-- The unit's re-check has passed; a channel's is its rebuild (R395). -/
def Run.recheckPassed (r : Run) (u : UnitNo) : Bool :=
  if 64 ≤ u ∧ u < 80 then (r.chan (fin16 (u - 64))).ready
  else r.c.fbx.rePass && r.c.fbx.reUnit = u

/-- The Fuse box accepts the un-fence of unit u (R396). -/
def Run.unfenceOk (r : Run) (u : Nat) : Bool :=
  r.mode = .degraded && r.c.fbx.cur = some u && r.c.fbx.phase = 0 && r.recheckPassed u

/-- An accepted un-fence begins (R397). -/
def Run.unfenceStart (r : Run) (u : UnitNo) : Run :=
  if u < 64 then
    (r.modFbx fun f => { f with phase := 1 }).forEach (allRooms.filter fun m => m.val ≠ u) (fun m r => r.jobStart m .handback)
      |>.returnCheck
  else (r.modFbx fun f => { f with phase := 2 }).returnCheck

end Sys2Proof.Machine
end

