-- ==== Sys2Proof/Machine/Timetable.lean ====
section
/-! DEFINITION. The Timetable's switches at seam boundaries (R219–R226, R397, R435) and the checks on leaving CHECK
(R235). -/
namespace Sys2Proof.Machine
open Sys2Proof

/-! ## Switches -/

/-- The cc is a seam boundary of the running Timetable (R208, R219). -/
def Run.seam (r : Run) : Bool := r.c.tt.run && r.c.tt.slot.toNat % 512 = 0

/-- The pending switch is taken: all calendars change table, and a unit whose return waited for it takes traffic again
(R220, R397). -/
def Run.switchNow (r : Run) : Run :=
  let t := r.c.tt.next
  let r := r.modTt fun x =>
    { x with cur := t, pend := false, lastFrom := x.cur, lastTo := t, lastFt := r.ftNs }
  let r := (r.count32 0xC08 1).seamEffects t
  match r.c.fbx.cur with
  | some u =>
    if r.c.fbx.phase = 2 && t < 2 then
      let r := r.unfence u
      r.when (r.mode = .degraded) fun r => r.modeIs .run
    else r
  | none => r

/-- A switch requested before this cc is pending at a seam boundary. -/
def Run.switchDue (r : Run) : Bool := r.seam && r.c.tt.pend && decide (r.c.tt.pendCc < r.c.cc)

/-- TABLE_SWITCH. -/
def Run.tableSwitch (r : Run) : Run := if r.switchDue then r.switchNow else r

def execTableSwitch (s : State) : Host.Outcome State Fault Refusal := .next (Run.finish s (Run.start s).tableSwitch)

/-- PANTRY_ENTRY (R435): a pending switch is taken first (R219). -/
def Run.pantryEntry (r : Run) : Run :=
  if r.mode = .drain && r.c.mod.pantryReq && r.seam && decide (r.c.mod.pantryCc < r.c.cc) then
    (r.when r.switchDue Run.switchNow).enterPantry
  else r

def execPantryEntry (s : State) : Host.Outcome State Fault Refusal := .next (Run.finish s (Run.start s).pantryEntry)

/-- TT_FORCE with GO = 1 may be carried out (R221). -/
def Run.forceLegal (r : Run) (t : Nat) : Bool :=
  r.c.tt.run && !r.c.tt.pend && decide (r.c.tt.cur < 2) && decide (t < 2)

/-! ## The checks of R235 -/

/-- The requester codes that a calendar accepts in table t (R211). -/
def codeFits (t k code : Nat) : Bool :=
  let fb := decide (66 ≤ t ∧ t < 82)
  if k < 64 then decide (0x40 ≤ code ∧ code ≤ 0x53)
  else if k < 72 then decide (code < 0x40) || code = 0x54 || code = 0x55
  else if k < 136 then decide (0x56 ≤ code ∧ code ≤ 0x59) || (code = 0x5C && fb)
  else if k < 152 then code = 0x56 || code = 0x58 || code = 0x5A || (code = 0x5C && fb)
  else if k < 160 then code = 0x55 || code = 0x5A || code = 0x5B || (code = 0x5C && fb)
  else if k < 176 then decide (0x80 ≤ code ∧ code < 0xC0) || (code = 0x5C && fb)
  else if k < 184 then code = 0x5B || decide (0x60 ≤ code ∧ code ≤ 0x64)
  else decide (code < 0x40)

/-- Slots of the pattern of a map entry, and whether the pattern lies in the pool (R212, R214, R215). -/
def patSlots (e : Nat) : Nat := 64 <<< bitsOf e 22 20
def patFits (k e : Nat) : Bool :=
  decide (bitsOf e 19 0 + patSlots e * (if 160 ≤ k ∧ k < 176 then 2 else 1) ≤ 1015808)

def ttPeriod : Nat := 4096
def walkerCode : Nat := 0x52

/-- Refresh records per period for a rank. -/
def Run.refreshes (r : Run) (t k rank : Nat) : Nat :=
  (List.range ttPeriod).countP fun n => match r.record t k n with
    | some (_, w) => bitsOf w 1 0 = 1 && bitsOf w 6 5 = rank
    | none => false

/-- The refresh records of a Cellar calendar keep the 1× rate, one in 3.9 µs, for every rank found in training. -/
def Run.refreshOk (r : Run) (t : Nat) (c : Fin 16) : Bool :=
  let x := r.chan c
  !x.trained || (List.range (2 ^ x.rankBits)).all fun rank =>
    decide (ttPeriod * r.c.ccLen ≤ r.refreshes t (160 + c.val) rank * 39000)

/-- Frame slots of a Door frame calendar per period. -/
def Run.frameSlots (r : Run) (t k : Nat) : Nat :=
  (List.range ttPeriod).countP fun n => match r.record t k n with
    | some (w, _) => !(recCodes w).isEmpty
    | none => false

/-- The walker owns exactly one of the 64 slots from `n` on. -/
def Run.walkerOwns (r : Run) (t k n : Nat) : Bool :=
  ((List.range 64).countP fun i => match r.record t k (n + i) with
    | some (w, _) => bitsOf w 7 0 = walkerCode
    | none => false) = 1

/-- The lowest reason for which slot n of a calendar fails. -/
def Run.slotFails (r : Run) (t k n : Nat) : Option Nat :=
  match r.record t k n with
  | none => some 0
  | some (w, w2) =>
    let cs := recCodes w
    if !(cs.all fun c => codeFits t k c) || (160 ≤ k && k < 176 && bitsOf w2 1 0 ≠ 0 && !cs.isEmpty) then some 2
    else if cs.dedup.length ≠ cs.length then some 3
    else if k < 64 && (!(bitsOf w 7 0 = walkerCode || cs.getLast? = some walkerCode) ||
        (n % 64 = 0 && !(r.walkerOwns t k n))) then some 4
    else if n = 0 && 160 ≤ k && k < 176 && !(r.refreshOk t (fin16 (k - 160))) then some 5
    else if n = 0 && 176 ≤ k && k < 184 && decide ((if r.c.fuses.grade then 3200 else 2560) < r.frameSlots t k) then some 7
    else none

/-- The first failure of a calendar: its slot and the reason. -/
def Run.calFails (r : Run) (t k : Nat) : Option (Nat × Nat) :=
  let e := r.mapEntry t k
  if !e.testBit 31 || !(patFits k e) then some (0, 0)
  else if 6 < bitsOf e 22 20 then some (0, 1)
  else (List.range (patSlots e)).findSome? fun n => (r.slotFails t k n).map fun why => (n, why)

/-- The table has to be there: NOMINAL, COOL and the fallback of every unit in use; and its COVER is another Room in use. -/
def Run.tableMissing (r : Run) (t : Nat) : Bool :=
  if r.tablePresent t then
    decide (2 ≤ t ∧ t < 66) && (r.cover (fin64 (t - 2)) = fin64 (t - 2) || !(r.roomUsed (r.cover (fin64 (t - 2)))))
  else decide (t < 2) || r.unitUsed (t - 2)

/-- The first failure of a table: calendar, slot and reason. -/
def Run.tableFails (r : Run) (t : Nat) : Option (Nat × Nat × Nat) :=
  let cal := if r.tablePresent t then (List.range 192).findSome? fun k => (r.calFails t k).map fun x => (k, x.1, x.2) else none
  if r.tableMissing t then match cal with
    | some (0, 0, why) => some (0, 0, min why 6)
    | _ => some (0, 0, 6)
  else cal

/-- The first failure of all tables, in the layout of TT_CHECK; none when every check passes. -/
def Run.ttFails (r : Run) : Option Nat :=
  (List.range 98).findSome? fun t => (r.tableFails t).map fun x =>
    t ||| (x.1 <<< 8) ||| (x.2.1 <<< 16) ||| (x.2.2 <<< 28) ||| (1 <<< 31)

end Sys2Proof.Machine
end

