-- ==== Sys2Proof/Machine/BringUp.lean ====
section
/-! DEFINITION. Bring-up and mode requests: the condition codes, the start-up path, MOD_REQ, un-fence requests, the
join time-out, the self-test of CHECK and the training of channels (R242, R394–R398, R419, R424–R436, R505). -/
namespace Sys2Proof.Machine
open Sys2Proof

/-! ## Condition codes (R428) -/

namespace Cond
def power := 0x01
def clock := 0x02
def image := 0x03
def selftest := 0x04
def train := 0x05
def size := 0x06
def hash := 0x07
def timetable := 0x08
def crc := 0x09
def fence := 0x0A
def fill := 0x0B
def route := 0x0C
def time := 0x0D
def rejoin := 0x0E
def drained := 0x0F
def window := 0x10
def origin := 0x11
def busy := 0x12
end Cond

/-- Channels whose trained capacity is too small, of those that have trained and are not fenced (R242). -/
def Run.shortChans (r : Run) : List (Fin 16) :=
  allChans.filter fun c => (r.chan c).trained && !(r.fenced (unitChan c)) && decide ((r.chan c).capGib < r.chGib)

/-- MOD_STATUS.DRAINED (R434). A fenced Room holds no write for DRAM. -/
def Run.drained (r : Run) : Bool :=
  (allPorches.all fun p => ((r.porch p).store.filter Ent.open').isEmpty && (r.porch p).lands.isEmpty) &&
    allRooms.all fun m => r.fenced (unitRoom m) || ((r.room m).wbuf.isEmpty && (r.room m).mud.isEmpty)

/-- The Window is enabled (R505, R509). -/
def Run.windowOn (r : Run) : Bool := r.bit 0x50000 0 && !r.c.fuses.winDis && !(r.bit 0x50008 0)

/-- RTE_STATUS.TIMED (R307). -/
def Run.timed (r : Run) : Bool := r.c.time.locked || r.actingMaster = some r.myId

/-- A level fault still stands: a clock, a supply or a temperature (R387, R483, R487). -/
def Run.levelSource (r : Run) : Nat → Bool
  | 40 => r.c.clk.lost ≠ 0
  | 41 => r.c.thm.trip
  | 42 => r.c.railLow ≠ 0
  | _ => false

/-- At most one unit is fenced, and its fallback table is present (R428 FENCE, R398). -/
def Run.fenceOk (r : Run) : Bool := match r.fencedUnits with
  | [] => true
  | [u] => r.tablePresent (unitTable u)
  | _ => false

/-- The conditions as they stand. -/
def Run.cond (r : Run) (code : Nat) : Bool :=
  if code = Cond.power then r.c.pwrGood && r.c.railLow = 0
  else if code = Cond.clock then
    if r.mode = .join then r.c.clk.ref156 else r.c.clk.ref100 && r.c.clk.coreLock
  else if code = Cond.image then r.c.img.ok && !r.c.img.busy
  else if code = Cond.selftest then r.c.selft.done && !r.c.selft.crcFail
  else if code = Cond.train then allChans.all fun c => (r.chan c).trained || r.fenced (unitChan c)
  else if code = Cond.size then decide (r.chGib ≠ 0) && r.shortChans.isEmpty
  else if code = Cond.hash then r.nearWays = 0 || r.hashRank = 20
  else if code = Cond.timetable then r.ttFails.isNone
  else if code = Cond.crc then r.c.crc.done && !r.c.crc.dirty && r.c.crc.live = r.c.crc.ref
  else if code = Cond.fence then r.fenceOk
  else if code = Cond.fill then r.fillLeft = 0
  else if code = Cond.route then r.c.fab.routed
  else if code = Cond.time then r.timed
  else if code = Cond.rejoin then r.c.mod.rejoin
  else if code = Cond.drained then r.drained
  else if code = Cond.window then r.windowOn
  else if code = Cond.busy then !r.c.img.busy && !r.c.selft.busy
  else true

/-! ## Loads begin (R419, R421) -/

/-- The CDAT tables are part of what an image loads (R415). -/
def Run.cdatClear (r : Run) : Run :=
  r.forEach allPorches fun p r => r.forEach allLinks fun k r => r.modLink p k fun l => { l with cdat := [] }

/-- The image loader starts: the configuration is cleared. -/
def Run.loadStart (r : Run) (src : Bool) : Run :=
  (r.modImg fun x => { busy := true, src := src, startAt := r.now, flash := x.flash, spiBusy := x.spiBusy }).configClear.cdatClear

/-- LOAD, with the load that IMG_CTRL.AUTO asks for. -/
def Run.goLoad (r : Run) : Run :=
  let r := r.enterLoad
  r.when (r.bit 0x200 0) fun r => r.loadStart false

/-! ## The start-up path (R429) -/

/-- The path, and the conditions of the step out of each mode. -/
def startPath : List Mode := [.load, .check, .fill, .join, .run]

def stepConds : Mode → List Nat
  | .aux => [Cond.power, Cond.clock]
  | .load => [Cond.image]
  | .check => [Cond.selftest, Cond.train, Cond.size, Cond.hash, Cond.timetable, Cond.crc, Cond.fence]
  | .fill => [Cond.fill]
  | .join => [Cond.clock, Cond.fence, Cond.route, Cond.time, Cond.rejoin]
  | _ => []

def Run.unmet (r : Run) (m : Mode) : Option Nat := (stepConds m).find? fun c => !(r.cond c)

/-- MOD_STATUS.WAIT. -/
def Run.waitOn (r : Run) (w : Nat) : Run := r.modMod fun x => { x with wait := w }

/-- A check of CHECK that has not logged its failure since the request does so now (R52, R235, R242). -/
def Run.logOnce (r : Run) (bit : Nat) (f : Run → Run) : Run :=
  if r.c.mod.logged.getLsbD bit then r
  else f (r.modMod fun x => { x with logged := x.logged ||| (1#18 <<< bit) })

/-- What the checks on leaving CHECK log and record (R52, R235, R242, R374). A passed check leaves all of TT_CHECK zero,
and a missing table, which has no calendar and no slot, is recorded with CAL and SLOT 0 (log entry 108, DESIGN
CHOICE). -/
def Run.checkLogs (r : Run) : Run :=
  let r := if r.cond Cond.hash then r else r.logOnce 0 fun r => r.sysEvent 38 Code.hashRank
  let r := match r.ttFails with
    | some w => (r.modTt fun x => { x with check := w32 w }).logOnce 1 fun r => r.sysEvent 37 Code.ttBad
    | none => r.modTt fun x => { x with check := 0 }
  r.forEach r.shortChans fun c r => r.logOnce (2 + c.val) fun r => r.chEvent c Code.chSize

/-- The mode of the next step of the path. -/
def Run.pathNext (r : Run) (m : Mode) : Run :=
  if m = .load then r.enterCheck
  else if m = .check then r.enterFill
  else if m = .fill then r.enterJoin
  else if m = .join then r.enterRun
  else r

/-- The pending target has been reached. -/
def Run.arrived (r : Run) : Run :=
  if r.mode = r.c.mod.target || (r.mode = .degraded && r.c.mod.target = .run) then
    r.modMod fun x => { x with pend := false, wait := 0 }
  else r

/-- START_UP_STEP: AUX leaves for LOAD on its own; every later step is taken toward the pending target. -/
def Run.startUpStep (r : Run) : Run :=
  let m := r.mode
  if m = .aux then match r.unmet m with
    | some w => r.waitOn w
    | none => (r.waitOn 0).goLoad
  else if !r.c.mod.pend then if m = .load then r.waitOn ((r.unmet m).getD 0) else r
  else
    let r := r.when (m = .check) Run.checkLogs
    match r.unmet m with
    | some w => r.waitOn w
    | none => ((r.waitOn 0).pathNext m).arrived

def execStartUpStep (s : State) : Host.Outcome State Fault Refusal := .next (Run.finish s (Run.start s).startUpStep)

/-- Cabled Doors that are not up (R431). -/
def Run.doorsMissing (r : Run) : List (Fin 8) :=
  allPorches.filter fun (d : Fin 8) => r.bit (dorBase d + 8) 15 && !(r.door d).up && !(r.fenced (unitDoor d))

/-- JOIN_TIMEOUT (R431): the Doors that should be up and are not report DOOR_FAIL. -/
def Run.joinTimeout (r : Run) : Run :=
  if r.mode = .join && !r.c.mod.joinOver && decide (r.c.mod.joinAt + msec (r.fld 0x10C 15 0) ≤ r.now) then
    (r.modMod fun x => { x with joinOver := true }).forEach r.doorsMissing fun d r => r.doorFail d
  else r

def execJoinTimeout (s : State) : Host.Outcome State Fault Refusal := .next (Run.finish s (Run.start s).joinTimeout)

/-! ## MOD_REQ (R396–R398, R432, R433) -/

/-- The target lies later on the start-up path than the mode. -/
def onPath (m t : Mode) : Bool :=
  match startPath.findIdx? (· = m), startPath.findIdx? (· = t) with
  | some i, some j => decide (i < j)
  | _, _ => false

/-- The transitions that a request takes off the path (R433). -/
def offPath : List (Mode × Mode) :=
  [(.load, .pantry), (.check, .pantry), (.check, .load), (.pantry, .load), (.pantry, .check), (.pantry, .drain),
   (.run, .window), (.window, .run), (.run, .drain), (.degraded, .drain), (.window, .drain), (.drain, .run),
   (.drain, .join), (.drain, .pantry), (.drain, .load), (.safe, .drain)]

/-- A MOD_REQ word with GO = 1 is legal (R432). -/
def Run.reqLegal (r : Run) (v : Nat) : Bool :=
  v.testBit 4 || match Mode.ofCode (bitsOf v 3 0) with
    | some t => onPath r.mode t || offPath.contains (r.mode, t)
    | none => false

/-- The first condition of an off-path transition that fails (R398, R433; log entry 51, DEDUCED for the codes of SAFE). -/
def Run.offFails (r : Run) (t : Mode) : Option Nat :=
  let m := r.mode
  if t = .pantry && m ≠ .drain then if r.cond Cond.busy then none else some Cond.busy
  else if m = .pantry then
    if (t = .drain && r.c.mod.origin = .drain) || (t ≠ .drain && (r.c.mod.origin = .load || r.c.mod.origin = .check)) then none
    else some Cond.origin
  else if t = .window then if r.cond Cond.window then none else some Cond.window
  else if m = .drain && t = .run then
    if r.c.mod.drainFrom = .run || r.c.mod.drainFrom = .degraded || r.c.mod.drainFrom = .window then none else some Cond.origin
  else if m = .drain then if r.drained then none else some Cond.drained
  else if m = .safe then
    if r.levelSource 42 then some Cond.power
    else if r.levelSource 40 then some Cond.clock
    else if r.c.fbx.selfFault || r.levelSource 41 || !r.fenceOk then some Cond.fence
    else none
  else none

/-- An off-path transition whose conditions hold. -/
def Run.offGo (r : Run) (t : Mode) : Run :=
  let m := r.mode
  if t = .pantry && m = .drain then r.modMod fun x => { x with pantryReq := true, pantryCc := r.c.cc }
  else
    let r := r.modMod fun x => { x with pantryReq := false }
    if t = .pantry then r.enterPantry
    else if t = .load then r.goLoad
    else if t = .check then r.enterCheck
    else if t = .drain then if m = .pantry then r.leavePantry else if m = .safe then r.leaveSafe else r.enterDrain
    else if t = .window then (r.modeIs .window).sysEvent 49 Code.winOn
    else if t = .join then r.enterJoin
    else if m = .window then r.modeIs .run
    else r.enterRun

/-- A request is refused: WHY holds the condition. -/
def Run.refuseReq (r : Run) (why : Nat) : Run := (r.modMod fun x => { x with pend := false, why := why }).vector 4

/-- A legal request for mode t. -/
def Run.modeGo (r : Run) (t : Mode) : Run :=
  if onPath r.mode t then r.modMod fun x => { x with pend := true, target := t, logged := 0 }
  else match r.offFails t with
    | some w => r.refuseReq w
    | none => (r.modMod fun x => { x with pend := false }).offGo t

/-- An un-fence request (R396, R397); a refused one raises vector 4 and leaves WHY (log entry 52, DEDUCED). -/
def Run.unfenceGo (r : Run) (w : Writer) (u : Nat) : Run :=
  if r.unfenceOk u then r.unfenceStart u else (r.wrEvent w Code.unfenceRefused).vector 4

/-- A legal MOD_REQ with GO = 1. -/
def Run.reqGo (r : Run) (w : Writer) (v : Nat) : Run :=
  if v.testBit 4 then r.unfenceGo w (bitsOf v 14 8)
  else match Mode.ofCode (bitsOf v 3 0) with
    | some t => r.modeGo t
    | none => r

/-! ## Training and self-test (R424–R427, R242, R270) -/

/-- A failure of CHECK, with the pattern and channel of the first one. -/
def Run.checkFail (r : Run) (pat ch : Nat) : Run :=
  let s := r.c.selft
  let s := if s.failed then s else { s with failed := true, pat := pat, ch := ch }
  { r with c := { r.c with selft := s } }.sysEvent 48 Code.selftestFail

def Run.modSelft (r : Run) (f : SelfT → SelfT) : Run := { r with c := { r.c with selft := f r.c.selft } }

/-- What a passed training measures. -/
def Chan.train (x : Chan) (t : ChTrain) : Chan :=
  { x with trained := true, capGib := t.capGib, ranks := t.ranks, dens := t.dens, mrdimm := t.mrdimm }

/-- CHANNEL_TRAIN_DONE: in CHECK, or for the channel under rebuild, whose sequencer then writes its lines. A rebuild
whose training fails ends without DONE (log entry 53, DESIGN CHOICE). -/
def Run.trainEnd (r : Run) (c : Fin 16) (t : ChTrain) : Run :=
  let x := r.chan c
  if r.c.rebuild.busy && r.c.rebuild.ch = c && !r.c.rebuild.writing then
    if t.pass then (r.modChan c fun x => { x.train t with rebuildPtr := 0 }).modRebuild fun y => { y with writing := true }
    else (r.modRebuild fun y => { y with busy := false }).vector 5
  else if r.mode = .check && !x.trained && !x.trainFail && !(r.fenced (unitChan c)) then
    if t.pass then r.modChan c fun x => x.train t
    else
      let r := (r.checkFail 0 c).modSelft fun s => { s with codeFail := true }
      (r.modChan c fun x => { x with trainFail := true }).chFail c 0
  else r

def execChannelTrainDone (c : Fin 16) (t : ChTrain) (s : State) : Host.Outcome State Fault Refusal :=
  .next (Run.finish s ((Run.start s).trainEnd c t))

/-- Every channel has been trained, has failed, or is fenced. -/
def Run.trainOver (r : Run) : Bool :=
  allChans.all fun c => (r.chan c).trained || (r.chan c).trainFail || r.fenced (unitChan c)

/-- SELFTEST_DONE: the BIST and the self-test have ended, and training with them. Spares replace tag rows; every
failure is logged, and its unit is reported as R427 says. -/
def Run.selftestDone (r : Run) (t : SelfTest) : Run :=
  if r.mode ≠ .check || !r.c.selft.busy || !r.trainOver then r
  else
    let r := r.bistRows t.badRows
    let pat : Nat × Nat := match t.codeFail with
      | some (n, c) => (n % 64, c.val)
      | none => (0, 0)
    let r := r.forEach t.codeChans fun c r => (((r.checkFail pat.1 pat.2).modSelft fun s => { s with codeFail := true }).chFail c 0)
    let r := r.forEach t.roomFail fun m r =>
      (((r.checkFail 0 0).modSelft fun s => { s with bistFail := true }).rmEvent m Code.roomFail)
    let r := r.forEach t.porchFail fun p r =>
      (((r.checkFail 0 0).modSelft fun s => { s with bistFail := true }).pchEvent p 0 Code.porchFail)
    let r := r.forEach t.doorFail fun d r =>
      (((r.checkFail 0 0).modSelft fun s => { s with bistFail := s.bistFail || t.bistFail }).dorEvent d Code.doorFail)
    let r := match t.crcFail with
      | some (n, c) => (r.checkFail (n % 64) c.val).modSelft fun s => { s with crcFail := true }
      | none => r
    (r.modSelft fun s => { s with busy := false, done := true }).vector 5

def execSelftestDone (t : SelfTest) (s : State) : Host.Outcome State Fault Refusal :=
  .next (Run.finish s ((Run.start s).selftestDone t))

/-- SCB_SELFTEST with GO = 1 in CHECK: the BIST and the self-test run again. -/
def Run.selftestStart (r : Run) : Run := r.bistRuns

end Sys2Proof.Machine
end

