-- ==== Sys2Proof/Machine/Jobs.lean ====
section
/-! DEFINITION. Commands that start work of all Rooms or of one engine, and how that work ends: class drain, region jobs,
the rebuild of a channel, and the configuration CRC (R86, R165, R270, R466–R469). -/
namespace Sys2Proof.Machine
open Sys2Proof

/-! ## Class drain and region jobs (R86, R165) -/

/-- CFG_CDRAIN with GO = 1. -/
def Run.classDrainGo (r : Run) (cls : Nat) : Run :=
  let r := { r with c := { r.c with cdrainBusy := true, cdrainDone := false } }
  (r.forEach allRooms fun m r => r.jobStart m (.classDrain (BitVec.ofNat 6 cls))).jobsCheck

/-- What CFG_RJOB may hold: OP FLUSH, or RESILVER of a Mirror region homed here. -/
def Run.rjobLegal (r : Run) (v : Nat) : Bool :=
  let n := BitVec.ofNat 18 v
  decide (bitsOf v 19 18 < 2) &&
    (bitsOf v 19 18 = 0 || (rgnHome n = r.myId && (r.region n).attr.mirror))

def Run.flushGo (r : Run) (n : BitVec 18) : Run :=
  let r := { r with c := { r.c with rjob := { busy := true, region := n } } }
  (r.forEach allRooms fun m r => r.jobStart m (.flush n)).jobsCheck

def Run.resilverGo (r : Run) (n : BitVec 18) : Run :=
  { r with c := { r.c with rjob := { busy := true, resilver := true, region := n } } }

def Run.rjobGo (r : Run) (v : Nat) : Run :=
  let n := BitVec.ofNat 18 v
  if bitsOf v 19 18 = 0 then r.flushGo n else r.resilverGo n

/-! ## The rebuild of a channel (R270) -/

/-- CEL_REBUILD with GO = 1 is legal: the channel is LOST, and no rebuild runs. -/
def Run.rebuildLegal (r : Run) (v : Nat) : Bool := !r.c.rebuild.busy && (r.chan (fin16 v)).lost

/-- The Cellar retrains the channel. -/
def Run.rebuildGo (r : Run) (v : Nat) : Run :=
  let c := fin16 v
  (r.modRebuild fun _ => { busy := true, ch := c }).modChan c fun x =>
    { x with trained := false, trainFail := false, ready := false, rebuildPtr := 0 }

/-- The sequencer has written every line index. -/
def Run.sequencerOver (r : Run) : Bool :=
  r.c.rebuild.writing && decide (r.chLines ≤ (r.chan r.c.rebuild.ch).rebuildPtr)

/-- REBUILD_END: when the sequencer has ended, every Room begins its refuge-release job; when those have ended, DONE
and READY are set. -/
def Run.rebuildEnd (r : Run) : Run :=
  let x := r.c.rebuild
  if !x.busy || !r.sequencerOver then r
  else if !x.released then
    (r.modRebuild fun x => { x with released := true }).forEach allRooms fun m r =>
      (r.modRoom m fun y => { y with refugeShut := true }).jobStart m .refugeRelease
  else if r.allEnded (· = .refugeRelease) then
    ((r.modRebuild fun x => { x with busy := false, done := true }).modChan x.ch fun y => { y with ready := true }).vector 5
  else r

def execRebuildEnd (s : State) : Host.Outcome State Fault Refusal := .next (Run.finish s (Run.start s).rebuildEnd)

/-! ## The configuration CRC (R466–R469) -/

/-- CRC-32C over one more word, as 4 bytes in little-endian order. -/
def crcWord (c : BitVec 32) (w : Word) : BitVec 32 :=
  (List.range 4).foldl (fun c i => crcBits 8 (c ^^^ (w.extractLsb' (8 * i) 8).setWidth 32)) c

/-- The result of a lap: every covered word in ascending address order, uncovered bits zero. -/
def Run.configCrc (r : Run) : Word :=
  ~~~((List.range 8388608).foldl (fun c i =>
    let k := crcMask (4 * i)
    if k = 0 then c else crcWord c (r.m.reg (4 * i) &&& w32 k)) (BitVec.allOnes 32))

/-- CFG_CRC_WORDS.WORDS. -/
def crcWords : Nat := 1832960

/-- The engine runs from LOAD onward, and the lap under way has read its last word. -/
def Run.lapOver (r : Run) : Bool :=
  r.mode ≠ .off && r.mode ≠ .aux && decide (r.c.crc.lapCc + 4 * crcWords ≤ r.c.cc)

/-- A lap ends: the result, the count of laps, and the next lap. -/
def Run.lapCount (r : Run) : Run :=
  let v := r.configCrc
  (r.modCrc fun x => { x with live := v, lapCc := r.c.cc }).count32 0xE14 1

/-- CRC_LAP_END: a lap with DIRTY = 0 is compared. -/
def Run.crcLapEnd (r : Run) : Run :=
  if r.lapOver && !r.c.crc.busy then
    let r := r.lapCount
    if !r.c.crc.dirty && r.c.crc.live ≠ r.c.crc.ref then
      let first := !r.c.crc.raised
      (r.modCrc fun x => { x with mismatch := true, raised := true }).when first fun r => r.sysEvent 38 Code.cfgCrc
    else r
  else r

def execCrcLapEnd (s : State) : Host.Outcome State Fault Refusal := .next (Run.finish s (Run.start s).crcLapEnd)

/-- CFG_COMMIT with GO = 1. -/
def Run.commitStart (r : Run) : Run := r.modCrc fun x => { x with busy := true, done := false, lapCc := r.c.cc }

/-- The commit lap has ended: its result is the reference. -/
def Run.commitDone (r : Run) : Run :=
  (r.lapCount.modCrc fun x =>
    { x with ref := x.live, dirty := false, mismatch := false, busy := false, done := true,
             raised := x.raised && x.ref = x.live }).vector 5

/-- COMMIT_END. The loader's own commit ends with its load (R421). -/
def Run.commitEnd (r : Run) : Run := if r.lapOver && r.c.crc.busy then r.commitDone else r

def execCommitEnd (s : State) : Host.Outcome State Fault Refusal := .next (Run.finish s (Run.start s).commitEnd)

/-- A covered word has changed: DIRTY is set, and a commit lap starts again (R468, R469). -/
def Run.configDirty (r : Run) : Run :=
  let r := if r.c.crc.busy then
    (r.modCrc fun x => { x with lapCc := r.c.cc }).setReg 0xE0C (min 0xFFFF (r.fld 0xE0C 31 16 + 1) <<< 16) else r
  r.modCrc fun x => { x with dirty := true }

end Sys2Proof.Machine
end

