-- ==== Sys2Proof/Machine/Latch.lean ====
section
/-! DEFINITION. The Latch: takes, renewals, releases, leases, ties and parity faults (R460–R465, R472), and the links of
the management ports (R445, R543). -/
namespace Sys2Proof.Machine
open Sys2Proof

def mgOther : MgPort → MgPort
  | .a => .b
  | .b => .a

def Run.latch (r : Run) (n : Fin 32) : Latch := r.c.lch.l[n]
def Run.setLatch (r : Run) (n : Fin 32) (x : Latch) : Run :=
  { r with c := { r.c with lch := { r.c.lch with l := r.c.lch.l.set n.val x n.isLt } } }

/-- The cycle of the 250 MHz management clock. -/
def Run.mgCycle (r : Run) : Nat := r.now / 40

/-- The AUX tick counter: 25 MHz ticks since VAUX became valid (R492). -/
def Run.auxTick (r : Run) : Nat := r.now / 400

/-- The word that port g reads from LCH_TAKEn (R460, R472). -/
def Latch.word (x : Latch) (g : MgPort) : Nat :=
  let own : Nat := match x.owner with
    | none => 0
    | some .a => 1
    | some .b => 2
  b2n (x.owner = some g) + 2 * b2n x.err + 4 * own + x.token.toNat * 65536

def takeAddr (n : Fin 32) : Nat := 0x20000 + 4 * n.val

/-- A management read returns a word. -/
def Run.mgAnswer (r : Run) (g : MgPort) (a v : Nat) : Run :=
  (r.cross (.regRsp g) 1).modOut fun o => { o with mgmt := o.mgmt ++ [(g, a, w32 v)] }

/-- A Latch is freed by its lease or by its owner's link (R464). -/
def Run.latchFree (r : Run) (n : Fin 32) : Run :=
  (((r.setLatch n { r.latch n with owner := none, takenIn := none }).count32 0x20114 1).sysEvent 39 Code.lchLease).vector 3

/-- The lease of an owned Latch has ended. -/
def Run.leaseOver (r : Run) (n : Fin 32) : Bool := (r.latch n).owner.isSome && decide ((r.latch n).endsAt ≤ r.now)

/-- LATCH_LEASE_EXPIRE. -/
def Run.latchExpire (r : Run) (n : Fin 32) : Run := if r.leaseOver n then r.latchFree n else r

def execLatchLeaseExpire (n : Fin 32) (s : State) : Host.Outcome State Fault Refusal :=
  .next (Run.finish s ((Run.start s).latchExpire n))

/-- When a lease that starts now ends. -/
def Run.leaseEnds (r : Run) : Nat := r.now + msec (r.fld 0x20100 15 0)

/-- Port g takes a free Latch. -/
def Run.latchOwn (r : Run) (g : MgPort) (n : Fin 32) : Run :=
  let x := r.latch n
  r.setLatch n { x with owner := some g, token := x.token + 1, endsAt := r.leaseEnds, takenIn := some r.mgCycle }

/-- The port that wins a tie (R461). -/
def Run.tieWinner (r : Run) : MgPort :=
  if (if r.c.lch.tieFirst then r.auxTick % 2 = 1 else r.c.lch.tieNext) then .b else .a

/-- The last element that `p` holds of, changed by `f`. -/
def changeLast {α : Type} (p : α → Bool) (f : α → α) (l : List α) : List α :=
  match l.reverse.span fun x => !(p x) with
  | (later, x :: earlier) => earlier.reverse ++ f x :: later.reverse
  | (_, []) => l

/-- Both ports read a free Latch in one cycle: the tie decides. The answer of this cycle to the port that read first
follows the decision (log entry 54, DEDUCED). -/
def Run.latchTie (r : Run) (g : MgPort) (n : Fin 32) : Run :=
  let w : MgPort := r.tieWinner
  let r := r.setLatch n { r.latch n with owner := some w, takenIn := none }
  let r := { r with c := { r.c with lch := { r.c.lch with tieFirst := false, tieNext := decide (w = MgPort.a) } } }
  let x := r.latch n
  let mine (y : MgPort × Nat × Word) : Bool := y.1 = mgOther g && y.2.1 = takeAddr n
  let told (y : MgPort × Nat × Word) : MgPort × Nat × Word := (y.1, y.2.1, w32 (x.word y.1))
  r.modOut fun o => { o with mgmt := changeLast mine told o.mgmt }

/-- LATCH_TAKE: a read of LCH_TAKEn by a PCIe access of port g. An expiry of this cycle comes first, but for a renewal
(R463). -/
def Run.latchTake (r : Run) (g : MgPort) (n : Fin 32) : Run :=
  if r.mode = .off then r
  else
    let r := r.took (.regReq g) 1
    let late := r.leaseOver n && ((r.latch n).owner ≠ some g || decide ((r.latch n).endsAt / 40 < r.mgCycle))
    let r := if late then r.latchFree n else r
    let x := r.latch n
    let r :=
      if x.err then r
      else if x.owner = none then r.latchOwn g n
      else if x.owner = some g then r.setLatch n { x with endsAt := r.leaseEnds }
      else if x.takenIn = some r.mgCycle then r.latchTie g n
      else r
    r.mgAnswer g (takeAddr n) ((r.latch n).word g)

def execLatchTake (g : MgPort) (n : Fin 32) (s : State) : Host.Outcome State Fault Refusal :=
  .next (Run.finish s ((Run.start s).latchTake g n))

/-- REL = 1 is legal for this writer and token (R462). -/
def Run.relLegal (r : Run) (w : Writer) (n : Fin 32) (v : Nat) : Bool :=
  match w with
  | .port g => (r.latch n).owner = some g && (r.latch n).token.toNat = bitsOf v 31 16
  | .loader => false

/-- A legal write of LCH_RELn. -/
def Run.latchWrite (r : Run) (n : Fin 32) (v : Nat) : Run :=
  let r := if v.testBit 0 then r.setLatch n { r.latch n with owner := none, takenIn := none } else r
  if v.testBit 1 then r.setLatch n { r.latch n with err := false } else r

/-- LCH_PARITY (R465). -/
def Run.latchParity (r : Run) (n : Fin 32) : Run :=
  if r.mode = .off then r
  else (r.setLatch n { r.latch n with err := true, owner := none, takenIn := none }).sysEvent 39 Code.lchParity 5

def execLchParity (n : Fin 32) (s : State) : Host.Outcome State Fault Refusal :=
  .next (Run.finish s ((Run.start s).latchParity n))

/-! ## The links of the management ports (R410, R445, R543) -/

/-- MG_LINK_UP: the link enters L0. The ports train only while the 100 MHz reference runs. -/
def Run.mgLinkUp (r : Run) (g : MgPort) (speed : BitVec 3) : Run :=
  if r.mode ≠ .off && r.c.clk.ref100 && !(r.mg g).up && r.c.jtag = .none then r.modMg g fun x => { x with up := true, speed := speed } else r

def execMgLinkUp (g : MgPort) (speed : BitVec 3) (s : State) : Host.Outcome State Fault Refusal :=
  .next (Run.finish s ((Run.start s).mgLinkUp g speed))

/-- MG_LINK_DOWN: the link leaves L0; the port's Latches are freed. -/
def Run.mgLinkDown (r : Run) (g : MgPort) : Run :=
  if (r.mg g).up then
    let r := (r.modMg g fun x => { x with up := false, speed := 0 }).report
      { code := Code.mgLinkDown, src := (Writer.port g).src, mKind := 5, mId := b2n (g = .b) }
    r.forEach (List.finRange 32) fun n r => if (r.latch n).owner = some g then r.latchFree n else r
  else r

def execMgLinkDown (g : MgPort) (s : State) : Host.Outcome State Fault Refusal :=
  .next (Run.finish s ((Run.start s).mgLinkDown g))

/-- MG_PERST resets the port's link only. -/
def execMgPerst (g : MgPort) (s : State) : Host.Outcome State Fault Refusal :=
  .next (Run.finish s ((Run.start s).mgLinkDown g))

end Sys2Proof.Machine
end

