-- ==== Sys2Proof/Machine/Conduct.lean ====
section
/-! DEFINITION. Register conduct: what a management write does (R39, R42, R94, R97–R99, R302, R351, R352, R358, R359, R365,
R392, R395, R411, R416, R419, R422, R432, R438, R444, R451–R459, R462, R468, R499, R504, R508, R509). -/
namespace Sys2Proof.Machine
open Sys2Proof

/-! ## Addresses -/

/-- The global blocks, whose registers have aliases (R455). -/
def aliasBlock (a : Nat) : Bool := decide (a < 0x70000) || decide (0x110000 ≤ a ∧ a < 0x120000) || decide (0x190000 ≤ a ∧ a < 0x1A0000)

/-- The four ways of a write (R455). -/
inductive How | plain | set | clear | toggle
deriving DecidableEq, Repr

/-- The register address that a write names, and how it writes. -/
def aliasOf (a : Nat) : Nat × How :=
  if aliasBlock a then
    let k := a % 0x10000 / 0x4000
    (a - k * 0x4000, if k = 0 then .plain else if k = 1 then .set else if k = 2 then .clear else .toggle)
  else (a, .plain)

/-- Locations that answer in AUX (R444). -/
def islandReg (a : Nat) : Bool :=
  decide (0x10000 ≤ a ∧ a < 0x50000) || decide (a < 0x10) || a = 0x18 || a = 0x1C || a = 0x20 || a = 0x200 || a = 0x210 ||
    decide (0x220 ≤ a ∧ a < 0x250)

/-- A section of an image may target this register address (R416). -/
def imgTarget (a : Nat) : Bool :=
  decide (a < 0x2000000) && !(decide (a < 0x400) && a ≠ 0x10) && !(decide (0x10400 ≤ a ∧ a < 0x1040C)) &&
    !(decide (0x180000 ≤ a ∧ a < 0x188000) && decide (0x100 ≤ a % 0x1000 ∧ a % 0x1000 < 0x180)) &&
    !(decide (0xC20000 ≤ a ∧ a < 0xCA0000))

/-! ## A register write -/

/-- A write that reaches a register: the register, its address, its word before, and the word that the write would
leave, command bits included. -/
structure Wr where
  d : RegDef
  a : Nat
  old : Nat
  new : Nat
  how : How := .plain

/-- Bits that a management write can change. -/
def RegDef.writable (d : RegDef) : Nat := d.maskOf fun x => x = .rw || x = .w1 || x = .wo

/-- `old` with the bits of `mask` taken from `v`. -/
def mixWord (old v mask : Nat) : Nat := (old ^^^ (old &&& mask)) ||| (v &&& mask)

/-- The word that a write of `v` would leave (R452, R455, R456). -/
def RegDef.written (d : RegDef) (how : How) (old v : Nat) : Nat :=
  let rw := d.writable
  match how with
  | .plain => if d.wm then mixWord old v (rw &&& (v >>> 16)) else mixWord old v rw
  | .set => if d.al then old ||| (v &&& rw) else old
  | .clear => if d.al then old ^^^ (old &&& v &&& rw) else old
  | .toggle => if d.al then old ^^^ (v &&& rw) else old

def Wr.bit (x : Wr) (i : Nat) : Bool := x.new.testBit i
def Wr.fld (x : Wr) (hi lo : Nat) : Nat := bitsOf x.new hi lo
def Wr.moves (x : Wr) (hi lo : Nat) : Bool := bitsOf x.old hi lo ≠ bitsOf x.new hi lo

/-- Bits that carry a command and always read 0. -/
def cmdBits (name : String) : Nat := match name with
  | "CFG_CDRAIN" | "TT_FORCE" | "FBX_RECHECK" => 0x100
  | "CFG_RJOB" | "IMG_SPI_CMD" => 0x100000
  | "PCH_MSYNC" | "MTR_SNAP" | "SCB_SELFTEST" | "CFG_COMMIT" | "PMC_HSNAP" => 0x1
  | "CEL_REBUILD" => 0x10
  | "DOR_CTRL" | "FBX_FIRST_CTRL" => 0x2
  | "FBX_INJ_CTRL" | "MOD_REQ" => 0x10000
  | "DEV_CTRL" => 0xFFFF0001
  | "IMG_CTRL" => 0x4
  | "LCH_REL" => 0xFFFF0003
  | "PMC_CTL" => 0x300
  | _ => 0

/-! ## Legality (R454) -/

/-- A field whose value changes leaves its own legal range. -/
def Wr.rangeBad (x : Wr) : Bool :=
  x.d.fields.any fun f => match f.legal with
    | some (lo, hi) => decide (f.get x.old ≠ f.get x.new) && !(decide (lo ≤ f.get x.new ∧ f.get x.new ≤ hi)) &&
        !(x.d.name = "WIN_SEL" && f.lo = 8)
    | none => false

/-- Porch and segment number of a window segment register. -/
def wsegOf (a : Nat) : Fin 8 × Nat := (fin8 ((a - 0x80000) / 0x1000), (a % 0x1000 - 0x800) / 16)

/-- The segment as it would stand after the write. -/
def Run.segAfter (r : Run) (x : Wr) : Seg :=
  let (p, s) := wsegOf x.a
  let w (k : Nat) : Nat := if x.a % 16 = 4 * k then x.new else r.reg (segBase p s + 4 * k)
  Seg.ofWords (w 0) (w 1) (w 2)

/-- Two ranges of GiB share one. -/
def gibOverlap (a n b m : Nat) : Bool := decide (a < b + m ∧ b < a + n)

/-- WINDOW_BAD (R39). -/
def Run.segBad (r : Run) (x : Wr) : Bool :=
  let (p, s) := wsegOf x.a
  let g := r.segAfter x
  let link : List Nat := if r.bif p then (List.range 32).map (· + 32 * (s / 32)) else List.range 64
  g.v && (!(decide (1 ≤ g.size ∧ g.size ≤ 4096)) || decide (4096 < g.pool % 4096 + g.size) ||
    link.any fun t => t ≠ s && (r.seg p t).v && gibOverlap g.dpa g.size (r.seg p t).dpa (r.seg p t).size)

def rgnOf (a : Nat) : BitVec 18 := BitVec.ofNat 18 ((a - 0x1000000) / 0x40)

/-- The region entry as it would stand after the write. -/
def Run.rgnAfter (r : Run) (x : Wr) : Region :=
  let n := rgnOf x.a
  let w (k : Nat) : Nat := if x.a % 0x40 = 4 * k then x.new else r.reg (rgnBase n + 4 * k)
  Region.ofWords (w 0) (w 1) (w 2)

/-- This House holds the region's frame: it is the home, or the twin of a Mirror region. -/
def Run.holdsFrame (r : Run) (n : BitVec 18) (g : Region) : Bool :=
  g.attr.kind ≠ 0 && (rgnHome n = r.myId || (g.attr.mirror && g.twin = r.myId))

/-- REGION_BAD (R42). -/
def Run.rgnBad (r : Run) (x : Wr) : Bool :=
  let n := rgnOf x.a
  let g := r.rgnAfter x
  let h := rgnHome n
  let a := g.attr
  let priv := a.kind = kindPrivate
  a.kind ≠ 0 && !(
    (h = r.myId || (priv && g.owner = r.myId) || (a.mirror && g.twin = r.myId) || a.kind = kindShared) &&
    (!priv || g.owner ≠ h) && (!a.mirror || g.twin ≠ h) && (!(a.mirror && priv) || g.twin ≠ g.owner) &&
    (!(a.kind = kindDirect || r.nearWays = 0) || !a.nearc) &&
    (!(r.holdsFrame n g) || decide (g.frame < r.homeFrames)))

/-- A latch register's number. -/
def latchOf (a : Nat) : Fin 32 := ⟨a / 4 % 32, Nat.mod_lt _ (by decide)⟩

/-- Events that counters can count (R496). -/
def pmcEvent (c : Nat) : Bool := decide (c ≤ 0x14) || decide (0x20 ≤ c ∧ c ≤ 0x27)

/-- WIN_SEL.GROUP is legal (R507, R508). -/
def Run.groupOk (r : Run) (g : Nat) : Bool := decide (g < 4) || (decide (8 ≤ g) && r.bit 0x50000 1 && !r.c.fuses.winDoff)

/-- Conditions on several fields, and on commands (R39, R42, R45, R86, R165, R197, R221, R270, R351, R376, R392, R395, R411,
R419, R424, R432, R438, R462, R469, R492, R496, R499, R502, R507, R508). -/
def Run.joinBad (r : Run) (w : Writer) (x : Wr) : Bool := match x.d.name with
  | "CFG_CELLAR" => (x.moves 8 0 || x.moves 20 16) && (decide (16 < x.fld 20 16) || decide (16 * x.fld 8 0 < 8 * x.fld 20 16))
  | "RTE_ENTRY" => x.moves 11 0 &&
      ((x.bit 3 && x.bit 7 && decide (x.fld 2 0 = x.fld 6 4)) || (x.bit 3 && decide (x.fld 11 8 = 0)))
  | "RTE_CTRL" => (x.moves 9 0 || x.moves 27 16) && decide (x.fld 27 16 < 3 * x.fld 9 0)
  | "THM_LIMITS" => (x.moves 7 0 || x.moves 15 8) && decide (x.fld 15 8 ≤ x.fld 7 0)
  | "PMC_CTL" => (x.bit 8 && x.bit 9) || (x.moves 5 0 && !(pmcEvent (x.fld 5 0)))
  | "PCH_HIST_CFG" => x.moves 8 7 && decide (x.fld 8 7 = 3)
  | "WIN_SEL" => x.moves 11 8 && !(r.groupOk (x.fld 11 8))
  | "WIN_CTRL" => x.moves 1 1 && !(x.bit 1) && decide (8 ≤ r.fld 0x50004 11 8)
  | "FBX_EVCFG" => decide (x.fld 25 24 = 3) || (x.bit 2 && (decide (x.fld 11 4 = 0) || decide (x.fld 23 16 = 0)))
  | "IMG_SRC_ADDR" => x.moves 28 0 && (decide (x.fld 28 0 % 12 ≠ 0) || decide (0x18000000 ≤ x.fld 28 0))
  | "TT_FORCE" => x.bit 8 && !(r.forceLegal (x.fld 6 0))
  | "FBX_RECHECK" => x.bit 8 && !(r.recheckLegal (x.fld 6 0))
  | "FBX_INJ_CTRL" => x.bit 16 && !(injLegal x.new)
  | "CFG_CDRAIN" => x.bit 8 && r.c.cdrainBusy
  | "CFG_RJOB" => !(r.rjobLegal x.new) || (x.bit 20 && r.c.rjob.busy)
  | "CEL_REBUILD" => x.bit 4 && !(r.rebuildLegal (x.fld 3 0))
  | "MOD_REQ" => x.bit 16 && !(r.reqLegal x.new)
  | "IMG_CTRL" => x.bit 2 && (r.mode ≠ .load || r.c.img.busy)
  | "IMG_SPI_CMD" => (x.moves 18 10 && decide (256 < x.fld 18 10)) || (x.bit 20 && (r.c.img.busy || r.c.img.spiBusy))
  | "SCB_SELFTEST" => x.bit 0 && r.mode ≠ .check
  | "CFG_COMMIT" => x.bit 0 && r.c.crc.busy
  | "PCH_MSYNC" => x.bit 0 && (r.porch (fin8 ((x.a - 0x80000) / 0x1000))).msyncBusy
  | "LCH_REL" => x.bit 0 && !(r.relLegal w (latchOf x.a) x.new)
  | "DEV_CTRL" => x.bit 0 && decide (x.fld 31 16 ≠ 0xA5E7)
  | _ => false

/-- The event with which a write is refused, if it is (R454 and the chapters that name their own). -/
def Run.wrBad (r : Run) (w : Writer) (x : Wr) : Option Nat :=
  if (x.d.name = "PCH_WSEGs_DPA" || x.d.name = "PCH_WSEGs_SIZE" || x.d.name = "PCH_WSEGs_POOL") && r.segBad x then
    some Code.windowBad
  else if decide (0x1000000 ≤ x.a) && r.rgnBad x then some Code.regionBad
  else if x.d.name = "TNT_CLS_CTRL" && x.rangeBad then some Code.classBad
  else if x.rangeBad || r.joinBad w x then some Code.illegalWrite
  else none

/-! ## Effects -/

/-- The frame map follows a region entry (R279; log entry 55, DESIGN CHOICE). -/
def Run.frameSync (r : Run) (n : BitVec 18) (old new : Region) : Run :=
  let key (g : Region) : Nat := g.frame
  let r := if r.holdsFrame n old && !(r.holdsFrame n new && key new = key old) then r.st (.frame (key old) 0) else r
  if r.holdsFrame n new then
    let home := rgnHome n = r.myId
    let word := n.toNat % 4096 ||| ((if home then new.twin else rgnHome n).toNat <<< 12) ||| (new.attr.cls.toNat <<< 18) |||
      (b2n (!home) <<< 24) ||| (b2n new.attr.mirror <<< 25) ||| (1 <<< 31)
    r.st (.frame (key new) (w32 word))
  else r

/-- RM_WAYDIS takes a new value, bit by bit (R84). -/
def Run.waydisWrite (r : Run) (m : Fin 64) (v : Nat) : Run :=
  r.forEach (List.finRange 16) fun w r =>
    if v.testBit w.val = r.bit (rmBase m + 0x20) w.val then r
    else if v.testBit w.val then r.wayDisable m w else r.wayEnable m w

/-- Bits of a tag entry as its data word (R56). -/
def TagEnt.ofBits (b : BitVec 96) : TagEnt :=
  { tag := b.extractLsb' 0 16, valid := b.extractLsb' 16 16, dirty := b.extractLsb' 32 16, tenant := b.extractLsb' 48 12,
    state := b.extractLsb' 60 4, cls := b.extractLsb' 64 6, epoch := b.extractLsb' 70 8, rsvd := b.extractLsb' 78 9 }

def TagEnt.toBits (e : TagEnt) : BitVec 96 :=
  e.tag.setWidth 96 ||| (e.valid.setWidth 96 <<< 16) ||| (e.dirty.setWidth 96 <<< 32) ||| (e.tenant.setWidth 96 <<< 48) |||
    (e.state.setWidth 96 <<< 60) ||| (e.cls.setWidth 96 <<< 64) ||| (e.epoch.setWidth 96 <<< 70) ||| (e.rsvd.setWidth 96 <<< 78)

/-- Draw a free value (log entry 2, DESIGN CHOICE). -/
def Run.draw (r : Run) : Run × BitVec 96 := ({ r with c := { r.c with free := r.c.free + 1 } }, Config.freeBits r.c.free)

/-- The 64 entries of one row of a way hold arbitrary bits (R94). -/
def Run.rowArbitrary (r : Run) (m : Fin 64) (way row : Nat) : Run :=
  r.forEach (List.range 64) fun i r =>
    let (r, b) := r.draw
    (r.setTag m (row * 64 + i) way (TagEnt.ofBits b)).st (.pan (tagKey m (row * 64 + i) way) true)

/-- RM_ROWMAPk takes a new value: the rows that leave and enter the spare show other cells (R94). -/
def Run.rowmapWrite (r : Run) (x : Wr) : Run :=
  let m := fin64 ((x.a - 0x400000) / 0x10000)
  let way := (x.a % 0x10000 - 0x100) / 16
  if x.old = x.new then r
  else
    let r := r.when (x.old.testBit 15) fun r => r.rowArbitrary m way (bitsOf x.old 8 0)
    r.when (x.bit 15 && !(x.old.testBit 15 && bitsOf x.old 8 0 = x.fld 8 0)) fun r => r.rowArbitrary m way (x.fld 8 0)

/-- PMC_CTLk with CLR or LOAD sets the count and keeps OVF (R499). -/
def Run.pmcSet (r : Run) (x : Wr) : Run :=
  let m := (x.a - 0x400000) / 0x10000
  let k := (x.a % 0x10000 - 0x640) / 0x20
  let key := m * 9 + k
  let ovf := (mget 0 r.m.pmc key).toNat / 2 ^ 48 * 2 ^ 48
  let pre := r.fld (x.a + 8) 15 0 ||| (r.fld (x.a + 12) 15 0 <<< 16) ||| (r.fld (x.a + 16) 15 0 <<< 32)
  if x.bit 8 then r.st (.pmc key (BitVec.ofNat 49 ovf))
  else if x.bit 9 then r.st (.pmc key (BitVec.ofNat 49 (ovf + pre)))
  else r

/-- The next boundary of the automatic windows is one that the new settings define (R372). -/
def Run.mtrCtrl (r : Run) : Run :=
  let w := r.fld 0xC00800 27 16 * 10 ^ 9
  if r.bit 0xC00800 0 && w ≠ 0 then r.modMtr fun m => { m with autoDone := max m.autoDone (r.ftNs / w * w) } else r

/-- TNT_QUOTA may make a tenant's OVER non-zero (R355, R356). -/
def Run.quotaWrite (r : Run) (x : Wr) : Run :=
  let t := BitVec.ofNat 12 ((x.a - 0xC10000) / 0x10)
  r.when (decide (r.occ t ≤ x.old) && decide (0 < r.over t)) Run.trimWake

/-- A class's EPOCH changes (R88, R89). -/
def Run.epochSweep (r : Run) : Run :=
  let r := { r with c := { r.c with csweepBusy := true } }
  (r.forEach allRooms fun m r => r.jobStart m .staleSweep).jobsCheck

/-- A Door's RETRAIN, and its EN falling (R28, R288). -/
def Run.doorCtrl (r : Run) (x : Wr) : Run :=
  let d := fin8 ((x.a - 0x180000) / 0x1000)
  let runs := r.mode.fabric || r.mode = .pantry
  if x.old.testBit 0 && !(x.bit 0) then
    r.modDoor d fun y => { y with up := false, trained := false, training := false, quick := false }
  else if x.bit 1 && x.bit 0 && runs && !(r.fenced (unitDoor d)) then r.fullTrain d
  else r

/-- A Door key slot is installed anew: its frames are counted from now (R301, R302; log entry 56, DEDUCED). -/
def Run.doorKeyWrite (r : Run) (a : Nat) : Run :=
  let d := fin8 ((a - 0x180000) / 0x1000)
  let k : Fin 2 := Fin.boolIdx (decide ((a % 0x1000) / 0x20 % 2 = 1))
  if a % 0x1000 < 0x140 then r.modDoor d fun y => { y with txCnt := y.txCnt.set k.val 0 k.isLt }
  else r.modDoor d fun y => { y with rxCnt := y.rxCnt.set k.val 0 k.isLt }

/-- PCH_CTRL: BIF retrains both halves, and EN = 0 holds both links in Detect (R28, R349). A Porch that EN = 1 enables
where the others are open opens at once (log entry 109, DESIGN CHOICE). -/
def Run.porchCtrl (r : Run) (x : Wr) : Run :=
  let p := fin8 ((x.a - 0x80000) / 0x1000)
  let off := x.old.testBit 0 && !(x.bit 0)
  let r := r.when (x.moves 1 1 || off) fun r => r.forEach allLinks fun k r => r.linkDown p k
  let on := x.bit 0 && !(r.fenced (unitPorch p)) &&
    (r.mode = .run || r.mode = .degraded || r.mode = .window || r.mode = .drain || r.mode = .safe)
  if x.moves 0 0 then r.modPorch p fun y => { y with opened := on } else r

/-- FBX_EVCFG: leaving counting mode frees the code's entries (R377). -/
def Run.evcfgWrite (r : Run) (x : Wr) : Run :=
  if x.old.testBit 2 && !(x.bit 2) then
    r.modFbx fun f => { f with cnt := f.cnt.filter fun y => y.code ≠ (x.a - 0x11000) / 4 }
  else r

/-- Byte k of IMG_SPI_BUF. -/
def Run.spiByte (r : Run) (k : Nat) : Byte := BitVec.ofNat 8 (r.reg (0x300 + k / 4 * 4) >>> (8 * (k % 4)))

/-- The SPI transaction that IMG_SPI_CMD starts: the opcode, the address, and the bytes of a write leave (R438). -/
def Run.spiStart (r : Run) : Run :=
  let c := r.reg 0x260
  let n := if c.testBit 9 then 4 else 3
  let addr := if c.testBit 8 then ((List.range n).map fun i => BitVec.ofNat 8 (r.reg 0x264 >>> (8 * (n - 1 - i)))) else []
  let data := if c.testBit 19 then (List.range (bitsOf c 18 10)).map r.spiByte else []
  (r.modImg fun x => { x with spiBusy := true }).modOut fun o => { o with side := o.side ++ [BitVec.ofNat 8 c :: addr ++ data] }

/-- What a stored write does beside its store. -/
def Run.wrEffect (r : Run) (w : Writer) (x : Wr) : Run := match x.d.name with
  | "CFG_CDRAIN" => r.when (x.bit 8) fun r => r.classDrainGo (x.fld 5 0)
  | "CFG_RJOB" => r.when (x.bit 20) fun r => r.rjobGo x.new
  | "CEL_REBUILD" => r.when (x.bit 4) fun r => r.rebuildGo (x.fld 3 0)
  | "TT_FORCE" => r.when (x.bit 8) fun r => r.ttRequest (x.fld 6 0)
  | "FBX_RECHECK" => r.when (x.bit 8) fun r => r.recheckStart (x.fld 6 0)
  | "FBX_INJ_CTRL" => r.when (x.bit 16) fun r => r.inject' w x.new
  | "FBX_FIRST_CTRL" => r.when (x.bit 1) fun r => r.modFbx fun f => { f with first := none, firstSwap := false }
  | "FBX_EVCFG" => r.evcfgWrite x
  | "MOD_REQ" => r.when (x.bit 16) fun r => r.reqGo w x.new
  | "DEV_CTRL" => r.when (x.bit 0) fun r => r.reset true
  | "IMG_CTRL" => r.when (x.bit 2) fun r => r.loadStart (x.bit 1)
  | "IMG_SPI_CMD" => r.when (x.bit 20) Run.spiStart
  | "SCB_SELFTEST" => r.when (x.bit 0) Run.selftestStart
  | "CFG_COMMIT" => r.when (x.bit 0) Run.commitStart
  | "PCH_MSYNC" => r.when (x.bit 0) fun r => r.msyncGo w (fin8 ((x.a - 0x80000) / 0x1000))
  | "LCH_REL" => r.latchWrite (latchOf x.a) x.new
  | "MTR_CTRL" => r.mtrCtrl
  | "MTR_SNAP" => r.when (x.bit 0) fun r => r.meterManual w
  | "MTR_ACK" => r.meterAck w x.new
  | "PMC_CTL" => r.pmcSet x
  | "PMC_HSNAP" => r.when (x.bit 0) Run.histSnapshot
  | "THM_SEL" => r.modThm fun t => { t with res := Vector.replicate 4 0 }
  | "RM_WAYDIS" => r.waydisWrite (fin64 ((x.a - 0x400000) / 0x10000)) x.new
  | "RM_ROWMAP" => r.rowmapWrite x
  | "TNT_CLS_CTRL" => r.when (x.moves 23 16) Run.epochSweep
  | "TNT_CLS_WAYS" => r.when (decide (x.old ≠ x.old &&& x.new)) Run.trimWake
  | "TNT_QUOTA" => r.quotaWrite x
  | "DOR_CTRL" => r.doorCtrl x
  | "DOR_TXKEY" | "DOR_RXKEY" => r.doorKeyWrite x.a
  | "PCH_CTRL" => r.porchCtrl x
  | _ => r

/-- The word is stored, but for the command bits; RM_WAYDIS is stored by its effect. A covered word that changes makes
the configuration dirty (R468). -/
def Run.wrStore (r : Run) (x : Wr) : Run :=
  let v := x.new ^^^ (x.new &&& cmdBits x.d.name)
  let r := if x.d.name = "RM_WAYDIS" then r else r.setReg x.a v
  r.when ((x.old ^^^ v) &&& crcMask x.a ≠ 0) Run.configDirty

/-- A legal write: W1 fields take the first write only (R459). -/
def Run.wrDo (r : Run) (w : Writer) (x : Wr) : Run :=
  if x.d.name = "WIN_LOCK" then
    if x.how ≠ .plain then r
    else if r.c.winLockArmed then { r with c := { r.c with winLockArmed := false } }.wrStore x else r.wrEvent w Code.writeOnce
  else if decide (0x1000000 ≤ x.a) then
    let n := rgnOf x.a
    let old := r.region n
    let r := r.wrStore x
    r.frameSync n old (r.region n)
  else (r.wrStore x).wrEffect w x

/-- The class of a write by its register: checked, then stored with its effects. -/
def Run.wrReg (r : Run) (w : Writer) (x : Wr) : Run := match r.wrBad w x with
  | some code => r.wrEvent w code
  | none => r.wrDo w x

/-! ## Key slots (R358, R359) -/

/-- Word 15 commits the stage; missing words are zero. -/
def Run.keyCommit (r : Run) (t : Nat) (words : SMap Word) (v : Nat) : Run :=
  let r := r.forEach (List.range 15) fun i r => r.st (.key (t * 16 + i) (mget 0 words i))
  let r := (r.st (.key (t * 16 + 15) (w32 v))).setReg (0xC10000 + t * 0x10) (r.reg (0xC10000 + t * 0x10) ||| 2)
  { r with c := { r.c with stage := none } }

/-- A write of word i of a key slot. -/
def Run.keyWrite (r : Run) (w : Writer) (t i v : Nat) : Run :=
  if t = 0 then r.wrEvent w Code.tenantBad
  else
    let lost : Bool := match r.c.stage with
      | some s => s.tenant ≠ t
      | none => false
    let words : SMap Word := match r.c.stage with
      | some s => if s.tenant = t then s.words else []
      | none => []
    let r := r.when lost fun r => r.wrEvent w Code.keyAbandon
    if i = 15 then r.keyCommit t words v
    else { r with c := { r.c with stage := some { tenant := t, words := mset 0 words i (w32 v) } } }

/-! ## The Pantry (R97–R99) -/

/-- The Pantry is open. -/
def Run.pantryOpen (r : Run) : Bool := r.mode = .load || r.mode = .pantry || (r.mode = .check && !r.c.selft.busy)

/-- The Pantry address behind offset x of the Pantry window: entry number and word. -/
def Run.pantryAt (r : Run) (x : Nat) : Nat × Nat :=
  let p := r.fld 0x500 3 0 * 0x2000000 + x
  (p / 12, p % 12 / 4)

/-- Room, way and set of a Pantry entry number. -/
def pantryPlace (n : Nat) : Fin 64 × Nat × Nat := (fin64 (n / 524288), n % 524288 / 32768, n % 32768)

/-- The data bits of a tag entry, as the last write or the last BIST left them. -/
def Run.pantryBits (r : Run) (n : Nat) : BitVec 96 :=
  let (m, way, set) := pantryPlace n
  let key := tagKey m set way
  if !r.c.selft.wiped || mget false r.m.pan key then (r.tag m set way).toBits
  else Config.bistBits r.c.selft.runs key &&& ((1#96 <<< 87) - 1)

/-- Entry word `i` of an entry. -/
def entWord (b : BitVec 96) (i : Nat) : Word := b.extractLsb' (32 * i) 32

/-- Word i of entry n lies in the image that a load is reading from the Pantry (R423). -/
def Run.imageWord (r : Run) (n i : Nat) : Bool :=
  let first := r.fld 0x204 28 0 / 12
  r.c.img.busy && r.c.img.src && decide (i < 2 ∧ first ≤ n ∧ 8 * (n - first) + 4 * i < r.fld 0x208 26 0)

/-- A write of one Pantry word; check bits ignore writes. -/
def Run.pantryStore (r : Run) (w : Writer) (x v : Nat) : Run :=
  if !r.pantryOpen then r.wrEvent w Code.pantryClosed
  else
    let (n, i) := r.pantryAt x
    let (m, way, set) := pantryPlace n
    let r := r.when (r.imageWord n i) fun r => r.modImg fun y => { y with touched := true }
    let keep := r.pantryBits n &&& ~~~((0xFFFFFFFF#96) <<< (32 * i))
    let b := keep ||| (BitVec.ofNat 96 (v % 2 ^ 32) <<< (32 * i))
    (r.setTag m set way (TagEnt.ofBits b)).st (.pan (tagKey m set way) true)

/-! ## The whole conduct -/

/-- One full-word management write at byte address a (R444, R451–R459). -/
def Run.mgmtStore (r : Run) (w : Writer) (a v : Nat) : Run :=
  let (b, how) := aliasOf a
  if r.mode = .off then r
  else if r.mode = .aux && decide (0x2000000 ≤ a) then r.wrEvent w Code.pantryClosed
  else if r.mode = .aux && !(islandReg b) then r
  else if r.c.img.busy && w ≠ .loader && imgTarget b then r.wrEvent w Code.illegalWrite
  else if 0x2000000 ≤ a then r.pantryStore w (a - 0x2000000) v
  else if 0xC20000 ≤ a ∧ a < 0xC60000 then r.keyWrite w ((a - 0xC20000) / 0x40) (a % 0x40 / 4) v
  else if 0xC10000 ≤ a ∧ a < 0xC10010 then r.wrEvent w Code.tenantBad
  else match regDef b with
    | none => r
    | some d =>
      if 0x11000 ≤ b ∧ b < 0x113FC ∧ evDef ((b - 0x11000) / 4) = none then r
      else
        let old := r.reg b
        r.wrReg w { d := d, a := b, old := old, new := d.written how old v, how := how }

/-- A management write of one port: only aligned full words are carried out (R451). -/
def Run.mgmtWrite (r : Run) (g : MgPort) (a : BitVec 26) (be : BitVec 4) (v : Word) : Run :=
  if r.mode = .off || be = 0 then r
  else
    let r := r.took (.regReq g) 1
    if be = 0xF && a.toNat % 4 = 0 then r.mgmtStore (.port g) a.toNat v.toNat else r.wrEvent (.port g) Code.csrAccess

def execMgmtWrite (g : MgPort) (addr : BitVec 26) (be : BitVec 4) (val : Word) (s : State) :
    Host.Outcome State Fault Refusal := .next (Run.finish s ((Run.start s).mgmtWrite g addr be val))

/-! ## Rows that name one kind of write -/

/-- The write reaches a register of one of these names. -/
def namesReg (names : List String) (a : Nat) : Bool := match regDef (aliasOf a).1 with
  | some d => names.contains d.name
  | none => false

/-- A write that is one of the named registers'; any other write is another row's. -/
def Run.namedWrite (r : Run) (names : List String) (g : MgPort) (a : BitVec 26) (be : BitVec 4) (v : Word) : Run :=
  if namesReg names a.toNat then r.mgmtWrite g a be v else r

def execWindowSegmentWrite (g : MgPort) (addr : BitVec 26) (be : BitVec 4) (val : Word) (s : State) :
    Host.Outcome State Fault Refusal :=
  .next (Run.finish s ((Run.start s).namedWrite ["PCH_WSEGs_DPA", "PCH_WSEGs_SIZE", "PCH_WSEGs_POOL"] g addr be val))

def execRegionEntryWrite (g : MgPort) (addr : BitVec 26) (be : BitVec 4) (val : Word) (s : State) :
    Host.Outcome State Fault Refusal :=
  .next (Run.finish s ((Run.start s).namedWrite ["RGN_ATTR", "RGN_TENANT", "RGN_PLACE"] g addr be val))

def execClassEntryWrite (g : MgPort) (addr : BitVec 26) (be : BitVec 4) (val : Word) (s : State) :
    Host.Outcome State Fault Refusal :=
  .next (Run.finish s ((Run.start s).namedWrite ["TNT_CLS_CTRL", "TNT_CLS_WAYS"] g addr be val))

def execWaydisWrite (g : MgPort) (addr : BitVec 26) (be : BitVec 4) (val : Word) (s : State) :
    Host.Outcome State Fault Refusal :=
  .next (Run.finish s ((Run.start s).namedWrite ["RM_WAYDIS"] g addr be val))

/-- PANTRY_WRITE at offset x of the Pantry window. -/
def execPantryWrite (g : MgPort) (x : BitVec 25) (be : BitVec 4) (val : Word) (s : State) :
    Host.Outcome State Fault Refusal :=
  .next (Run.finish s ((Run.start s).mgmtWrite g (BitVec.ofNat 26 (0x2000000 + x.toNat)) be val))

/-- PANTRY_READ at offset x (R97–R99): `upset` is what the read meets, `some true` an uncorrectable entry, `some false` a
single-bit error, corrected as in a lookup (R85, R92). -/
def Run.pantryRead (r : Run) (g : MgPort) (x : Nat) (upset : Option Bool) : Run :=
  let a := 0x2000000 + x
  if r.mode = .off then r
  else if !r.pantryOpen then ((r.took (.regReq g) 1).wrEvent (.port g) Code.pantryClosed).mgAnswer g a 0
  else
    let r := r.took (.regReq g) 1
    let (n, i) := r.pantryAt (x / 4 * 4)
    if upset = some true then (r.rmEvent (pantryPlace n).1 Code.pantryUe).mgAnswer g a 0xFFFFFFFF
    else
      let (m, way, _) := pantryPlace n
      let r := r.when (upset = some false) fun r => r.tagCes m [fin16 way]
      let b := r.pantryBits n
      r.mgAnswer g a (entWord (b ||| ((Config.secded (b.setWidth 87)).setWidth 96 <<< 87)) i).toNat

/-- PANTRY_READ. -/
def execPantryRead (g : MgPort) (x : BitVec 25) (upset : Option Bool) (s : State) : Host.Outcome State Fault Refusal :=
  .next (Run.finish s ((Run.start s).pantryRead g x.toNat upset))

def keyAddr (t : Fin 4096) (i : Nat) : BitVec 26 := BitVec.ofNat 26 (0xC20000 + t.val * 0x40 + 4 * i)

def execKeyStageWrite (g : MgPort) (tenant : Fin 4096) (word : Fin 15) (val : Word) (s : State) :
    Host.Outcome State Fault Refusal :=
  .next (Run.finish s ((Run.start s).mgmtWrite g (keyAddr tenant word.val) 0xF val))

def execKeyCommit (g : MgPort) (tenant : Fin 4096) (val : Word) (s : State) : Host.Outcome State Fault Refusal :=
  .next (Run.finish s ((Run.start s).mgmtWrite g (keyAddr tenant 15) 0xF val))

end Sys2Proof.Machine
end

