-- ==== Sys2Proof/Machine/MgmtRows.lean ====
section
/-! DEFINITION. The management writes that are commands of their own: a write of the named register whose command bits
stand as the row says. Any other write is not that row's, and leaves the state as it is (log entry 10, DESIGN CHOICE). -/
namespace Sys2Proof.Machine
open Sys2Proof

/-- The word that a write would leave in its register. -/
def Run.wordAfter (r : Run) (a v : Nat) : Nat :=
  let (b, how) := aliasOf a
  match regDef b with
  | some d => d.written how (r.reg b) v
  | none => 0

/-- A write of one of the named registers that leaves a word on which `test` holds. -/
def Run.cmdWrite (r : Run) (name : String) (test : Nat → Bool) (g : MgPort) (a : BitVec 26) (v : Word) : Run :=
  if namesReg [name] a.toNat && test (r.wordAfter a.toNat v.toNat) then r.mgmtWrite g a 0xF v else r

/-- MODE_REQUEST: MOD_REQ with GO = 1 and UNFENCE = 0 (R432). -/
def execModeRequest (g : MgPort) (addr : BitVec 26) (val : Word) (s : State) : Host.Outcome State Fault Refusal :=
  .next (Run.finish s ((Run.start s).cmdWrite "MOD_REQ" (fun w => w.testBit 16 && !(w.testBit 4)) g addr val))

/-- UNFENCE_REQUEST: MOD_REQ with GO = 1 and UNFENCE = 1 (R396). -/
def execUnfenceRequest (g : MgPort) (addr : BitVec 26) (val : Word) (s : State) : Host.Outcome State Fault Refusal :=
  .next (Run.finish s ((Run.start s).cmdWrite "MOD_REQ" (fun w => w.testBit 16 && w.testBit 4) g addr val))

/-- DEV_RESET (R411). -/
def execDevReset (g : MgPort) (addr : BitVec 26) (val : Word) (s : State) : Host.Outcome State Fault Refusal :=
  .next (Run.finish s ((Run.start s).cmdWrite "DEV_CTRL" (fun w => w.testBit 0) g addr val))

/-- IMG_LOAD_GO (R419). -/
def execImgLoadGo (g : MgPort) (addr : BitVec 26) (val : Word) (s : State) : Host.Outcome State Fault Refusal :=
  .next (Run.finish s ((Run.start s).cmdWrite "IMG_CTRL" (fun w => w.testBit 2) g addr val))

/-- SPI_COMMAND (R438). -/
def execSpiCommand (g : MgPort) (addr : BitVec 26) (val : Word) (s : State) : Host.Outcome State Fault Refusal :=
  .next (Run.finish s ((Run.start s).cmdWrite "IMG_SPI_CMD" (fun w => w.testBit 20) g addr val))

/-- SPI_COMMAND_END: a read leaves its bytes in IMG_SPI_BUF. -/
def Run.spiEnd (r : Run) (rd : List Byte) : Run :=
  if !r.c.img.spiBusy then r
  else
    let c := r.reg 0x260
    let put (r : Run) (k : Nat) : Run :=
      let a := 0x300 + k / 4 * 4
      let sh := 8 * (k % 4)
      r.setReg a (mixWord (r.reg a) ((rd.getD k 0).toNat <<< sh) (0xFF <<< sh))
    let r := if c.testBit 19 then r else r.forEach (List.range (bitsOf c 18 10)) fun k r => put r k
    r.modImg fun x => { x with spiBusy := false }

def execSpiCommandEnd (rd : List Byte) (s : State) : Host.Outcome State Fault Refusal :=
  .next (Run.finish s ((Run.start s).spiEnd rd))

/-- SELFTEST_GO (R424). -/
def execSelftestGo (g : MgPort) (addr : BitVec 26) (val : Word) (s : State) : Host.Outcome State Fault Refusal :=
  .next (Run.finish s ((Run.start s).cmdWrite "SCB_SELFTEST" (fun w => w.testBit 0) g addr val))

/-- CLASS_DRAIN_GO (R86). -/
def execClassDrainGo (g : MgPort) (addr : BitVec 26) (val : Word) (s : State) : Host.Outcome State Fault Refusal :=
  .next (Run.finish s ((Run.start s).cmdWrite "CFG_CDRAIN" (fun w => w.testBit 8) g addr val))

/-- FLUSH (R165). -/
def execFlush (g : MgPort) (addr : BitVec 26) (val : Word) (s : State) : Host.Outcome State Fault Refusal :=
  .next (Run.finish s ((Run.start s).cmdWrite "CFG_RJOB" (fun w => w.testBit 20 && bitsOf w 19 18 = 0) g addr val))

/-- RESILVER (R165). -/
def execResilver (g : MgPort) (addr : BitVec 26) (val : Word) (s : State) : Host.Outcome State Fault Refusal :=
  .next (Run.finish s ((Run.start s).cmdWrite "CFG_RJOB" (fun w => w.testBit 20 && bitsOf w 19 18 = 1) g addr val))

/-- REBUILD_GO (R270). -/
def execRebuildGo (g : MgPort) (addr : BitVec 26) (val : Word) (s : State) : Host.Outcome State Fault Refusal :=
  .next (Run.finish s ((Run.start s).cmdWrite "CEL_REBUILD" (fun w => w.testBit 4) g addr val))

/-- TT_FORCE_GO (R219, R221). -/
def execTtForceGo (g : MgPort) (addr : BitVec 26) (val : Word) (s : State) : Host.Outcome State Fault Refusal :=
  .next (Run.finish s ((Run.start s).cmdWrite "TT_FORCE" (fun w => w.testBit 8) g addr val))

/-- MSYNC_GO: PCHp_MSYNC with GO = 1 (R197). -/
def execMsyncGo (g : MgPort) (p : Fin 8) (s : State) : Host.Outcome State Fault Refusal :=
  .next (Run.finish s ((Run.start s).mgmtWrite g (BitVec.ofNat 26 (pchBase p + 0x50C)) 0xF 1))

/-- RETRAIN: DORd_CTRL with RETRAIN = 1 (R288). -/
def execRetrain (g : MgPort) (d : Fin 8) (val : Word) (s : State) : Host.Outcome State Fault Refusal :=
  .next (Run.finish s ((Run.start s).cmdWrite "DOR_CTRL" (fun w => w.testBit 1) g (BitVec.ofNat 26 (dorBase d + 4)) val))

/-- FBX_INJECT (R392). -/
def execFbxInject (g : MgPort) (addr : BitVec 26) (val : Word) (s : State) : Host.Outcome State Fault Refusal :=
  .next (Run.finish s ((Run.start s).cmdWrite "FBX_INJ_CTRL" (fun w => w.testBit 16) g addr val))

/-- RECHECK_GO (R395). -/
def execRecheckGo (g : MgPort) (addr : BitVec 26) (val : Word) (s : State) : Host.Outcome State Fault Refusal :=
  .next (Run.finish s ((Run.start s).cmdWrite "FBX_RECHECK" (fun w => w.testBit 8) g addr val))

/-- REARM (R389). -/
def execRearm (g : MgPort) (addr : BitVec 26) (val : Word) (s : State) : Host.Outcome State Fault Refusal :=
  .next (Run.finish s ((Run.start s).cmdWrite "FBX_FIRST_CTRL" (fun w => w.testBit 1) g addr val))

/-- COMMIT_GO (R469). -/
def execCommitGo (g : MgPort) (addr : BitVec 26) (val : Word) (s : State) : Host.Outcome State Fault Refusal :=
  .next (Run.finish s ((Run.start s).cmdWrite "CFG_COMMIT" (fun w => w.testBit 0) g addr val))

def relAddr (n : Fin 32) : BitVec 26 := BitVec.ofNat 26 (0x20080 + 4 * n.val)

/-- LATCH_RELEASE: LCH_RELn with REL = 1 (R462). -/
def execLatchRelease (g : MgPort) (n : Fin 32) (val : Word) (s : State) : Host.Outcome State Fault Refusal :=
  .next (Run.finish s ((Run.start s).cmdWrite "LCH_REL" (fun w => w.testBit 0) g (relAddr n) val))

/-- LATCH_CLRERR: LCH_RELn with CLRERR = 1 (R462). -/
def execLatchClrerr (g : MgPort) (n : Fin 32) (val : Word) (s : State) : Host.Outcome State Fault Refusal :=
  .next (Run.finish s ((Run.start s).cmdWrite "LCH_REL" (fun w => w.testBit 1) g (relAddr n) val))

/-- METER_SNAP (R365). -/
def execMeterSnap (g : MgPort) (s : State) : Host.Outcome State Fault Refusal :=
  .next (Run.finish s ((Run.start s).mgmtWrite g 0xC00804 0xF 1))

/-- METER_ACK (R366). -/
def execMeterAck (g : MgPort) (seq : Word) (s : State) : Host.Outcome State Fault Refusal :=
  .next (Run.finish s ((Run.start s).mgmtWrite g 0xC00824 0xF seq))

def pmcAddr (m : Fin 64) (k : Fin 8) : BitVec 26 := BitVec.ofNat 26 (rmBase m + 0x640 + 0x20 * k.val)

/-- COUNTER_CLR (R499). -/
def execCounterClr (g : MgPort) (m : Fin 64) (k : Fin 8) (val : Word) (s : State) : Host.Outcome State Fault Refusal :=
  .next (Run.finish s ((Run.start s).cmdWrite "PMC_CTL" (fun w => w.testBit 8) g (pmcAddr m k) val))

/-- COUNTER_LOAD (R499). -/
def execCounterLoad (g : MgPort) (m : Fin 64) (k : Fin 8) (val : Word) (s : State) : Host.Outcome State Fault Refusal :=
  .next (Run.finish s ((Run.start s).cmdWrite "PMC_CTL" (fun w => w.testBit 9) g (pmcAddr m k) val))

/-- PMC_FREEZE_WRITE (R500). -/
def execPmcFreezeWrite (g : MgPort) (addr : BitVec 26) (val : Word) (s : State) : Host.Outcome State Fault Refusal :=
  .next (Run.finish s ((Run.start s).namedWrite ["PMC_FREEZE"] g addr 0xF val))

/-- HISTOGRAM_SNAPSHOT (R504). -/
def execHistogramSnapshot (g : MgPort) (addr : BitVec 26) (val : Word) (s : State) : Host.Outcome State Fault Refusal :=
  .next (Run.finish s ((Run.start s).cmdWrite "PMC_HSNAP" (fun w => w.testBit 0) g addr val))

/-- WIN_LOCK_WRITE (R509). -/
def execWinLockWrite (g : MgPort) (addr : BitVec 26) (val : Word) (s : State) : Host.Outcome State Fault Refusal :=
  .next (Run.finish s ((Run.start s).namedWrite ["WIN_LOCK"] g addr 0xF val))

/-- THM_SEL_WRITE (R492). -/
def execThmSelWrite (g : MgPort) (addr : BitVec 26) (val : Word) (s : State) : Host.Outcome State Fault Refusal :=
  .next (Run.finish s ((Run.start s).namedWrite ["THM_SEL"] g addr 0xF val))

end Sys2Proof.Machine
end

