-- ==== Sys2Proof/Machine/Image.lean ====
section
/-! DEFINITION. The Floorplan image: the boot record, the checks of R418, the loads of R421 and their time-out
(R413–R423). A load's two passes, its compare and its commit take effect when IMAGE_LOAD_END says that they have
ended. -/
namespace Sys2Proof.Machine
open Sys2Proof

/-! ## Fields of byte lists (R413–R415) -/

/-- Byte k; a byte that was not read is 0. -/
def byteAt (bs : List Byte) (k : Nat) : Nat := (bs.getD k 0).toNat
/-- n bytes at offset k, little-endian. -/
def leAt (bs : List Byte) (k n : Nat) : Nat := (List.range n).foldr (fun i acc => acc * 256 + byteAt bs (k + i)) 0
/-- n bytes at offset k, big-endian. -/
def beAt (bs : List Byte) (k n : Nat) : Nat := (List.range n).foldl (fun acc i => acc * 256 + byteAt bs (k + i)) 0
def bytesAt (bs : List Byte) (k n : Nat) : List Byte := (bs.drop k).take n
def zeroAt (bs : List Byte) (k n : Nat) : Bool := (bytesAt bs k n).all (· = 0)

/-! ## The boot record (R413) -/

/-- The copies of a boot record in the order in which they are tried, each with its flash offset; none when the record
is missing. -/
def bootCopies (bs : List Byte) : Option (List (Fin 2 × Nat)) :=
  let c0 := leAt bs 4 4
  let c1 := leAt bs 8 4
  let pref := byteAt bs 12
  let one : List (Fin 2 × Nat) := if c1 = 0xFFFFFFFF then [] else [(1, c1)]
  if bs.length < 32 || leAt bs 0 4 ≠ 0xB007F1A0 || !(zeroAt bs 13 19) || decide (1 < pref) || c0 % 0x10000 ≠ 0 ||
      (c1 ≠ 0xFFFFFFFF && c1 % 0x10000 ≠ 0) then none
  else some (if pref = 0 then (0, c0) :: one else one ++ [(0, c0)])

/-! ## Sections (R415, R416) -/

/-- An entry of the section table. -/
structure Section where
  kind : Nat
  target : Nat
  len : Nat
  off : Nat
deriving DecidableEq, Repr

def sectionAt (bs : List Byte) (n : Nat) : Section :=
  let k := 0x100 + 16 * n
  { kind := byteAt bs k, target := leAt bs (k + 4) 4, len := leAt bs (k + 8) 4, off := leAt bs (k + 12) 4 }

def sectionsOf (bs : List Byte) : List Section := (List.range (leAt bs 14 2)).map (sectionAt bs)

/-- A section may write this word. -/
def targetOk (a : Nat) : Bool := a % 4 = 0 && imgTarget (aliasOf a).1 && imgTarget a

/-- The words that a BLOCK or SPARSE section writes, in order. -/
def Section.writes (x : Section) (bs : List Byte) : List (Nat × Nat) :=
  if x.kind = 1 then (List.range (x.len / 4)).map fun i => (x.target + 4 * i, leAt bs (x.off + 4 * i) 4)
  else if x.kind = 2 then (List.range (x.len / 8)).map fun i => (leAt bs (x.off + 8 * i) 4, leAt bs (x.off + 8 * i + 4) 4)
  else []

/-- The entry obeys R415, and its targets R416. -/
def Section.ok (x : Section) (bs : List Byte) (n count len : Nat) : Bool :=
  zeroAt bs (0x101 + 16 * n) 3 && decide (0x100 + 16 * count ≤ x.off) && decide (x.off + x.len + 96 ≤ len) && x.off % 4 = 0 &&
    (if x.kind = 1 then x.len % 4 = 0 else if x.kind = 2 then x.len % 8 = 0 && x.target = 0
     else x.kind = 3 && decide (x.target < 16) && decide (x.len ≤ 4096)) &&
    (x.writes bs).all fun w => targetOk w.1

/-! ## The checks (R418) -/

/-- The bit that a failed attempt sets. -/
inductive ImgFail | format | nokey | auth | rollback | crc
deriving DecidableEq, Repr

def imageLen (bs : List Byte) : Nat := leAt bs 8 4
/-- The hash of R418 check 4: image bytes 0 to IMAGE_LEN − 97. -/
def imageHash (bs : List Byte) : BitVec 384 := Config.sha384 (bytesAt bs 0 (imageLen bs - 96))

/-- Check 1. -/
def headOk (bs : List Byte) (limit : Nat) : Bool :=
  let n := imageLen bs
  leAt bs 0 4 = 0xF1002A3E && leAt bs 4 2 = 1 && leAt bs 6 2 = 256 && n % 4 = 0 && decide (1024 ≤ n ∧ n ≤ 67108864) &&
    decide (n ≤ limit)

/-- The header's TARGET is one of R414. -/
def targetMode (bs : List Byte) : Nat := byteAt bs 0x19

/-- Check 7. -/
def tableOk (bs : List Byte) : Bool :=
  let n := leAt bs 14 2
  decide (1 ≤ n ∧ n ≤ 256) && (targetMode bs = 2 || targetMode bs = 3 || targetMode bs = 7) &&
    (List.range n).all fun i => (sectionAt bs i).ok bs i n (imageLen bs)

/-- Pass 1: the first check that fails. -/
def Run.imageFails (r : Run) (bs : List Byte) (limit : Nat) : Option ImgFail :=
  let f := r.c.fuses
  let key := bytesAt bs 0x40 96
  let n := imageLen bs
  if !(headOk bs limit) then some .format
  else if f.keyHash = 0 then some .nokey
  else if Config.sha384 key ≠ f.keyHash then some .auth
  else if !(Config.ecdsaOk (BitVec.ofNat 768 (beAt bs 0x40 96)) (imageHash bs) (BitVec.ofNat 768 (beAt bs (n - 96) 96))) then
    some .auth
  else if leAt bs 12 2 < f.minVer.toNat then some .rollback
  else if !(byteAt bs 0x18 = 0xFF || byteAt bs 0x18 = b2n f.grade) ||
      !(leAt bs 0x10 8 = 0 || leAt bs 0x10 8 = f.serial.toNat) then some .auth
  else if !(tableOk bs) then some .format
  else none

/-! ## One attempt (R421) -/

/-- A section is applied: writes of the loader, or the CDAT table of a link. -/
def Run.sectionApply (r : Run) (bs : List Byte) (x : Section) : Run :=
  if x.kind = 3 then r.modLink (fin8 (x.target / 2)) (Fin.boolIdx (decide (x.target % 2 = 1))) fun l => { l with cdat := bytesAt bs x.off x.len }
  else r.forEach (x.writes bs) fun w r => if targetOk w.1 then r.mgmtStore .loader w.1 w.2 else r

def Run.imageClear (r : Run) : Run := r.configClear.cdatClear

def Run.imageFail (r : Run) (f : ImgFail) : Run :=
  (r.modImg fun x => match f with
    | .format => { x with format := true }
    | .nokey => { x with nokey := true }
    | .auth => { x with auth := true }
    | .rollback => { x with rollback := true }
    | .crc => { x with crc := true }).sysEvent 43 Code.imgAuth

/-- Steps 2 to 5: `one` and `two` are what the passes read, and `limit` how many bytes the source holds. The answer
says whether the attempt succeeded. -/
def Run.attempt (r : Run) (one two : List Byte) (limit : Nat) : Run × Bool :=
  match r.imageFails one limit with
  | some f => (r.imageFail f, false)
  | none =>
    let r := r.forEach (sectionsOf one) fun x r => r.sectionApply two x
    if r.c.img.touched || Config.sha384 (bytesAt two 0 (imageLen one - 96)) ≠ imageHash one then (r.imageClear.imageFail .auth, false)
    else
      let r := r.commitStart.commitDone
      if r.c.crc.ref.toNat ≠ leAt one 0x1C 4 then (r.imageClear.imageFail .crc, false) else (r, true)

/-- Step 6, and the end of the load. -/
def Run.imageDone (r : Run) (bs : List Byte) : Run :=
  let r := (r.modImg fun x => { x with busy := false, ok := true, version := BitVec.ofNat 16 (leAt bs 12 2) }).vector 5
  if targetMode bs = 2 then r else r.mgmtStore .loader 0x104 (targetMode bs ||| 0x10000)

/-- The load ends without an image. -/
def Run.imageGone (r : Run) : Run :=
  (r.modImg fun x => { x with busy := false, noflash := !x.src }).vector 5

/-! ## The sources -/

/-- The image bytes that the Pantry holds (R423). -/
def Run.pantryImage (r : Run) : List Byte :=
  let first := r.fld 0x204 28 0 / 12
  let len := min (r.fld 0x208 26 0) (8 * (33554432 - first))
  (List.range len).map fun k => (r.pantryBits (first + k / 8)).extractLsb' (8 * (k % 8)) 8

/-- A load from the Pantry: one attempt. -/
def Run.pantryLoad (r : Run) : Run :=
  let bs := r.pantryImage
  let (r, ok) := r.attempt bs bs bs.length
  if ok then r.imageDone bs else r.imageGone

/-- What IMG_FLASH records (R420, R437); without SFDP the read mode is 0x03 with 3-byte addresses. -/
def flashWord (f : FlashRead) : Word :=
  w32 ((if f.sfdp then f.readCmd.toNat else 1) ||| (b2n (f.sfdp && f.addr4) <<< 3) ||| (b2n f.sfdp <<< 4) |||
    (f.sizeCode.toNat <<< 8))

/-- How many bytes of the flash the loader can read (R420). -/
def flashSize (f : FlashRead) : Nat := min (2 ^ f.sizeCode.toNat) (if f.sfdp then 2 ^ 27 else 2 ^ 24)

/-- The next attempt begins with step 1. -/
def Run.nextAttempt (r : Run) (k : Fin 2) : Run :=
  (r.modImg fun x =>
    { busy := true, src := x.src, startAt := x.startAt, flash := x.flash, spiBusy := x.spiBusy, copy := k = 1 }).imageClear

/-- Try the copies in order, each once. -/
def Run.flashTry (r : Run) (f : FlashRead) : List (Fin 2 × Nat) → Run
  | [] => r.imageGone
  | (k, off) :: rest =>
    let one := f.first.getD k.val []
    let (r, ok) := (r.nextAttempt k).attempt one (f.second.getD k.val []) (min one.length (flashSize f - off))
    if ok then r.imageDone one else r.flashTry f rest

/-- A load from the flash; without a boot record there is nothing to attempt. -/
def Run.flashLoad (r : Run) (f : FlashRead) : Run :=
  let r := r.modImg fun x => { x with flash := if f.found then flashWord f else 0 }
  match if f.found then bootCopies f.boot else none with
  | some cs => r.flashTry f cs
  | none => r.imageGone

/-- IMAGE_LOAD_END. -/
def Run.imageLoadEnd (r : Run) (f : FlashRead) : Run :=
  if !r.c.img.busy then r else if r.c.img.src then r.pantryLoad else r.flashLoad f

def execImageLoadEnd (f : FlashRead) (s : State) : Host.Outcome State Fault Refusal :=
  .next (Run.finish s ((Run.start s).imageLoadEnd f))

/-- IMG_TIMEOUT: the load has run for 30 s, and ends (log entry 59, DESIGN CHOICE). -/
def Run.imgTimeout (r : Run) : Run :=
  if r.c.img.busy && decide (r.c.img.startAt + msec 30000 ≤ r.now) then
    ((r.modImg fun x => { x with timeout := true }).imageClear.sysEvent 43 Code.imgTimeout).imageGone
  else r

def execImgTimeout (s : State) : Host.Outcome State Fault Refusal := .next (Run.finish s (Run.start s).imgTimeout)

end Sys2Proof.Machine
end

