-- ==== Sys2Proof/Machine/Power.lean ====
section
/-! DEFINITION. Supplies, resets, clocks, temperature and Thermostats (R234, R406–R412, R433, R473–R493). -/
namespace Sys2Proof.Machine
open Sys2Proof

/-! ## Resets and supplies (R406–R411, R433) -/

/-- RESET_N low. -/
def Run.resetN (r : Run) : Run := if r.mode = .off then r else r.reset true

def execResetN (s : State) : Host.Outcome State Fault Refusal := .next (Run.finish s (Run.start s).resetN)

/-- PWR_GOOD falls. -/
def Run.pwrGoodLow (r : Run) : Run :=
  if r.mode = .off || !r.c.pwrGood then r
  else
    let r := r.reset false
    { r with c := { r.c with pwrGood := false } }

def execPwrGoodLow (s : State) : Host.Outcome State Fault Refusal := .next (Run.finish s (Run.start s).pwrGoodLow)

/-- PWR_GOOD rises: condition POWER may hold. -/
def Run.pwrGoodRise (r : Run) : Run :=
  if r.mode = .off then r else { r with c := { r.c with pwrGood := true } }

def execPwrGoodRise (s : State) : Host.Outcome State Fault Refusal := .next (Run.finish s (Run.start s).pwrGoodRise)

/-- VAUX_VALID: the island leaves power-on reset with its crystal running; the fuses are read. -/
def Run.vauxValid (r : Run) : Run :=
  if r.mode ≠ .off then r
  else
    let r := { r with c := { r.c with vaux := true, fuses := r.c.cells, clk := { r.c.clk with xtal := true } } }
    r.modeIs .aux

def execVauxValid (s : State) : Host.Outcome State Fault Refusal := .next (Run.finish s (Run.start s).vauxValid)

/-- VAUX_LOSS: everything is lost but the fuses; what has left the House has left it. -/
def Run.vauxLoss (r : Run) : Run :=
  let r := r.reset true
  let r := { r with c :=
    { cells := r.c.cells, free := r.c.free, out := { r.c.out with thermtripN := true }, vaux := false,
      mod := { mode := .off } } }
  r

def execVauxLoss (s : State) : Host.Outcome State Fault Refusal := .next (Run.finish s (Run.start s).vauxLoss)

/-- Rails 1 to 6 are the main rails (R406). -/
def mainRail (rail : Fin 8) : Bool := decide (1 ≤ rail.val ∧ rail.val ≤ 6)

/-- SUPPLY_LOW: the monitor compares from AUX's end on. -/
def Run.supplyLow (r : Run) (rail : Fin 8) : Run :=
  if r.mode = .off || !(mainRail rail) || r.c.railLow.getLsbD rail then r
  else
    let r := { r with c := { r.c with railLow := r.c.railLow ||| (1#8 <<< rail.val) } }
    if r.mode = .aux then r else r.sysEvent 42 Code.supplyLow

def execSupplyLow (rail : Fin 8) (s : State) : Host.Outcome State Fault Refusal :=
  .next (Run.finish s ((Run.start s).supplyLow rail))

/-- SUPPLY_RESTORED. -/
def Run.supplyRestored (r : Run) (rail : Fin 8) : Run :=
  if r.mode = .off then r else { r with c := { r.c with railLow := r.c.railLow &&& ~~~(1#8 <<< rail.val) } }

def execSupplyRestored (rail : Fin 8) (s : State) : Host.Outcome State Fault Refusal :=
  .next (Run.finish s ((Run.start s).supplyRestored rail))

/-! ## Temperature (R481–R484) -/

/-- The readings of the valid sensors, in quarters of a °C. -/
def Thm.readings (t : Thm) : List Nat :=
  (List.finRange 12).filterMap fun k => if t.valid[k] then some t.temps[k].toNat else none

/-- Some sensor reads this many °C or more. -/
def Thm.reaches (t : Thm) (deg : Nat) : Bool := t.readings.any fun x => decide (4 * deg ≤ x)

/-- The table switch that a change of the warning requests (R219, R221). -/
def Run.warnSwitch (r : Run) : Run :=
  let t := r.c.tt
  if t.pend && decide (2 ≤ t.next) then r
  else if r.c.thm.warn && t.cur = 0 then r.ttRequest 1
  else if !r.c.thm.warn && t.cur = 1 then r.ttRequest 0
  else r

/-- The thermal warning asserts or clears (R482). -/
def Run.warnIs (r : Run) (w : Bool) : Run :=
  let r := (r.modThm fun t => { t with warn := w, coolSince := none }).when w fun r => r.sysEvent 41 Code.thermWarn
  (r.vector 7).warnSwitch

/-- Since when every sensor has read the clearing threshold or less. -/
def Run.coolMark (r : Run) (cool : Bool) : Run :=
  r.modThm fun t => { t with coolSince := if !cool then none else if t.coolSince.isSome then t.coolSince else some r.now }

/-- The warning as this sample judges it. -/
def Run.warnSample (r : Run) : Run :=
  let t := r.c.thm
  let warn := r.fld 0x30040 7 0
  let r := r.coolMark (!(t.readings.any fun x => decide (4 * (warn - r.fld 0x30040 19 16) < x)))
  if !t.warn then if t.reaches warn then r.warnIs true else r
  else match r.c.thm.coolSince with
    | some c => if c + msec 1 ≤ r.now then r.warnIs false else r
    | none => r

/-- The trip: three samples in a row (R483). -/
def Run.tripSample (r : Run) : Run :=
  let hot := r.c.thm.reaches (r.fld 0x30040 15 8)
  let level := r.c.thm.reaches (r.fld 0x30040 15 8 - r.fld 0x30040 19 16)
  let r := r.modThm fun t => { t with tripRun := if hot then t.tripRun + 1 else 0, trip := t.trip && level }
  if hot && r.c.thm.tripRun = 3 then (r.modThm fun t => { t with trip := true }).sysEvent 41 Code.thermTrip else r

/-- THERMTRIP: a sensor reads 125 °C; the pin stays low until PWR_GOOD falls (R484). -/
def Run.thermtrip (r : Run) : Run :=
  if r.mode = .off || r.mode = .aux || !(r.c.thm.reaches 125) || !r.c.out.thermtripN then r
  else ((r.modOut fun o => { o with thermtripN := false }).modThm fun t => { t with trip := true }).sysEvent 41 Code.thermTrip

def execThermtrip (s : State) : Host.Outcome State Fault Refusal := .next (Run.finish s (Run.start s).thermtrip)

/-- THERMAL_SAMPLE; the sensors run from LOAD onward. -/
def Run.thermalSample (r : Run) (x : TempSample) : Run :=
  if r.mode = .off || r.mode = .aux then r
  else
    let r := r.modThm fun t =>
      { t with temps := x.temps, valid := x.valid, watts := x.watts, peak := if t.peak < x.watts then x.watts else t.peak }
    r.warnSample.tripSample.thermtrip

def execThermalSample (t : TempSample) (s : State) : Host.Outcome State Fault Refusal :=
  .next (Run.finish s ((Run.start s).thermalSample t))

/-! ## The clock monitor (R485–R487) -/

/-- What a sample, or the last one, says of the six sources of CLK_LOSS. -/
def sampleSix (c : ClockSample) : List Bool := [c.ref100, c.ref156, c.xtal, c.coreLock, c.mgLock, c.auxLock]
def Clk.six (c : Clk) : List Bool := [c.ref100, c.ref156, c.xtal, c.coreLock, c.mgLock, c.auxLock]

/-- The source is monitored in this mode. -/
def Run.monitored (r : Run) (c : ClockSample) (i : Nat) : Bool :=
  if i = 1 then r.mode.fabric || (r.mode = .pantry && r.c.mod.origin = .drain)
  else if i = 2 then c.ref100
  else r.mode ≠ .aux

/-- The sources lost after this window: a loss lasts until the source is back. -/
def Run.lostNow (r : Run) (c : ClockSample) : BitVec 6 :=
  (List.range 6).foldl (fun v i =>
    let was := r.c.clk.six.getD i false
    if !((sampleSix c).getD i false) && (r.c.clk.lost.getLsbD i || (was && r.monitored c i)) then v ||| (1#6 <<< i) else v) 0

/-- The lowest source of a mask, as CLK_LOSS_INFO codes it. -/
def lowestLoss (v : BitVec 6) : BitVec 3 := BitVec.ofNat 3 (((List.range 6).find? fun i => v.getLsbD i).elim 0 (· + 1))

/-- The first loss raises CLK_LOSS. -/
def Run.clkLoss (r : Run) (lost : BitVec 6) : Run :=
  let begins := r.c.clk.lost = 0 && lost ≠ 0
  let first := if r.c.clk.lossFirst = 0 then lowestLoss lost else r.c.clk.lossFirst
  let r := { r with c := { r.c with clk := { r.c.clk with lost := lost, lossFirst := first } } }
  r.when begins fun r => r.sysEvent 40 Code.clkLoss

/-- PORCH_FAIL of a Porch whose PHY loses lock on every lane (R346, R486). -/
def Run.porchLockLost (r : Run) (p : Fin 8) : Run :=
  r.report { code := Code.porchFail, src := 20 + p, cause := 7, mKind := 1, mId := p }

/-- Bits that fall. -/
def fallen {n : Nat} (old new : BitVec n) (i : Nat) : Bool := old.getLsbD i && !(new.getLsbD i)

/-- CLOCK_MONITOR_WINDOW. -/
def Run.clockWindow (r : Run) (c : ClockSample) : Run :=
  if r.mode = .off then r
  else
    let old := r.c.clk
    let r := r.clkLoss (r.lostNow c)
    let r := { r with c := { r.c with clk :=
      { r.c.clk with ref100 := c.ref100, ref156 := c.ref156, xtal := c.xtal, coreLock := c.coreLock, mgLock := c.mgLock,
                     auxLock := c.auxLock, porchLock := c.porchLock, chLock := c.chLock, doorLock := c.doorLock } } }
    let on := r.mode ≠ .aux && r.mode ≠ .load
    let r := r.forEach (allPorches.filter fun (p : Fin 8) => on && fallen old.porchLock c.porchLock p) fun p r => r.porchLockLost p
    let r := r.forEach (allChans.filter fun (x : Fin 16) => on && fallen old.chLock c.chLock x && (r.chan x).trained) fun x r => r.chFail x 4
    r.forEach (allPorches.filter fun (d : Fin 8) => on && fallen old.doorLock c.doorLock d && (r.door d).trained) fun d r => r.doorFail d

def execClockMonitorWindow (c : ClockSample) (s : State) : Host.Outcome State Fault Refusal :=
  .next (Run.finish s ((Run.start s).clockWindow c))

/-! ## Thermostats (R234, R473–R478) -/

/-- The unit to which a code of a calendar belongs (R211). -/
def codeUnit (k code : Nat) : UnitNo :=
  if k < 64 then if code < 0x48 then 88 + (code - 0x40) else if code < 0x50 then 80 + (code - 0x48) else k
  else if k < 72 then 88 + (k - 64)
  else if k < 136 then k - 72
  else if k < 152 then 64 + (k - 136)
  else if k < 160 then 80 + (k - 152)
  else if k < 176 then if 0x80 ≤ code ∧ code < 0xC0 then code - 0x80 else 64 + (k - 160)
  else if k < 184 then 80 + (k - 176)
  else 88 + (k - 184)

/-- A code is inert: its unit is fenced or unused, or it is the walker of a Room that has no walker job (R475). -/
def Run.inert (r : Run) (k code : Nat) : Bool :=
  let u := codeUnit k code
  r.fenced u || !(r.unitUsed u) || (decide (k < 64) && code = walkerCode && (r.room (fin64 k)).jobs.isEmpty)

/-- Calendar k's record in slot n names a live code that `f` accepts. -/
def Run.liveIn (r : Run) (k n : Nat) (f : Nat → Bool) : Bool := match r.record r.c.tt.cur k n with
  | some (w, _) => (recCodes w).any fun c => f c && !(r.inert k c)
  | none => false

/-- Calendars of the stops to which a code of an injection calendar sends (R211). -/
def codeDests (k code : Nat) : List Nat :=
  let porches := (List.range 8).map (· + 64)
  let rooms := (List.range 64).map (· + 72)
  let chans := (List.range 16).map (· + 136)
  let doors := (List.range 8).map (· + 152)
  if k < 72 then rooms
  else if code = 0x56 || code = 0x59 then porches
  else if code = 0x57 then chans
  else if code = 0x58 || code = 0x5B then doors
  else if code = 0x5A || code = 0x55 then rooms
  else if code = 0x5C then (if k < 136 then chans ++ doors else if k < 152 then doors else chans)
  else []

/-- The injection calendars whose transfers the running table can route through Hallway stop s (R474). -/
def Run.stopCals (r : Run) (s : Nat) : List Nat :=
  ((List.range 96).map (· + 64)).filter fun k =>
    (List.range (64 <<< bitsOf (r.mapEntry r.c.tt.cur k) 22 20)).any fun n => match r.record r.c.tt.cur k n with
      | some (w, _) => (recCodes w).any fun c => (codeDests k c).any fun j => (pathStops k j).contains s
      | none => false

/-- Slot n is live for a domain (R474, R475). -/
def Run.domLive (r : Run) (dom n : Nat) : Bool :=
  let all (_ : Nat) : Bool := true
  if dom < 64 then r.liveIn dom n all || r.liveIn (72 + dom) n all || (List.range 16).any fun c => r.liveIn (160 + c) n fun x => x = 0x80 + dom
  else if dom < 72 then r.liveIn dom n all || r.liveIn (120 + dom) n all || (List.range 64).any fun m => r.liveIn m n fun x => x = dom - 64 + 0x40
  else if dom < 88 then r.liveIn (88 + dom) n all || r.liveIn (64 + dom) n all
  else if dom < 96 then
    r.liveIn (88 + dom) n all || r.liveIn (64 + dom) n all || (List.range 64).any fun m => r.liveIn m n fun x => x = dom - 88 + 0x48
  else (r.stopCals (dom - 96)).any fun k => r.liveIn k n all

/-- The first of the next 4,096 slots that `f` accepts, as a distance in cc; 0xFFFF when none does (R475). -/
def Run.slotDist (r : Run) (f : Nat → Bool) : Nat :=
  match (List.range 4096).find? fun j => f ((r.c.tt.slot.toNat + j + 1) % 4096) with
  | some j => j + 1
  | none => 0xFFFF

/-- The distance to the next live slot. -/
def Run.domDist (r : Run) (dom : Nat) : Nat := r.slotDist fun n => r.domLive dom n

/-- The distance to the next timer: a channel's refresh or maintenance record, a Door's BEACON (R474). -/
def Run.timerDist (r : Run) (dom : Nat) : Nat :=
  if 72 ≤ dom ∧ dom < 88 then r.slotDist fun n => match r.record r.c.tt.cur (88 + dom) n with
    | some (_, w2) => bitsOf w2 1 0 = 1 || bitsOf w2 1 0 = 2
    | none => false
  else if 88 ≤ dom ∧ dom < 96 then
    let d := fin8 (dom - 88)
    let due := (r.door d).beaconAt + (if r.mode = .join then usec 10 else usec 100)
    if r.doorLinks d then min 0xFFFF ((due - r.now) / r.c.ccLen) else 0xFFFF
  else 0xFFFF

/-- Entry and wake costs in cc (R473). -/
def Ctl.entryCc (c : Ctl) : Pwr → Nat
  | .awake => 0
  | .doze => 1
  | .nap => if c.fuses.grade then 40 else 50
  | .sleep => if c.fuses.grade then 1000 else 1250
def Ctl.wakeCost (c : Ctl) : Pwr → Nat
  | .awake => 0
  | .doze => 2
  | .nap => if c.fuses.grade then 200 else 250
  | .sleep => if c.fuses.grade then 5000 else 6250

/-- THM_DEEP's field for the domain's kind; a Door has none, and its frame slots keep it Awake while it is up. -/
def Run.deepest (r : Run) (dom : Nat) : Nat :=
  if dom < 64 then r.fld 0x3004C 1 0 else if dom < 72 then r.fld 0x3004C 3 2 else if dom < 88 then r.fld 0x3004C 5 4
  else if dom < 96 then 2 else r.fld 0x3004C 7 6

/-- R27 marks the domain as off. -/
def Run.domOff (r : Run) (dom : Nat) : Bool :=
  let m := r.mode
  m = .off || m = .aux ||
    (m = .load && decide (64 ≤ dom ∧ dom < 96)) || (m = .fill && decide (88 ≤ dom ∧ dom < 96))

/-- While the Timetable does not run, R27 gives the domain work (R477; log entry 61, DEDUCED). -/
def Run.domWorks (r : Run) (dom : Nat) : Bool :=
  !(r.domOff dom) && match r.mode with
    | .pantry => decide (dom < 72) || decide (96 ≤ dom)
    | .safe => decide (64 ≤ dom ∧ dom < 72) || decide (88 ≤ dom ∧ dom < 96)
    | _ => true

/-- An item is in an engine of the domain between commands: a read that a channel has issued, or a transfer on its way
through a Hallway stop (R476; log entry 61, DEDUCED). -/
def Run.domBusy (r : Run) (dom : Nat) : Bool :=
  (decide (72 ≤ dom ∧ dom < 88) && !((r.chan (fin16 (dom - 72))).flight.isEmpty)) ||
    (decide (96 ≤ dom) && r.c.fly.any fun f => (pathStops f.k f.dst).contains (dom - 96))

/-- A re-check wakes its unit (R477). -/
def Run.domChecked (r : Run) (dom : Nat) : Bool :=
  r.c.fbx.reBusy && dom = (if r.c.fbx.reUnit < 64 then r.c.fbx.reUnit else if r.c.fbx.reUnit < 88 then r.c.fbx.reUnit + 8
    else r.c.fbx.reUnit - 24)

/-- All codes of the domain are inert. -/
def Run.domInert (r : Run) (dom : Nat) : Bool :=
  !(r.domChecked dom) && !((List.range 4096).any fun n => r.domLive dom n)

/-- The deepest state that the rule of R476 allows at distance d. -/
def Run.restState (r : Run) (dom d : Nat) : Pwr :=
  let guard := r.fld 0x30048 7 0
  let ok (s : Pwr) (n : Nat) : Bool := decide (n ≤ r.deepest dom) && decide (r.c.entryCc s + r.c.wakeCost s + guard ≤ d)
  if ok .nap 2 then .nap else if ok .doze 1 then .doze else .awake

/-- The state that the Thermostat of a domain wants in this cc. -/
def Run.pwrTarget (r : Run) (dom : Nat) : Pwr :=
  if !r.c.tt.run then if r.domWorks dom then .awake else .sleep
  else if r.domOff dom || r.domInert dom then .sleep
  else if r.domBusy dom || r.c.tt.pend || r.domChecked dom then .awake
  else r.restState dom (min (r.domDist dom) (r.timerDist dom))

def Pwr.depth : Pwr → Nat
  | .awake => 0 | .doze => 1 | .nap => 2 | .sleep => 3

/-- A domain in state s must begin its wake: what it sleeps for has ended, THM_DEEP forbids s, or the next live slot or
timer is only the wake and the guard away. -/
def Run.wakeDue (r : Run) (dom : Nat) (s : Pwr) : Bool :=
  if s = .sleep then r.pwrTarget dom ≠ .sleep
  else !r.c.tt.run || r.domBusy dom || r.c.tt.pend || r.domChecked dom || decide (r.deepest dom < s.depth) ||
    decide (min (r.domDist dom) (r.timerDist dom) ≤ r.c.wakeCost s + r.fld 0x30048 7 0)

def Run.setPwr (r : Run) (dom : Fin 160) (s : Pwr) (wake : Option Nat) : Run :=
  r.modThm fun t => { t with pwr := t.pwr.set dom.val s dom.isLt, wakeCc := t.wakeCc.set dom.val wake dom.isLt }

/-- The number of a kind's domain (R474); a kind has `count` of them. -/
def domOf (kind : DomKind) (n : Fin 64) : Fin 160 :=
  ⟨kind.base + n.val % kind.count, by cases kind <;> simp only [DomKind.base, DomKind.count] <;> omega⟩

/-- THERMOSTAT_WAKE: the domain enters a power state, or begins its wake. -/
def Run.thermostat (r : Run) (dom : Fin 160) : Run :=
  let s := r.c.thm.pwr[dom]
  let t := r.pwrTarget dom
  if (r.c.thm.wakeCc[dom]).isSome then r
  else if s = .awake then r.setPwr dom t none
  else if t = .sleep then r.setPwr dom .sleep none
  else if r.wakeDue dom s then r.setPwr dom s (some (r.c.cc + r.c.wakeCost s))
  else if s.depth < t.depth then r.setPwr dom t none
  else r

def execThermostatWake (kind : DomKind) (n : Fin 64) (s : State) : Host.Outcome State Fault Refusal :=
  .next (Run.finish s ((Run.start s).thermostat (domOf kind n)))

/-- Wakes that end in this cc. -/
def Run.wakesEnd (r : Run) : Run :=
  r.forEach (List.finRange 160) fun d r => match r.c.thm.wakeCc[d] with
    | some c => if c ≤ r.c.cc then r.setPwr d .awake none else r
    | none => r

end Sys2Proof.Machine
end

