-- ==== Sys2Proof/Machine/Jtag.lean ====
section
/-! DEFINITION. The JTAG port: IDCODE, the instructions that take the balls, and FUSEPROG (R417, R437, R509, R546, R547). -/
namespace Sys2Proof.Machine
open Sys2Proof

def Run.jtagIs (r : Run) (j : Jtag) : Run := { r with c := { r.c with jtag := j } }

/-- What leaves on TDO or on an SMBus. -/
def Run.side (r : Run) (bs : List Byte) : Run := r.modOut fun o => { o with side := o.side ++ [bs] }


/-- The IDCODE register. -/
def Run.idcodeWord (r : Run) : Nat := (bitsOf r.c.fuses.step.toNat 3 0 <<< 28) ||| (0x6480 <<< 12) ||| (0x5AD <<< 1) ||| 1

/-- IDCODE: the identity leaves on TDO, and the balls are their blocks' again. -/
def execIdcode (s : State) : Host.Outcome State Fault Refusal :=
  .next (Run.finish s (((Run.start s).jtagIs .none).side (leBytes 4 (Run.start s).idcodeWord)))

/-- EXTEST, INTEST and CLAMP take every ball away from its block at once: host and management links drop and Door links
fail. What DRAM loses without refresh shows in what its later reads return. -/
def Run.ballsTaken (r : Run) (j : Jtag) : Run :=
  let r := r.jtagIs j
  let r := r.forEach allPorches fun p r => r.forEach allLinks fun k r => r.linkDown p k
  let r := r.forEach (allPorches.filter fun d => (r.door d).trained) fun d r =>
    (r.modDoor d fun x => { x with up := false, trained := false, quick := false }).doorFail d
  (r.mgLinkDown .a).mgLinkDown .b

def execExtest (s : State) : Host.Outcome State Fault Refusal := .next (Run.finish s ((Run.start s).ballsTaken .extest))
def execIntest (s : State) : Host.Outcome State Fault Refusal := .next (Run.finish s ((Run.start s).ballsTaken .intest))
def execClamp (s : State) : Host.Outcome State Fault Refusal := .next (Run.finish s ((Run.start s).ballsTaken .clamp))

/-- What FUSEPROG makes of the fuses in the field; the fields that Aeltu programs stay as they are. -/
def Fuses.program (f : Fuses) : FuseOp → Fuses
  | .keyHash v => if f.keyHash = 0 then { f with keyHash := v } else f
  | .minVer v => { f with minVer := f.minVer ||| v }
  | .winDis => { f with winDis := true }
  | .winDoff => { f with winDoff := true }
  | .serial _ | .grade _ | .step _ | .avs _ => f

/-- Fuses can be programmed now. -/
def Run.fuseReady (r : Run) (vpgm : Bool) : Bool :=
  vpgm && r.c.pwrGood && r.c.railLow = 0 && r.mode = .load && !r.c.img.busy

/-- FUSEPROG. The values are read at the next reset. -/
def Run.fuseprog (r : Run) (op : FuseOp) (vpgm : Bool) : Run :=
  let r := r.jtagIs .none
  if r.fuseReady vpgm then { r with c := { r.c with cells := r.c.cells.program op } } else r

def execFuseprog (op : FuseOp) (vpgm : Bool) (s : State) : Host.Outcome State Fault Refusal :=
  .next (Run.finish s ((Run.start s).fuseprog op vpgm))

end Sys2Proof.Machine
end

