-- ==== Sys2Proof/Machine/Flags.lean ====
section
/-! DEFINITION. The status, count and flag bits of every register, as functions of the state, and what a management read
returns and does (R38–R39, R100, R135, R175, R205, R237, R282, R325, R349, R370–R371, R387–R390, R402–R404, R437, R444,
R450–R452, R455, R457, R458, R471, R472, R492, R498, R510–R512). No row of the table reads (log entry 11, DESIGN CHOICE). -/
namespace Sys2Proof.Machine
open Sys2Proof

/-- Bit i of the word for each i below 32 on which f holds. -/
def bitWord (f : Nat → Bool) : Nat := (List.range 32).foldl (fun v i => if f i then v ||| (1 <<< i) else v) 0

/-- A signed number in 16 bits, saturating. -/
def sat16 (v : Int) : Nat := (BitVec.ofInt 16 (max (-32768) (min 32767 v))).toNat

/-! ## Global block (R437, R471, R512 and the CFG registers) -/

def Run.modStatus (r : Run) : Nat :=
  let m := r.c.mod
  packWord [(0, b2n m.pend), (1, b2n r.drained), (4, if m.pend then m.target.code else 0), (8, m.prev.code),
    (12, m.origin.code), (16, m.wait), (24, m.why)]

def Run.imgStatus (r : Run) : Nat :=
  let x := r.c.img
  packWord [(0, b2n x.busy), (1, b2n x.ok), (2, b2n x.auth), (3, b2n x.format), (4, b2n x.crc), (5, b2n x.timeout),
    (6, b2n x.nokey), (7, b2n x.rollback), (8, b2n x.noflash), (9, b2n x.src), (10, b2n x.copy), (16, x.version.toNat)]

/-- Some held bin of Porch p has OVF. -/
def Run.histOvf (r : Run) (p : Fin 8) : Bool :=
  (List.range 32).any fun i => (mget 0 r.m.hist (histKey p (!(r.porch p).histBank) i)).getLsbD 48

/-- Some counter of Room m has OVF. -/
def Run.pmcOvf (r : Run) (m : Nat) : Bool := (List.range 9).any fun k => (mget 0 r.m.pmc (m * 9 + k)).getLsbD 48

def Run.crcStatus (r : Run) : Nat :=
  packWord [(0, b2n r.c.crc.dirty), (1, b2n r.c.crc.mismatch), (2, b2n (r.mode ≠ .off && r.mode ≠ .aux)),
    (16, r.fld 0xE0C 31 16)]

def Run.viewDev (r : Run) (g : MgPort) (name : String) (k : Nat) : Option Nat := match name with
  | "DEV_ID" => some (packWord [(0, 0x6480), (16, b2n r.c.fuses.grade), (24, r.c.fuses.step.toNat)])
  | "DEV_SERIAL_LO" => some (r.c.fuses.serial.toNat % 2 ^ 32)
  | "DEV_SERIAL_HI" => some (r.c.fuses.serial.toNat / 2 ^ 32)
  | "DEV_AVS" => some r.c.fuses.avs.toNat
  | "DEV_WHOAMI" => some (b2n (g = .b))
  | "DEV_MG_STATUS" => some (packWord [(0, b2n r.c.mgA.up), (1, r.c.mgA.speed.toNat), (4, b2n r.c.mgB.up), (5, r.c.mgB.speed.toNat)])
  | "DEV_IRQ_CAUSE" => some (r.mg g).cause.toNat
  | "MOD_STATE" => some r.mode.code
  | "MOD_STATUS" => some r.modStatus
  | "MOD_LAST_FT_LO" => some (r.c.mod.lastFt % 2 ^ 32)
  | "IMG_STATUS" => some r.imgStatus
  | "IMG_MINVER" => some r.c.fuses.minVer.toNat
  | "IMG_FLASH" => some r.c.img.flash.toNat
  | "IMG_KEYHASH" => some (bitsOf r.c.fuses.keyHash.toNat (32 * k + 31) (32 * k))
  | "IMG_SPI_CMD" => some (b2n r.c.img.spiBusy <<< 21)
  | "CFG_HOME_FRAMES" => some r.homeFrames
  | "CFG_NEAR_BASE" => some r.nearBase
  | "CFG_CDRAIN" => some (packWord [(16, b2n r.c.cdrainBusy), (17, b2n r.c.cdrainDone)])
  | "CFG_CSWEEP" => some (b2n r.c.csweepBusy)
  | "CFG_RJOB" => some (packWord [(24, b2n r.c.rjob.busy), (25, b2n r.c.rjob.done)])
  | "TT_STATUS" => some (packWord [(0, r.c.tt.cur), (7, b2n r.c.tt.run), (8, r.c.tt.next), (15, b2n r.c.tt.pend),
      (16, r.c.tt.slot.toNat / 512)])
  | "TT_SLOT" => some r.c.tt.slot.toNat
  | "TT_LAST_SW" => some (packWord [(0, r.c.tt.lastFrom), (8, r.c.tt.lastTo)])
  | "TT_LAST_FT_LO" => some (r.c.tt.lastFt % 2 ^ 32)
  | "TT_CHECK" => some r.c.tt.check.toNat
  | "CFG_CRC_LIVE" => some r.c.crc.live.toNat
  | "CFG_CRC_REF" => some r.c.crc.ref.toNat
  | "CFG_COMMIT" => some (packWord [(16, b2n r.c.crc.busy), (17, b2n r.c.crc.done)])
  | "CFG_CRC_STATUS" => some r.crcStatus
  | "CFG_CRC_WORDS" => some crcWords
  | "PMC_HSNAP" => some (packWord [(8, bitWord fun p => decide (p < 8) && r.histOvf (fin8 p)), (16, r.c.hsnapSeq.toNat)])
  | "PMC_OVF_LO" => some (bitWord fun m => r.pmcOvf m)
  | "PMC_OVF_HI" => some (bitWord fun m => r.pmcOvf (m + 32))
  | _ => none

/-! ## Fuse box and Wings (R387–R390, R402–R404) -/

def LogRec.word0 (x : LogRec) : Nat :=
  packWord [(0, x.ev.code), (8, x.ev.src), (14, x.ev.sub), (18, x.sev), (20, b2n x.ev.inj), (21, b2n x.defer), (22, b2n x.esc),
    (23, b2n x.sec), (24, x.ev.cause)]
def LogRec.word1 (x : LogRec) : Nat := packWord [(0, x.ev.mKind), (3, x.ev.mId), (9, x.ev.access)]
def LogRec.addrLo (x : LogRec) : Nat := (x.ev.addr.elim 0 BitVec.toNat) % 2 ^ 32
def LogRec.addrHi (x : LogRec) : Nat := (x.ev.addr.elim 0 BitVec.toNat) / 2 ^ 32 ||| (b2n x.ev.addr.isSome <<< 16)

/-- Word i of a record (R403). -/
def LogRec.word (x : LogRec) (i : Nat) : Nat :=
  if i = 0 then x.word0 else if i = 1 then x.word1 else if i = 2 then x.addrLo else if i = 3 then x.addrHi
  else if i = 4 then x.ev.stamp % 2 ^ 32 else if i = 5 then x.ev.stamp / 2 ^ 32 % 2 ^ 32 else if i = 6 then x.seqNo else x.ev.key

/-- Bits [31:0] of the status: bits 0 to 3 read the OR of the Wing's error sources (R387, R388). -/
def Run.statusLo (r : Run) : Nat :=
  let f := r.c.fbx
  (f.status.toNat % 2 ^ 32) / 16 * 16 ||| ((List.range 4).foldl (fun v w => if f.wgErr.toList.getD w 0 ≠ 0 then v ||| (1 <<< w) else v) 0)
/-- Sources 32 to 50 as FBX_STATUS_HI shows them: Doors 4 to 7, then 36 to 50. -/
def Run.statusHi (r : Run) : Nat := r.c.fbx.status.toNat / 2 ^ 32

def Run.viewFbx (r : Run) (name : String) (k : Nat) : Option Nat :=
  let f := r.c.fbx
  let first (get : LogRec → Nat) : Option Nat := some (f.first.elim 0 get)
  match name with
  | "FBX_STATUS_LO" => some r.statusLo
  | "FBX_MAXSEV" => some (packWord [(0, f.maxSev.toNat), (2, b2n f.anySev)])
  | "FBX_SELF" => some (packWord [(0, b2n f.selfFault), (1, f.selfArea.toNat)])
  | "FBX_SHADOW_STATE" => some (b2n (f.shadows.any fun s => decide (s.start ≤ r.ftNs ∧ r.ftNs < s.stop)))
  | "FBX_FIRST_INFO" => first LogRec.word0
  | "FBX_FIRST_MASTER" => first LogRec.word1
  | "FBX_FIRST_ADDR_LO" => first LogRec.addrLo
  | "FBX_FIRST_ADDR_HI" => first LogRec.addrHi
  | "FBX_FIRST_FT_LO" => first fun x => x.ev.stamp % 2 ^ 32
  | "FBX_FIRST_CTRL" => some (b2n f.first.isSome)
  | "FBX_LOG_PTR" => some f.logPtr
  | "FBX_LOG_TOTAL" => some f.logTotal
  | "FBX_CNT_USED" => some f.cnt.length
  | "FBX_FENCED0" => some (f.fenced.toNat % 2 ^ 32)
  | "FBX_FENCED1" => some (f.fenced.toNat / 2 ^ 32 % 2 ^ 32)
  | "FBX_FENCED2" => some (f.fenced.toNat / 2 ^ 64)
  | "FBX_FENCE_CUR" => some (packWord [(0, f.cur.getD 0), (7, b2n f.cur.isSome), (8, f.phase.toNat)])
  | "FBX_RECHECK" => some (packWord [(16, b2n f.reBusy), (17, b2n f.rePass), (18, b2n f.reFail)])
  | "FBX_LOG" => some ((f.log.toList.getD (k / 8) none).elim 0 fun x => x.word (k % 8))
  | "WG_ERRSRC" => some (f.wgErr.toList.getD k 0).toNat
  | "WG_FENCED" => some (bitsOf f.fenced.toNat (16 * k + 15) (16 * k))
  | _ => none

/-! ## Latch, thermostats and clocks, time, scrubber, Window (R205, R282, R325, R439, R472, R492, R512) -/

/-- Bit n: the Latch n of the vector has property f. -/
def Run.latchBits (r : Run) (f : Latch → Bool) : Nat := bitWord fun n => (r.c.lch.l.toList[n]?).any f

/-- Sensor k's word, and the hottest sensor (the lowest number of equals). -/
def Thm.word (t : Thm) (k : Nat) : Nat :=
  packWord [(0, (t.temps.toList.getD k 0).toNat), (15, b2n (t.valid.toList.getD k false))]
def Thm.hottest (t : Thm) : Nat × Nat :=
  (List.range 12).foldl (fun (b : Nat × Nat) k =>
    let x := if t.valid.toList.getD k false then (t.temps.toList.getD k 0).toNat else 0
    if b.1 < x then (x, k) else b) (0, 0)

def Run.timStatus (r : Run) : Nat :=
  let t := r.c.time
  packWord [(0, b2n t.locked), (1, b2n t.holdover), (2, b2n (r.actingMaster = some r.myId)),
    (3, r.upstream.elim 0 fun d => d.val), (6, b2n r.upstream.isSome), (16, sat16 t.offset)]

def Run.scbSelftest (r : Run) : Nat :=
  let x := r.c.selft
  packWord [(1, b2n x.busy), (2, b2n x.done), (3, b2n (x.done && !x.failed)), (4, b2n x.codeFail),
    (5, b2n x.crcFail), (6, b2n x.bistFail), (16, x.pat), (22, x.ch)]

/-- The pins of the Window are driven (R505, R509). -/
def Run.winDrive (r : Run) : Bool := r.mode = .window && r.windowOn

def Run.viewIsland (r : Run) (g : MgPort) (name : String) (k : Nat) : Option Nat :=
  let t := r.c.thm
  match name with
  | "LCH_TAKE" => some ((r.c.lch.l.toList[k]?).elim 0 fun x => x.word g)
  | "LCH_OWN_A" => some (r.latchBits fun x => x.owner = some .a)
  | "LCH_OWN_B" => some (r.latchBits fun x => x.owner = some .b)
  | "LCH_ERR" => some (r.latchBits fun x => x.err)
  | "LCH_TIE" => some (packWord [(0, b2n r.c.lch.tieNext), (1, b2n r.c.lch.tieFirst)])
  | "THM_TEMP" => some (t.word k)
  | "THM_HOT" => some (packWord [(0, t.hottest.1), (16, t.hottest.2)])
  | "THM_STATUS" => some (packWord [(0, b2n t.warn), (1, b2n t.trip), (2, b2n (!r.c.out.thermtripN))])
  | "THM_PWR" => some (packWord [(0, t.watts.toNat), (16, t.peak.toNat)])
  | "THM_STATE" =>
    let d := r.fld 0x30060 7 0
    some (packWord [(0, (t.pwr.toList.getD d .awake).depth), (16, if r.c.tt.run then r.domDist d else 0)])
  | "THM_RES_LO" => some ((t.res.toList.getD k 0).toNat % 2 ^ 32)
  | "CLK_STATUS" => some (packWord ((List.range 6).map fun i => (i, b2n (r.c.clk.six.getD i false))))
  | "CLK_LOCK" => some (packWord [(0, r.c.clk.porchLock.toNat), (8, r.c.clk.chLock.toNat), (24, r.c.clk.doorLock.toNat)])
  | "CLK_LOSS_INFO" => some r.c.clk.lossFirst.toNat
  | "CLK_AUX_TICK_LO" => some (r.auxTick % 2 ^ 32)
  | "TIM_FT_LO" => some (r.timFt % 2 ^ 32)
  | "TIM_STATUS" => some r.timStatus
  | "TIM_DELAY" => some (min 0xFFFF r.c.time.delay)
  | "TIM_RATE" => some (BitVec.ofInt 32 r.c.time.rate).toNat
  | "SCB_SELFTEST" => some r.scbSelftest
  | "SCB_LAP_LAST" => some r.c.scrubLast
  | "SCB_LAP_NOW" => some ((r.now - r.c.scrubStart) / msec 1)
  | "WIN_STATUS" => some (packWord [(0, b2n r.c.fuses.winDis), (1, b2n r.c.fuses.winDoff), (2, b2n (r.bit 0x50008 0)),
      (3, b2n r.winDrive), (4, b2n r.windowOn)])
  | _ => none

/-! ## Rooms (R100, R135, R175, R205, R282, R371, R510) -/

/-- A job of this kind is active in the Room. -/
def Room.has (y : Room) (f : JobKind → Bool) : Bool := y.jobs.any fun j => f j.kind

/-- Room m serves adopted blocks: those of a fenced Room that it covers, or of a Mirror region whose home is dead and
whose twin this House is (R169, R172). -/
def Run.adopts (r : Run) (m : Fin 64) : Bool :=
  (allRooms.any fun x => x ≠ m && r.serving x = m) ||
    r.m.frames.any fun x =>
      let w := x.2.toNat
      w.testBit 31 && w.testBit 25 && w.testBit 24 && r.dead (BitVec.ofNat 6 (bitsOf w 17 12))

def Run.viewRoom (r : Run) (m : Fin 64) (name : String) (k : Nat) : Option Nat :=
  let y := r.room m
  let pmc (n : Nat) : Nat := (mget 0 r.m.pmc (m.val * 9 + n)).toNat
  match name with
  | "RM_STATUS" => some (packWord [(0, b2n (!y.jobs.isEmpty)), (1, b2n y.closed), (2, b2n (y.has (· = .staleSweep))), (3, b2n (y.has JobKind.isDrain))])
  | "RM_MISS_BUSY" => some y.trks.length
  | "RM_WAIT_FREE" => some (512 - y.waiters.length)
  | "RM_WAYWALK" => some y.wayWalk.toNat
  | "RM_WB_USED" => some y.wbuf.length
  | "MUD_USED" => some y.mud.length
  | "RM_COH_BUSY" => some y.cohs.length
  | "RM_COH_STATUS" => some (packWord [(0, b2n (r.adopts m)), (1, b2n (y.has (· = .handback))),
      (2, b2n (y.has fun j => match j with | .purge _ => true | _ => false)),
      (3, b2n (y.has JobKind.isFlush || (r.c.rjob.busy && r.c.rjob.resilver)))])
  | "RM_RSV_USED" => some y.rsvs.length
  | "RM_SWEEP_LEFT" => some (r.sweepLeft m)
  | "RM_TRIM_SET" => some (packWord [(0, y.trimSet), (15, b2n y.trimWork)])
  | "PMC_CYCLE_LO" => some (pmc 8 % 2 ^ 32)
  | "PMC_CNT_LO" => some (pmc k % 2 ^ 32)
  | _ => none

/-! ## Porches, channels, Doors and routing (R205, R282, R325, R349, R511) -/

/-- Identifiers with admitted requests not yet completed. -/
def Porch.activeIds (x : Porch) : Nat :=
  (((x.store.filter Ent.open').map fun e => e.item.oid) ++
    (x.landSent.filter fun d => !d.done).map fun d => d.item.oid).dedup.length

def Run.viewPorch (r : Run) (p : Fin 8) (name : String) (k : Nat) : Option Nat :=
  let x := r.porch p
  match name with
  | "PCH_LINK_STATUS" =>
    let l := x.links[Fin.boolIdx (k = 1)]
    some (packWord [(0, l.speed.toNat), (4, l.width.toNat), (9, b2n l.up), (10, b2n l.biEn), (11, b2n l.ide)])
  | "PCH_STORE_USED" => some x.store.length
  | "LND_USED" => some x.lands.length
  | "PCH_ORD_STATUS" => some x.activeIds
  | "PCH_MSYNC" => some (packWord [(16, b2n x.msyncBusy), (17, b2n x.msyncDone)])
  | "PCH_HIST_BIN_LO" => some ((mget 0 r.m.hist (histKey p (!x.histBank) k)).toNat % 2 ^ 32)
  | _ => none

/-- FILL has written every line of the channels in use. -/
def Run.fillOver (r : Run) : Bool :=
  (r.mode = .fill || r.mode.fabric || (r.mode = .pantry && r.c.mod.origin = .drain)) && r.fillLeft = 0

def Run.viewCellar (r : Run) (c : Fin 16) (name : String) (k : Nat) : Option Nat :=
  let x := r.chan c
  match name with
  | "CEL_CH_STATUS" => some (packWord [(0, b2n x.trained), (1, b2n x.lost), (2, b2n x.ready), (3, b2n x.tcr2x), (4, x.ranks.toNat),
      (6, b2n x.dens), (7, b2n x.mrdimm), (16, x.capGib)])
  | "CEL_CH_REMAP" => some ((x.remap.toList.getD k none).elim 0 fun n => packWord [(0, n), (31, 1)])
  | "CEL_FILL" => some (packWord [(0, r.fillLeft), (31, b2n r.fillOver)])
  | "CEL_FRAME_DATA" => some (mget 0 r.m.frames (r.fld 0x110020 11 0)).toNat
  | "CEL_REBUILD" => some (packWord [(16, b2n r.c.rebuild.busy), (17, b2n r.c.rebuild.done)])
  | _ => none

/-- Bit e − 32h: House e has property f. -/
def Run.peerBits (r : Run) (h : Nat) (f : Peer → Bool) : Nat := bitWord fun e => (r.c.fab.peers.toList[e + 32 * h]?).any f

def Run.viewDoor (r : Run) (d : Fin 8) (name : String) : Option Nat :=
  let x := r.door d
  match name with
  | "DOR_STATUS" => some (packWord [(0, b2n x.up), (1, b2n (r.fenced (unitDoor d))), (2, b2n x.half), (3, b2n x.lset),
      (4, b2n (r.secOn d)), (5, b2n x.rxKid), (8, x.farId.toNat), (14, b2n x.farV), (16, x.farDoor.toNat), (24, x.laneBad.toNat)])
  | "DOR_REPLAY_USED" => some x.kept.length
  | "RTE_LIVE_LO" => some (r.peerBits 0 fun p => p.live)
  | "RTE_LIVE_HI" => some (r.peerBits 1 fun p => p.live)
  | "RTE_DEAD_LO" => some (r.peerBits 0 fun p => p.dead)
  | "RTE_DEAD_HI" => some (r.peerBits 1 fun p => p.dead)
  | "RTE_STATUS" => some (packWord [(0, b2n r.c.fab.routed), (1, b2n r.timed), (16, r.c.fab.incarn.toNat)])
  | "RTE_REORDER" => some (min 256 (heldFrames r.c.fab.held))
  | _ => none

/-! ## Tenants and meters (R353, R367, R370; what a settling bank shows: log entry 26, DEDUCED) -/

def Run.viewMeter (r : Run) (a : Nat) (name : String) : Option Nat :=
  let m := r.c.mtr
  let t := BitVec.ofNat 12 ((a - 0xC10000) / 0x10)
  match name with
  | "TNT_OCC" => some (r.occ t)
  | "TNT_OVER" => some (r.over t)
  | "MTR_STATUS" => some (packWord [(0, b2n m.bank), (1, b2n m.settling), (2, b2n m.closed), (3, b2n m.merged)])
  | "MTR_WIN_SEQ" => some m.seqNo
  | "MTR_WIN_START_LO" => some (m.winStart % 2 ^ 32)
  | "MTR_WIN_END_LO" => some (m.winEnd % 2 ^ 32)
  | "MTR_WIN_FLAGS" => some m.flagsWin.toNat
  | "MTR_METER" => some (if m.settling then 0 else (mget 0 r.m.mtr ((b2n (!m.bank) * 4096 + (a - 0xC60000) / 0x40) * 5 + a % 0x40 / 8)).toNat % 2 ^ 32)
  | _ => none

/-! ## HI words (R387, R458, R498) -/

/-- The word that a read of the LO register at address a latches: its name tells the pair. -/
def Run.hiWord (r : Run) (a : Nat) (name : String) (k : Nat) : Option Nat :=
  let hi (v : Nat) : Option Nat := some (v / 2 ^ 32 % 2 ^ 32)
  let cnt (v : Nat) : Option Nat := some (bitsOf v 47 32 ||| (bitsOf v 48 48 <<< 31))
  let m := fin64 ((a - 0x400000) / 0x10000)
  match name with
  | "TT_LAST_FT_LO" => hi r.c.tt.lastFt
  | "MOD_LAST_FT_LO" => hi r.c.mod.lastFt
  | "TIM_FT_LO" => hi r.timFt
  | "FBX_STATUS_LO" => some r.statusHi
  | "FBX_FIRST_FT_LO" => hi (r.c.fbx.first.elim 0 fun x => x.ev.stamp)
  | "THM_RES_LO" => hi (r.c.thm.res.toList.getD k 0).toNat
  | "CLK_AUX_TICK_LO" => hi r.auxTick
  | "MTR_WIN_START_LO" => hi r.c.mtr.winStart
  | "MTR_WIN_END_LO" => hi r.c.mtr.winEnd
  | "MTR_METER" => if a % 8 = 0 then hi (if r.c.mtr.settling then 0 else (mget 0 r.m.mtr ((b2n (!r.c.mtr.bank) * 4096 + (a - 0xC60000) / 0x40) * 5 + a % 0x40 / 8)).toNat) else none
  | "PMC_CYCLE_LO" => cnt (mget 0 r.m.pmc (m.val * 9 + 8)).toNat
  | "PMC_CNT_LO" => cnt (mget 0 r.m.pmc (m.val * 9 + k)).toNat
  | "PCH_HIST_BIN_LO" =>
    let p := fin8 ((a - 0x80000) / 0x1000)
    cnt (mget 0 r.m.hist (histKey p (!(r.porch p).histBank) k)).toNat
  | _ => none

/-- Registers that return what their LO register latched for the reading port. -/
def hiNames : List String :=
  ["TT_LAST_FT_HI", "MOD_LAST_FT_HI", "TIM_FT_HI", "FBX_STATUS_HI", "FBX_FIRST_FT_HI", "THM_RES_HI", "CLK_AUX_TICK_HI",
   "MTR_WIN_START_HI", "MTR_WIN_END_HI", "PMC_CYCLE_HI", "PMC_CNT_HI", "PCH_HIST_BIN_HI"]

def latchedHi (d : RegDef) (a : Nat) : Bool := hiNames.contains d.name || (d.name = "MTR_METER" && a % 8 = 4)

/-! ## A register as a port reads it (R27, R444, R452) -/

/-- The number of the register within its array: the first index of one, both of FBX_LOG's two. -/
def RegDef.index (d : RegDef) (rel : Nat) : Nat := match d.arr with
  | [(_, s)] => (rel - d.off) / s
  | [(_, s), (n, u)] => (rel - d.off) / s * n + (rel - d.off) % s / u
  | _ => 0

/-- The index of the register at address a; for a Wing its number. -/
def regIndex (d : RegDef) (a : Nat) : Nat :=
  if 0x200000 ≤ a ∧ a < 0x204000 then (a - 0x200000) / 0x1000
  else match (RegTable.blocks.find? fun b => (b.find a).isSome).bind fun b => b.rel a with
    | some rel => d.index rel
    | none => 0

/-- The RO and RC fields of the register, when they follow from the rest of the state. -/
def Run.status (r : Run) (g : MgPort) (d : RegDef) (a : Nat) : Option Nat :=
  let k := regIndex d a
  if a < 0x10000 then r.viewDev g d.name k
  else if a < 0x20000 then r.viewFbx d.name k
  else if a < 0x70000 then r.viewIsland g d.name k
  else if a < 0x90000 then r.viewPorch (fin8 ((a - 0x80000) / 0x1000)) d.name k
  else if a < 0x120000 then r.viewCellar (fin16 ((a - 0x100000) / 0x1000)) d.name k
  else if a < 0x200000 then r.viewDoor (fin8 ((a - 0x180000) / 0x1000)) d.name
  else if a < 0x300000 then r.viewFbx d.name k
  else if a < 0x800000 then r.viewRoom (fin64 ((a - 0x400000) / 0x10000)) d.name k
  else r.viewMeter a d.name

/-- The block at this address is off in this mode (R27). -/
def Run.blockOff (r : Run) (a : Nat) : Bool :=
  let m := r.mode
  m = .off || m = .aux ||
    (m = .load && (decide (0x80000 ≤ a ∧ a < 0x90000) || decide (0x100000 ≤ a ∧ a < 0x200000))) ||
    (m = .fill && decide (0x180000 ≤ a ∧ a < 0x200000))

/-- What a read of the register at address a returns to port g: its RW and W1 fields as stored; its status and count
fields, which read zero while the block is off; WO and reserved fields zero. -/
def Run.view (r : Run) (g : MgPort) (a : Nat) : Nat := match regDef a with
  | none => 0
  | some d =>
    let set := d.maskOf fun x => x = .rw || x = .w1
    let own := d.maskOf fun x => x = .ro || x = .rc
    let v := if latchedHi d a then (mget 0 (r.mg g).hi a).toNat else (r.status g d a).getD (r.reg a)
    (r.reg a &&& set) ||| (if islandReg a || !(r.blockOff a) then v &&& own else 0)

/-- The location answers in this mode (R444). -/
def Run.answers (r : Run) (a : Nat) : Bool := r.mode ≠ .off && (r.mode ≠ .aux || islandReg a)

/-! ## A management read (R387, R450, R455, R457, R458, R498) -/

/-- Status bits whose source is fenced or holds a level fault: they are set again (R387). -/
def Run.relatch (r : Run) : Run :=
  let bit (b : Bool) (i : Nat) : BitVec 51 := if b then 1#51 <<< i else 0
  let level := (List.range 51).foldl (fun v i =>
    v ||| bit (r.levelSource i || (List.range 96).any fun u => r.fenced u && decide (64 ≤ u) &&
      i = (if u < 80 then u - 60 else if u < 88 then u - 52 else u - 68)) i) 0
  r.modFbx fun f => { f with status := f.status ||| level }

/-- The RC fields of a register are cleared by a read of port g; those that the control state holds, by name. A peak
starts anew from the level that stands. -/
def Run.readClears (r : Run) (g : MgPort) (d : RegDef) (a : Nat) : Run :=
  let k := regIndex d a
  match d.name with
  | "DEV_IRQ_CAUSE" => r.modMg g fun x => { x with cause := 0 }
  | "FBX_STATUS_LO" => (r.modFbx fun f => { f with status := 0 }).relatch
  | "FBX_MAXSEV" => r.modFbx fun f => { f with maxSev := 0, anySev := false }
  | "WG_ERRSRC" =>
    let w := fin4 k
    r.modFbx fun f => { f with wgErr := f.wgErr.set w (BitVec.ofNat 17 (bitsOf f.fenced.toNat (16 * w.val + 15) (16 * w.val))) w.isLt }
  | "THM_PWR" => r.modThm fun t => { t with peak := 0 }
  | "RM_MISS_PEAK" => r.setReg a (r.room (fin64 ((a - 0x400000) / 0x10000))).trks.length
  | "RM_WB_PEAK" => r.setReg a (r.room (fin64 ((a - 0x400000) / 0x10000))).wbuf.length
  | "RM_COH_PEAK" => r.setReg a (r.room (fin64 ((a - 0x400000) / 0x10000))).cohs.length
  | "LND_PEAK" => r.setReg a (r.porch (fin8 ((a - 0x80000) / 0x1000))).lands.length
  | "PMC_CYCLE_LO" | "PMC_CNT_LO" =>
    let key := (a - 0x400000) / 0x10000 * 9 + (if d.name = "PMC_CYCLE_LO" then 8 else k)
    r.st (.pmc key (BitVec.ofNat 49 ((mget 0 r.m.pmc key).toNat % 2 ^ 48)))
  | _ =>
    let rc := d.maskOf fun x => x = .rc
    if rc = 0 then r else r.setReg a (r.reg a ^^^ (r.reg a &&& rc))

/-- A read of LO latches its HI word for the reading port. -/
def Run.readLatches (r : Run) (g : MgPort) (d : RegDef) (a : Nat) : Run := match r.hiWord a d.name (regIndex d a) with
  | some v => r.modMg g fun x => { x with hi := mset 0 x.hi (a + 4) (w32 v) }
  | none => r

/-- An aligned 32-bit read of a register by port g: the word it returns, and what it does. LCH_TAKEn and the Pantry have
rows of their own. -/
def Run.mgmtRead (r : Run) (g : MgPort) (a : Nat) : Run × Word :=
  if !(r.answers a) || (aliasOf a).2 ≠ .plain then (r, 0)
  else match regDef a with
    | none => (r, 0)
    | some d => ((r.readLatches g d a).readClears g d a, w32 (r.view g a))

end Sys2Proof.Machine
end

