-- ==== Sys2Proof/Machine/Smbus.lean ====
section
/-! DEFINITION. The SMBus sideband of a management port (R446–R448). -/
namespace Sys2Proof.Machine
open Sys2Proof

/-- The packet error code over the bytes of a transaction: CRC-8 with x^8 + x^2 + x + 1, from 0 (log entry 62, PRESUMED). -/
def pecStep (c b : BitVec 8) : BitVec 8 :=
  (List.range 8).foldl (fun x _ => if x.msb then (x <<< 1) ^^^ 0x07#8 else x <<< 1) (c ^^^ b)
def pecOf (bs : List Byte) : Byte := bs.foldl pecStep 0

/-- The address byte of a transfer to the port's target: 0x5C or 0x5D, and the direction bit. -/
def smbAddr (g : MgPort) (read : Bool) : Byte := BitVec.ofNat 8 (0xB8 + 2 * b2n (g = .b) + b2n read)

/-- The target takes a block write of these bytes: it carries the right PEC. -/
def smbTakes (g : MgPort) (cmd : Nat) (bs : List Byte) (pec : Option Byte) : Bool :=
  pec = some (pecOf (smbAddr g false :: BitVec.ofNat 8 cmd :: BitVec.ofNat 8 bs.length :: bs))

/-- The sideband works: the island has power, and the balls are its own. -/
def Run.smbOn (r : Run) : Bool := r.mode ≠ .off && r.c.jtag = .none

/-- SMB_SET_POINTER, command 0x10; an offset whose low 2 bits are not 0 is not taken. -/
def Run.smbSetPointer (r : Run) (g : MgPort) (a : BitVec 32) (pec : Option Byte) : Run :=
  if r.smbOn && smbTakes g 0x10 (leBytes 4 a.toNat) pec && a.toNat % 4 = 0 then r.modMg g fun x => { x with smbPtr := a } else r

def execSmbSetPointer (g : MgPort) (addr : BitVec 32) (pec : Option Byte) (s : State) : Host.Outcome State Fault Refusal :=
  .next (Run.finish s ((Run.start s).smbSetPointer g addr pec))

/-- What a sideband read may read (R448). -/
def smbMay (a : Nat) : Bool :=
  decide (a < 0x400) || decide (0x10000 ≤ a ∧ a < 0x10040) || decide (0x10300 ≤ a ∧ a < 0x10320) ||
    decide (0x30000 ≤ a ∧ a < 0x40000) || decide (0x40000 ≤ a ∧ a < 0x40020) || decide (0x20100 ≤ a ∧ a < 0x20120)

/-- The status and the word that a sideband read returns. -/
def Run.smbAnswer (r : Run) (g : MgPort) (a : Nat) : Nat × Nat :=
  if !(smbMay a) then (1, 0) else if !(r.answers a) then (2, 0) else (0, r.view g a)

/-- SMB_READ, command 0x11: it has no side effect but on the pointer. A transaction without its PEC is ignored. -/
def Run.smbRead (r : Run) (g : MgPort) (pec : Bool) : Run :=
  if !r.smbOn || !pec then r
  else
    let a := (r.mg g).smbPtr
    let x := r.smbAnswer g a.toNat
    let bs := BitVec.ofNat 8 x.1 :: leBytes 4 x.2
    let code := pecOf (smbAddr g false :: 0x11 :: smbAddr g true :: 5 :: bs)
    (r.modMg g fun y => { y with smbPtr := a + 4 }).modOut fun o => { o with side := o.side ++ [bs ++ [code]] }

def execSmbRead (g : MgPort) (pec : Bool) (s : State) : Host.Outcome State Fault Refusal :=
  .next (Run.finish s ((Run.start s).smbRead g pec))

/-- SMB_WRITE, command 0x20: a management write of its port, of IMG_CTRL or DEV_CTRL only. -/
def Run.smbWrite (r : Run) (g : MgPort) (a : BitVec 32) (v : Word) (pec : Option Byte) : Run :=
  if r.smbOn && smbTakes g 0x20 (leBytes 4 a.toNat ++ leBytes 4 v.toNat) pec && (a = 0x200 || a = 0x14) then
    r.mgmtStore (.port g) a.toNat v.toNat
  else r

def execSmbWrite (g : MgPort) (addr : BitVec 32) (val : Word) (pec : Option Byte) (s : State) :
    Host.Outcome State Fault Refusal := .next (Run.finish s ((Run.start s).smbWrite g addr val pec))

end Sys2Proof.Machine
end

