-- ==== Sys2Proof/Machine/Dispatch.lean ====
section
/-! DEFINITION. One arm for each command: its meaning, or its refusal by name. -/
namespace Sys2Proof.Machine
open Sys2Proof

def exec (i : Instr) (s : State) : Host.Outcome State Fault Refusal :=
  match i with
  | .memRd q => Sys2Proof.Machine.execMemRd q s
  | .memRdData q => Sys2Proof.Machine.execMemRdData q s
  | .memWr q => Sys2Proof.Machine.execMemWr q s
  | .memWrPtl q => Sys2Proof.Machine.execMemWrPtl q s
  | .memInv q => Sys2Proof.Machine.execMemInv q s
  | .memClnEvct q => Sys2Proof.Machine.execMemClnEvct q s
  | .memSpecRd q => Sys2Proof.Machine.execMemSpecRd q s
  | .biRsp p k hpa blk r => Sys2Proof.Machine.execBiRsp p k hpa blk r s
  | .biConflict p k hpa => Sys2Proof.Machine.execBiConflict p k hpa s
  | .requestInject p sel => Sys2Proof.Machine.execRequestInject p sel s
  | .roomEntry m p u => Sys2Proof.Machine.execRoomEntry m p u s
  | .waiterReentry m sel u => Sys2Proof.Machine.execWaiterReentry m sel u s
  | .nearCopyReadReturn m => Sys2Proof.Machine.execNearCopyReadReturn m s
  | .tagRebuild m errs => Sys2Proof.Machine.execTagRebuild m errs s
  | .cellarCommandIssue c sel => Sys2Proof.Machine.execCellarCommandIssue c sel s
  | .cellarReadDone c sel e => Sys2Proof.Machine.execCellarReadDone c sel e s
  | .repeatCorrectWrite c => Sys2Proof.Machine.execRepeatCorrectWrite c s
  | .poisonRewrite c => Sys2Proof.Machine.execPoisonRewrite c s
  | .wbDrain m sel => Sys2Proof.Machine.execWbDrain m sel s
  | .landingDrain p => Sys2Proof.Machine.execLandingDrain p s
  | .landingEntryFree p => Sys2Proof.Machine.execLandingEntryFree p s
  | .mudroomHomeWrite m => Sys2Proof.Machine.execMudroomHomeWrite m s
  | .responseReturn p sel => Sys2Proof.Machine.execResponseReturn p sel s
  | .fillP f => Sys2Proof.Machine.execFillP f s
  | .fillS f => Sys2Proof.Machine.execFillS f s
  | .fillO f => Sys2Proof.Machine.execFillO f s
  | .upgrade f => Sys2Proof.Machine.execUpgrade f s
  | .rdU f => Sys2Proof.Machine.execRdU f s
  | .wrU f => Sys2Proof.Machine.execWrU f s
  | .wb f => Sys2Proof.Machine.execWb f s
  | .mirrorWr f => Sys2Proof.Machine.execMirrorWr f s
  | .data f => Sys2Proof.Machine.execData f s
  | .ackO f => Sys2Proof.Machine.execAckO f s
  | .wrAck f => Sys2Proof.Machine.execWrAck f s
  | .invSnp f => Sys2Proof.Machine.execInvSnp f s
  | .recallSnp f => Sys2Proof.Machine.execRecallSnp f s
  | .invAck f => Sys2Proof.Machine.execInvAck f s
  | .recallAck f => Sys2Proof.Machine.execRecallAck f s
  | .invData f => Sys2Proof.Machine.execInvData f s
  | .recallData f => Sys2Proof.Machine.execRecallData f s
  | .heartbeat f => Sys2Proof.Machine.execHeartbeat f s
  | .heartbeatSend => Sys2Proof.Machine.execHeartbeatSend s
  | .houseDead e => Sys2Proof.Machine.execHouseDead e s
  | .frameReceive d f fec => Sys2Proof.Machine.execFrameReceive d f fec s
  | .abort d f => Sys2Proof.Machine.execAbort d f s
  | .nak d h expected => Sys2Proof.Machine.execNak d h expected s
  | .idle d h => Sys2Proof.Machine.execIdle d h s
  | .beacon d h b => Sys2Proof.Machine.execBeacon d h b s
  | .beaconDue d => Sys2Proof.Machine.execBeaconDue d s
  | .frameStart d cls => Sys2Proof.Machine.execFrameStart d cls s
  | .tReq d xn => Sys2Proof.Machine.execTReq d xn s
  | .tResp d xn => Sys2Proof.Machine.execTResp d xn s
  | .tFollow d xn t2 t3 => Sys2Proof.Machine.execTFollow d xn t2 t3 s
  | .timeExchange => Sys2Proof.Machine.execTimeExchange s
  | .timeHoldover => Sys2Proof.Machine.execTimeHoldover s
  | .ackTimeout d => Sys2Proof.Machine.execAckTimeout d s
  | .replayFail d => Sys2Proof.Machine.execReplayFail d s
  | .seqGap src cls => Sys2Proof.Machine.execSeqGap src cls s
  | .laneFail d lane => Sys2Proof.Machine.execLaneFail d lane s
  | .doorTrainDone d e => Sys2Proof.Machine.execDoorTrainDone d e s
  | .fillTimeout m idx => Sys2Proof.Machine.execFillTimeout m idx s
  | .snoopTimeout m idx => Sys2Proof.Machine.execSnoopTimeout m idx s
  | .invRetry m idx => Sys2Proof.Machine.execInvRetry m idx s
  | .snoopLost m idx => Sys2Proof.Machine.execSnoopLost m idx s
  | .drainTimeout p => Sys2Proof.Machine.execDrainTimeout p s
  | .lostWrite p => Sys2Proof.Machine.execLostWrite p s
  | .reqTimeout p => Sys2Proof.Machine.execReqTimeout p s
  | .hostStall p k => Sys2Proof.Machine.execHostStall p k s
  | .rsvLeaseExpire m => Sys2Proof.Machine.execRsvLeaseExpire m s
  | .drainRead p k => Sys2Proof.Machine.execDrainRead p k s
  | .syncRead p k => Sys2Proof.Machine.execSyncRead p k s
  | .syncMarkerAnswer m => Sys2Proof.Machine.execSyncMarkerAnswer m s
  | .rsvLoad p k slot => Sys2Proof.Machine.execRsvLoad p k slot s
  | .rsvStore p k slot hi => Sys2Proof.Machine.execRsvStore p k slot hi s
  | .rsvResultRead p k slot => Sys2Proof.Machine.execRsvResultRead p k slot s
  | .hostViewWrite p k off val => Sys2Proof.Machine.execHostViewWrite p k off val s
  | .hdmDecoderCommit p k h => Sys2Proof.Machine.execHdmDecoderCommit p k h s
  | .mailboxCommand p k c => Sys2Proof.Machine.execMailboxCommand p k c s
  | .hostLinkDown p k => Sys2Proof.Machine.execHostLinkDown p k s
  | .perst p k => Sys2Proof.Machine.execPerst p k s
  | .walkerVisit v => Sys2Proof.Machine.execWalkerVisit v s
  | .trimVisit v => Sys2Proof.Machine.execTrimVisit v s
  | .scrubRead c rank bg e => Sys2Proof.Machine.execScrubRead c rank bg e s
  | .scrubSlow => Sys2Proof.Machine.execScrubSlow s
  | .resilverRead e => Sys2Proof.Machine.execResilverRead e s
  | .sweepRead m way line e => Sys2Proof.Machine.execSweepRead m way line e s
  | .rebuildWrite c => Sys2Proof.Machine.execRebuildWrite c s
  | .fillWrite c => Sys2Proof.Machine.execFillWrite c s
  | .channelReadTimeout c => Sys2Proof.Machine.execChannelReadTimeout c s
  | .ddrAlert c => Sys2Proof.Machine.execDdrAlert c s
  | .tableSwitch => Sys2Proof.Machine.execTableSwitch s
  | .eventDecide => Sys2Proof.Machine.execEventDecide s
  | .fuseSelfFault area => Sys2Proof.Machine.execFuseSelfFault area s
  | .startUpStep => Sys2Proof.Machine.execStartUpStep s
  | .joinTimeout => Sys2Proof.Machine.execJoinTimeout s
  | .pantryEntry => Sys2Proof.Machine.execPantryEntry s
  | .selftestDone r => Sys2Proof.Machine.execSelftestDone r s
  | .channelTrainDone c t => Sys2Proof.Machine.execChannelTrainDone c t s
  | .imageLoadEnd f => Sys2Proof.Machine.execImageLoadEnd f s
  | .imgTimeout => Sys2Proof.Machine.execImgTimeout s
  | .recheckEnd pass rows => Sys2Proof.Machine.execRecheckEnd pass rows s
  | .rebuildEnd => Sys2Proof.Machine.execRebuildEnd s
  | .crcLapEnd => Sys2Proof.Machine.execCrcLapEnd s
  | .commitEnd => Sys2Proof.Machine.execCommitEnd s
  | .meterSnapshotAuto => Sys2Proof.Machine.execMeterSnapshotAuto s
  | .meterClose => Sys2Proof.Machine.execMeterClose s
  | .thermalSample t => Sys2Proof.Machine.execThermalSample t s
  | .thermtrip => Sys2Proof.Machine.execThermtrip s
  | .clockMonitorWindow c => Sys2Proof.Machine.execClockMonitorWindow c s
  | .thermostatWake kind n => Sys2Proof.Machine.execThermostatWake kind n s
  | .supplyLow rail => Sys2Proof.Machine.execSupplyLow rail s
  | .resetN => Sys2Proof.Machine.execResetN s
  | .pwrGoodLow => Sys2Proof.Machine.execPwrGoodLow s
  | .pwrGoodRise => Sys2Proof.Machine.execPwrGoodRise s
  | .vauxValid => Sys2Proof.Machine.execVauxValid s
  | .vauxLoss => Sys2Proof.Machine.execVauxLoss s
  | .mgLinkDown g => Sys2Proof.Machine.execMgLinkDown g s
  | .mgPerst g => Sys2Proof.Machine.execMgPerst g s
  | .mgmtWrite g addr be val => Sys2Proof.Machine.execMgmtWrite g addr be val s
  | .windowSegmentWrite g addr be val => Sys2Proof.Machine.execWindowSegmentWrite g addr be val s
  | .regionEntryWrite g addr be val => Sys2Proof.Machine.execRegionEntryWrite g addr be val s
  | .classEntryWrite g addr be val => Sys2Proof.Machine.execClassEntryWrite g addr be val s
  | .waydisWrite g addr be val => Sys2Proof.Machine.execWaydisWrite g addr be val s
  | .pantryRead g x upset => Sys2Proof.Machine.execPantryRead g x upset s
  | .pantryWrite g x be val => Sys2Proof.Machine.execPantryWrite g x be val s
  | .keyStageWrite g tenant word val => Sys2Proof.Machine.execKeyStageWrite g tenant word val s
  | .keyCommit g tenant val => Sys2Proof.Machine.execKeyCommit g tenant val s
  | .modeRequest g addr val => Sys2Proof.Machine.execModeRequest g addr val s
  | .unfenceRequest g addr val => Sys2Proof.Machine.execUnfenceRequest g addr val s
  | .devReset g addr val => Sys2Proof.Machine.execDevReset g addr val s
  | .imgLoadGo g addr val => Sys2Proof.Machine.execImgLoadGo g addr val s
  | .spiCommand g addr val => Sys2Proof.Machine.execSpiCommand g addr val s
  | .selftestGo g addr val => Sys2Proof.Machine.execSelftestGo g addr val s
  | .classDrainGo g addr val => Sys2Proof.Machine.execClassDrainGo g addr val s
  | .flush g addr val => Sys2Proof.Machine.execFlush g addr val s
  | .resilver g addr val => Sys2Proof.Machine.execResilver g addr val s
  | .rebuildGo g addr val => Sys2Proof.Machine.execRebuildGo g addr val s
  | .ttForceGo g addr val => Sys2Proof.Machine.execTtForceGo g addr val s
  | .msyncGo g p => Sys2Proof.Machine.execMsyncGo g p s
  | .retrain g d val => Sys2Proof.Machine.execRetrain g d val s
  | .fbxInject g addr val => Sys2Proof.Machine.execFbxInject g addr val s
  | .recheckGo g addr val => Sys2Proof.Machine.execRecheckGo g addr val s
  | .rearm g addr val => Sys2Proof.Machine.execRearm g addr val s
  | .commitGo g addr val => Sys2Proof.Machine.execCommitGo g addr val s
  | .latchTake g n => Sys2Proof.Machine.execLatchTake g n s
  | .latchRelease g n val => Sys2Proof.Machine.execLatchRelease g n val s
  | .latchClrerr g n val => Sys2Proof.Machine.execLatchClrerr g n val s
  | .latchLeaseExpire n => Sys2Proof.Machine.execLatchLeaseExpire n s
  | .meterSnap g => Sys2Proof.Machine.execMeterSnap g s
  | .meterAck g seq => Sys2Proof.Machine.execMeterAck g seq s
  | .counterClr g m k val => Sys2Proof.Machine.execCounterClr g m k val s
  | .counterLoad g m k val => Sys2Proof.Machine.execCounterLoad g m k val s
  | .pmcFreezeWrite g addr val => Sys2Proof.Machine.execPmcFreezeWrite g addr val s
  | .histogramSnapshot g addr val => Sys2Proof.Machine.execHistogramSnapshot g addr val s
  | .winLockWrite g addr val => Sys2Proof.Machine.execWinLockWrite g addr val s
  | .thmSelWrite g addr val => Sys2Proof.Machine.execThmSelWrite g addr val s
  | .smbSetPointer g addr pec => Sys2Proof.Machine.execSmbSetPointer g addr pec s
  | .smbRead g pec => Sys2Proof.Machine.execSmbRead g pec s
  | .smbWrite g addr val pec => Sys2Proof.Machine.execSmbWrite g addr val pec s
  | .idcode => Sys2Proof.Machine.execIdcode s
  | .extest => Sys2Proof.Machine.execExtest s
  | .intest => Sys2Proof.Machine.execIntest s
  | .clamp => Sys2Proof.Machine.execClamp s
  | .fuseprog op vpgm => Sys2Proof.Machine.execFuseprog op vpgm s
  | .hostLinkUp p k speed width biEn ide blk => Sys2Proof.Machine.execHostLinkUp p k speed width biEn ide blk s
  | .mgLinkUp g speed => Sys2Proof.Machine.execMgLinkUp g speed s
  | .quickRetrainEnd d ok => Sys2Proof.Machine.execQuickRetrainEnd d ok s
  | .spiCommandEnd rd => Sys2Proof.Machine.execSpiCommandEnd rd s
  | .lchParity n => Sys2Proof.Machine.execLchParity n s
  | .tcr2x c hot => Sys2Proof.Machine.execTcr2x c hot s
  | .fenceShadowEnd => Sys2Proof.Machine.execFenceShadowEnd s
  | .counterWrap m k => Sys2Proof.Machine.execCounterWrap m k s
  | .supplyRestored rail => Sys2Proof.Machine.execSupplyRestored rail s

end Sys2Proof.Machine
end

