-- ==== Sys2Proof/Machine/Window.lean ====
section
/-! DEFINITION. The Window: what its groups show, and its pins (R505–R509). -/
namespace Sys2Proof.Machine
open Sys2Proof

/-- The code that calendar k granted in this cc, or 0xFF. -/
def Run.granted (r : Run) (k : Nat) : Nat := match r.c.used.find? fun u => u.1 = k with
  | some u => u.2
  | none => 0xFF

/-- The two calendars of a block, in the order of R507 group 1. -/
def blockCals (b : Nat) : Nat × Nat :=
  if b < 64 then (b, 72 + b) else if b < 72 then (b, 120 + b) else if b < 88 then (64 + b, 88 + b) else (64 + b, 88 + b)

/-- Counter k of Room m contributes in this cc (R495). -/
def Run.pmcAdds (r : Run) (m : Fin 64) (k : Nat) : Bool :=
  let key := m.val * 9 + k
  !(r.bit 0xF00 0) && (decide (r.pmcTick m k ≠ 0) || (r.c.pulsed.contains key &&
    !(r.bit (rmBase m + 0x640 + 0x20 * k) 6 && mget false r.m.pmcPrev key)))

/-- The code seen of a block in this cc. -/
def Run.seenOf (r : Run) (b : Nat) : Nat := ((r.c.seen.find? fun x => x.1 = b).map (·.2)).getD 0

/-- The header of the frame that Door d started in this cc. -/
def Run.frameHeader (r : Run) (d : Fin 8) : Nat :=
  if r.c.used.any fun u => u.1 = 176 + d.val then match (r.c.out.frames.filter fun x => x.1 = d).getLast? with
    | some x => (x.2.extractLsb' 0 32).toNat
    | none => 0
  else 0

/-- The channel's command record in this cc: its KIND, and whether a command issued. -/
def Run.commandShown (r : Run) (c : Nat) : Nat := match r.curRecord (160 + c) with
  | some (_, w) =>
    let kind := bitsOf w 1 0
    kind ||| (b2n (kind = 1 || kind = 2 || (kind = 0 && r.c.used.any fun u => u.1 = 160 + c)) <<< 2)
  | none => 0

/-- Group 0. -/
def Run.winWord0 (r : Run) (b : Nat) : Nat :=
  packWord [(0, r.c.tt.slot.toNat), (12, r.c.tt.cur), (19, b2n r.c.tt.pend), (20, r.mode.code),
    (24, (r.c.thm.pwr.toList.getD b .awake).depth)]

/-- Group 1. -/
def Run.winWord1 (r : Run) (b : Nat) : Nat :=
  r.granted (blockCals b).1 ||| (r.granted (blockCals b).2 <<< 8) ||| 0xFFFF0000

/-- Group 2. -/
def Run.winWord2 (r : Run) (b : Nat) : Nat :=
  if b < 64 then (List.range 8).foldl (fun v k => if r.pmcAdds (fin64 b) k then v ||| (1 <<< k) else v) 0 ||| (r.seenOf b <<< 8)
  else if b < 72 then r.seenOf b
  else if b < 88 then r.commandShown (b - 72)
  else r.frameHeader (fin8 (b - 88))

/-- Group 3. -/
def Run.winWord3 (r : Run) (b : Nat) : Nat :=
  if b < 64 then
    let y := r.room (fin64 b)
    packWord [(0, y.trks.length % 2 ^ 9), (9, y.cohs.length % 2 ^ 7), (16, y.wbuf.length % 2 ^ 7), (23, y.mud.length % 2 ^ 6),
      (29, ((r.viewRoom (fin64 b) "RM_STATUS" 0).getD 0) % 8)]
  else if b < 72 then
    let x := r.porch (fin8 (b - 64))
    packWord [(0, x.store.length % 2 ^ 12), (12, x.lands.length % 2 ^ 8)]
  else if b < 88 then
    let x := r.chan (fin16 (b - 72))
    packWord [(0, x.cam.length % 2 ^ 5), (5, (x.remap.toList.filter Option.isSome).length)]
  else
    let x := r.door (fin8 (b - 88))
    packWord [(0, x.kept.length % 2 ^ 10), (16, x.txXoff.toNat)]

/-- The word that the pins carry for the selected block and group; a data group's is a free value (log entry 58, DESIGN CHOICE). -/
def Run.winWord (r : Run) : Run × Word :=
  let b := r.fld 0x50004 6 0
  let g := r.fld 0x50004 11 8
  if g = 0 then (r, w32 (r.winWord0 b))
  else if g = 1 then (r, w32 (r.winWord1 b))
  else if g = 2 then (r, w32 (r.winWord2 b))
  else if g = 3 then (r, w32 (r.winWord3 b))
  else ({ r with c := { r.c with free := r.c.free + 1 } }, Config.windowData r.c.free)

/-- The cc that ends is sampled (R506): the pins take the word 2 cc later. -/
def Run.winSample (r : Run) : Run :=
  if r.winDrive && r.c.tt.run && r.c.tt.slot.toNat % 8 = r.fld 0x50004 14 12 then
    let (r, w) := r.winWord
    { r with c := { r.c with win := { r.c.win with next := r.c.win.next ++ [(r.c.cc + 2, w)] } } }
  else r

/-- The pins in the cc that begins: WIN_CLK falls with a change, and rises 4 cc after it. -/
def Run.winPins (r : Run) : Run :=
  if !r.winDrive then { r with c := { r.c with win := {} } }
  else
    let w := r.c.win
    let w : Win := match w.next with
      | (n, d) :: rest => if n ≤ r.c.cc then { d := d, clk := false, next := rest, changed := n } else w
      | [] => w
    let w := if w.changed + 4 ≤ r.c.cc && w.changed ≠ 0 then { w with clk := true } else w
    { r with c := { r.c with win := w } }

/-- The levels of WIN_D and WIN_CLK; none when they are high-impedance (R505). -/
def Run.winLevels (r : Run) : Option (Word × Bool) :=
  if r.mode = .off || r.mode = .aux then none
  else if r.winDrive then some (r.c.win.d, r.c.win.clk) else some (0, false)

/-- ALERT_N is low (R544). -/
def Run.alertLow (r : Run) : Bool :=
  let urgent (g : Mg) : Bool := g.cause.getLsbD 0 || g.cause.getLsbD 1
  urgent r.c.mgA || urgent r.c.mgB || r.mode = .safe

end Sys2Proof.Machine
end

