-- ==== Sys2Proof/Machine/Tick.lean ====
section
/-! DEFINITION. One period of the core clock: what happens in every cc without a command (R208, R299, R314, R477, R494, R495,
R506; log entry 1, DESIGN CHOICE). -/
namespace Sys2Proof.Machine
open Sys2Proof

/-- The core clock runs from LOAD onward. -/
def Run.coreRuns (r : Run) : Bool := r.mode ≠ .off && r.mode ≠ .aux

/-- Performance events of the Room-entry slot that ends: idle, or taken by an heir from its owner (R496). -/
def Run.slotEvents (r : Run) (m : Fin 64) : Run :=
  match r.curRecord m.val with
  | some (w, _) =>
    let code := r.granted m.val
    if code = 0xFF then r.pulse m 0x12
    else r.when (bitsOf w 7 0 ≠ 0xFF && code ≠ bitsOf w 7 0) fun r => r.pulse m 0x13
  | none => r

/-- The counters of Room m at the end of a cc: what the clock adds, and whether each signal was non-zero. -/
def Run.pmcEnd (r : Run) (m : Fin 64) : Run :=
  r.forEach (List.range 9) fun k r =>
    let key := m.val * 9 + k
    let n := r.pmcTick m k
    let lit := r.c.pulsed.contains key || decide (0 < r.pmcLevel m k)
    let r := if n = 0 || r.c.wrapped.contains key then r else r.pmcAdd m k n
    if k < 8 then r.st (.pmcPrev key lit) else r

/-- Performance counters in the cc that ends; they stand still while PMC_FREEZE.FRZ is set, and while Rooms do not
run. -/
def Run.countersEnd (r : Run) : Run :=
  if r.bit 0xF00 0 || !r.c.tt.run then r
  else r.forEach allRooms fun m r => (r.slotEvents m).pmcEnd m

/-- Back-pressure (R299). -/
def Run.bpEnd (r : Run) : Run :=
  r.forEach allPorches fun d r =>
    r.when (decide (512 ≤ (r.door d).kept.length) && !((r.door d).txq.isEmpty)) fun r => r.count32 (dorBase d + 0x38) 1

/-- The selected domain's residence (R492). -/
def Run.residence (r : Run) : Run :=
  let d := r.fld 0x30060 7 0
  let i : Fin 4 := fin4 (r.c.thm.pwr.toList.getD d .awake).depth
  r.modThm fun t => { t with res := t.res.set i.val (t.res[i] + 1) i.isLt }

/-- Edges of a clock of this period, in tenths of a nanosecond, in the cc that ends. -/
def Run.edges (r : Run) (period : Nat) : Nat := (r.now + r.c.ccLen) / period - r.now / period

/-- FT runs in holdover, from the crystal: in AUX, and without the fabric reference (R314, R410). -/
def Run.ftHeldOver (r : Run) : Bool := r.mode = .aux || !r.c.clk.ref156

/-- What FT advances by in this cc, in units of 10^-10 ns: 6.4 ns with the correction of TIM_RATE on each edge of the
fabric reference, and 40 ns on each edge of the crystal in holdover (R32, R314). -/
def Run.ftStep (r : Run) : Nat :=
  if r.ftHeldOver then r.edges 400 * (400 * 10 ^ 9) else r.edges 64 * (64 * (10 ^ 9 + r.c.time.rate)).toNat

/-- FT advances, a hold of R316 standing first; each edge of the fabric reference hands the value over to the core. -/
def Run.ftAdvance (r : Run) : Run :=
  let d := r.ftStep
  let hold := r.c.time.holdUnits
  let hands := !r.ftHeldOver && decide (0 < r.edges 64)
  let r := r.modTime fun t => { t with holdUnits := hold - d }
  let r := { r with c := { r.c with ft := (r.c.ft + (d - hold)) % (2 ^ 64 * 10 ^ 10) } }
  r.when hands fun r =>
    { r with c := { r.c with ftHand := r.c.ftHand ++ [(r.now + 4 * r.c.ccLen, r.c.ft)] } }

/-- The core's copy of FT (R491): one cc further, or the handshake value with its 3 cc of lag added; it holds where
that lies behind it, and during a hold of R316. While no core clock runs, it follows FT. -/
def Run.ftCopy (r : Run) : Run :=
  let cc := r.c.ccLen * 10 ^ 9
  let due := r.c.ftHand.filter fun h => decide (h.1 ≤ r.now + r.c.ccLen)
  let next := match due.getLast? with
    | some h => h.2 + 3 * cc
    | none => if 0 < r.c.time.holdUnits then r.c.ftNext else r.c.ftNext + cc
  let next := if r.coreRuns then next else r.c.ft
  { r with c := { r.c with
      ftNext := next, ftCore := max r.c.ftCore next,
      ftHand := r.c.ftHand.filter fun h => decide (r.now + r.c.ccLen < h.1) } }

/-- Edges of the DFI clock of a channel per µs: the DRAM clock divided by 4, at the data rate of R240 for its modules
(log entry 115, DESIGN CHOICE). -/
def Run.dfiMhz (r : Run) (c : Fin 16) : Nat := if !(r.chan c).mrdimm then 800 else if r.c.fuses.grade then 900 else 1100

/-- Edges of a clock of this frequency, in 1/1,024 MHz, in the cc that ends (R32). -/
def Run.edgesAt (r : Run) (f : Nat) : Nat := (r.now + r.c.ccLen) * f / 10240000 - r.now * f / 10240000

/-- The crossings, over one cc (R32, R488). -/
def Run.crossings (r : Run) : Run :=
  let e : FarEdges :=
    { link := r.edgesAt (1000 * 1024), dfi := fun c => r.edgesAt (r.dfiMhz c * 1024), pcs := r.edgesAt 850000,
      mg := r.edgesAt (250 * 1024) }
  { r with c := { r.c with xings := r.c.xings.cycle e } }

def Run.ftTick (r : Run) : Run := r.ftAdvance.ftCopy

/-- The clock moves on: the next cc, and the next slot. -/
def Run.clockOn (r : Run) : Run :=
  let core := r.coreRuns
  let r := { r with c := { r.c with now := r.c.now + r.c.ccLen, cc := if core then r.c.cc + 1 else r.c.cc,
                                    used := [], lanes := [], seen := [], pulsed := [], wrapped := [] } }
  r.when (core && r.c.tt.run) fun r => r.modTt fun t => { t with slot := t.slot + 1 }

/-- What has become possible in the cc that begins: BIRsp and BIConflictAck that waited, messages that waited for a
route, trackers, and jobs of all Rooms. -/
def Run.settleAll (r : Run) : Run :=
  if !r.mode.fabric then r
  else
    let r := r.forEach allPorches fun p r => r.forEach allLinks fun k r => r.confFlush p k
    let r := r.when r.c.tt.run fun r =>
      let r := r.forEach allPorches fun p r => r.forEach allLinks fun k r => r.biFlush p k
      r.forEach allRooms fun m r => r.cohPoll m
    r.flushWaiting.jobsCheck

/-- One cc: it ends for the counters and the Window, and the next one begins, in the Hallway first. -/
def tickRun (r : Run) : Run :=
  if r.mode = .off then r
  else
    let r := r.winSample.countersEnd.bpEnd.histEnd
    let r := r.when r.coreRuns fun r => r.residence.crossings
    ((r.ftTick.clockOn.wakesEnd.winPins).when r.coreRuns Run.hallway).settleAll

def tick (s : State) : State := Run.finish s (tickRun (Run.start s))

end Sys2Proof.Machine
end

