-- ==== Sys2Proof/Safety.lean ====
section
/-! DEFINITION. What counts as a safe run: one that stops with no fault and no refusal; the conditions and frames in
whose terms the statements speak; the invariant of the stores. -/
namespace Sys2Proof.Safety
open Sys2Proof Sys2Proof.Machine

/-- A step that neither faults nor is refused. -/
def stepSafe (s : State) : Prop := ∃ t, Machine.step s = .next t

/-- The states that some steps lead to from `s`. -/
inductive Reaches : State → State → Prop
  | refl (s : State) : Reaches s s
  | tail {s t u : State} : Reaches s t → Machine.step t = .next u → Reaches s u

/-- Every state that is reached can step. -/
def runSafe (s : State) : Prop := ∀ t, Reaches s t → stepSafe t

/-- A slot of calendar `k` can be granted to a code in this cc. -/
abbrev slotFor (s : State) (k code : Nat) : Prop := (Run.start s).canGrant k code = true

/-- Lines in DRAM and behind the remap tables, tags, Screen, directory, keys and frame map are unchanged. -/
def keepsCells (s t : State) : Prop :=
  t.m.dram = s.m.dram ∧ t.m.remap = s.m.remap ∧ t.m.tags = s.m.tags ∧ t.m.plru = s.m.plru ∧ t.m.scn = s.m.scn ∧
    t.m.dir = s.m.dir ∧ t.m.keys = s.m.keys ∧ t.m.frames = s.m.frames ∧ t.m.pan = s.m.pan

/-- The Hallway is unchanged: what waits for a slot, what is on its way, and what has come to a Room's entry. -/
def keepsHall (s t : State) : Prop := t.c.hall = s.c.hall ∧ t.c.wait = s.c.wait ∧ t.c.fly = s.c.fly

/-- Rooms, channels, Doors, the Hallway, the Fuse box, the mode and the Timetable are unchanged. -/
def keepsUnits (s t : State) : Prop :=
  t.c.rooms = s.c.rooms ∧ t.c.chans = s.c.chans ∧ t.c.doors = s.c.doors ∧ keepsHall s t ∧ t.c.fbx = s.c.fbx ∧
    t.c.mod = s.c.mod ∧ t.c.tt = s.c.tt

/-- Every other Room is unchanged. -/
def onlyRoom (s t : State) (m : Fin 64) : Prop := ∀ n : Fin 64, n ≠ m → t.c.rooms[n] = s.c.rooms[n]

/-! ## Crossings and the Hallway -/

/-- The crossings once the core has taken a packet of `n` words out of one. -/
def tookFrom (s : State) (i : XingId) (n : Nat) : Xings := s.c.xings.mod i fun x => x.took n

/-- The crossings once the core has sent a packet of `n` words into one. -/
def sentInto (s : State) (i : XingId) (n : Nat) : Xings := s.c.xings.mod i fun x => x.send n

/-- The core has taken a register request of port g out of its crossing. -/
def heard (s : State) (g : MgPort) : Ctl := { s.c with xings := tookFrom s (.regReq g) 1 }

/-- And has sent its answer: the word `w` at address `a`. -/
def told (s : State) (g : MgPort) (a : Nat) (w : Word) : Ctl :=
  { s.c with xings := (tookFrom s (.regReq g) 1).mod (.regRsp g) fun x => x.send 1,
             out := { s.c.out with mgmt := s.c.out.mgmt ++ [(g, a, w)] } }

/-- The bounds of a dual-clock FIFO `depth` words deep: its pointers count its words, what each side still sees of the
other's pointer lies behind it, the write side never sees room that is not there, and the packet counter counts the end
marks that the synchronised write pointer has passed. -/
def Xing.sound (depth : Nat) (x : Xing) : Prop :=
  (x.wr - x.rd).toNat = x.words.length ∧
    x.words.length + (x.rd - ungray x.rdSync.2).toNat ≤ depth ∧
    (x.rd - ungray x.rdSync.1).toNat ≤ (x.rd - ungray x.rdSync.2).toNat ∧
    (x.wr - ungray x.wrSync.2).toNat ≤ x.words.length ∧
    (x.wr - ungray x.wrSync.1).toNat ≤ (x.wr - ungray x.wrSync.2).toNat ∧
    x.packets = ((x.words.take (ungray x.wrSync.2 - x.rd).toNat).filter id).length ∧
    (x.popping = true → 0 < x.packets)

/-- A transfer apart from what may befall it on its way. -/
def Fly.clean (f : Fly) : Fly := { f with bad := false }

/-- A transfer leaves the stop of calendar `k` for that of calendar `j`, which can use it when the path has been paid for;
it is damaged when it meets another of the same cc on a lane. -/
def setsOut (s t : State) (k j : Nat) (x : Load) (queued : Bool) : Prop :=
  ∃ fs f, t.c.fly = fs ++ [f] ∧ fs.map Fly.clean = s.c.fly.map Fly.clean ∧
    Fly.clean f = { no := s.c.flyNo, queued := queued, k := k, dst := j,
                    due := s.c.cc + hallCost (hallPath k j).length, load := x } ∧
    f.bad = s.c.lanes.any (fun l => (pathSteps (hallPath k j)).contains (l.1, l.2.1)) ∧ t.c.flyNo = s.c.flyNo + 1 ∧
    t.c.wait = s.c.wait

/-- A transfer joins those that wait at the stop of calendar `k` for a slot of `code`; nothing leaves. -/
def waits (s t : State) (k code : Nat) (x : Load) (retire : Option Src) : Prop :=
  t.c.wait = s.c.wait ++ [{ k := k, code := code, load := x, retire := retire }] ∧ t.c.fly = s.c.fly

/-- A message to a House joins those that wait at the stop of calendar `k`. -/
def msgWaits (s t : State) (k code : Nat) (retire : Option Src) (dst : BitVec 6) (op : BitVec 8) (p : FMsg → Prop) : Prop :=
  ∃ f stamp, waits s t k code (.msg f stamp) retire ∧ f.dst = dst ∧ f.op = op ∧ p f

/-! ## Requests at the Porches -/

/-- A request apart from what the Porch notes of it on its way: that another Room holds it back, that it is issued again,
when it made its pass. -/
def Ent.bare (e : Ent) : Ent := { e with held := false, reissue := false, passAt := none }

/-- Every Porch is as it was, but for what it notes of its requests on their way; requests that have completed and that
their Room has retired may leave. -/
def keepsRequests (s t : State) : Prop :=
  ∀ p : Fin 8, t.c.porches[p] = { s.c.porches[p] with store := (t.c.porches[p]).store } ∧
    ((∀ e ∈ (s.c.porches[p]).store, (e.sent && e.retired) = false) →
      (t.c.porches[p]).store.map Ent.bare = (s.c.porches[p]).store.map Ent.bare)

/-! ## The Cellar -/

/-- The line at a place has become `x`: in DRAM, or in the remap line that stands for it. -/
def storesLine (s t : State) (c : Fin 16) (idx : Nat) (x : Line) : Prop :=
  match (s.c.chans[c]).remapOf idx with
  | some i => t.m.remap = mset Line.unwritten s.m.remap (c.val * 8 + i.val) x ∧ t.m.dram = s.m.dram
  | none => t.m.dram = mset Line.unwritten s.m.dram (dramKey c idx) x ∧ t.m.remap = s.m.remap

/-- The DRAM commands that an access to a line drives: none for a remapped line. -/
def dramCmds (s : State) (c : Fin 16) (write : Bool) (idx : Nat) : List Ddr :=
  if ((s.c.chans[c]).remapOf idx).isSome then [] else (s.c.chans[c]).access c write idx

/-- The access has driven its commands and nothing else; the line of a write has gone into its crossing. -/
def drives (s t : State) (c : Fin 16) (write : Bool) (idx : Nat) : Prop :=
  t.c.out = { s.c.out with ddr := s.c.out.ddr ++ dramCmds s c write idx } ∧
    t.c.xings = if write then sentInto s (.celWrite c) 3 else s.c.xings

/-- The source is a reservation operation. -/
def srcRsv : Src → Bool
  | .rsv _ _ _ _ => true
  | _ => false

/-- The request has still to be injected, and has not been counted as held. -/
def Ent.mayBeHeld (e : Ent) : Bool := e.stage = .waiting && e.ans.isNone && !e.held

/-- Nothing waits at Porch p for what a completion would free: no buffered request, no barrier, no reservation
operation, and no request that a completion could hold behind another Room. -/
abbrev quietPorch (s : State) (p : Fin 8) : Prop :=
  (∀ k : Fin 2, (s.c.porches[p]).links[k].buf = []) ∧ (s.c.porches[p]).bars = [] ∧
    ∀ e ∈ (s.c.porches[p]).store, srcRsv e.item.src = false ∧ Ent.mayBeHeld e = false

/-- No request is buffered at Porch p. -/
abbrev noBuffer (s : State) (p : Fin 8) : Prop := ∀ k : Fin 2, (s.c.porches[p]).links[k].buf = []

/-- Room m is up, and no coherence tracker, held snoop or Screen repair of it is under way. -/
abbrev quietRoom (s : State) (m : Fin 64) : Prop :=
  let y := s.c.rooms[m]
  (Run.start s).fenced (unitRoom m) = false ∧ y.cohs = [] ∧ y.snoopQ = [] ∧ y.scnBad = []

/-- Room m is quiet and holds nothing: no tracker, waiter, write, Mudroom line, reservation, transfer, rebuild or sweep;
and its write buffer can take a write. -/
abbrev idleRoom (s : State) (m : Fin 64) : Prop :=
  let y := s.c.rooms[m]
  quietRoom s m ∧ y.closed = false ∧ y.trks = [] ∧ y.waiters = [] ∧ y.wbuf = [] ∧ y.mud = [] ∧ y.rsvs = [] ∧ y.outC = [] ∧
    y.fabOut = [] ∧ y.copyWait = [] ∧ y.rebuilds = [] ∧ y.sweep = none ∧ y.markers = [] ∧ (Run.start s).wbFull m = false

/-- House e is not dead, and its messages go by Door d. -/
abbrev routed (s : State) (e : BitVec 6) (d : Fin 8) : Prop :=
  (Run.start s).dead e = false ∧ (Run.start s).route e = .go d

/-- A message to House e leaves at once by Door d. -/
abbrev routeTo (s : State) (e : BitVec 6) (d : Fin 8) : Prop := routed s e d ∧ s.c.fab.waiting = []

/-- What Door d has queued since is exactly one message of this operation to House e. -/
def queuedOn (s t : State) (d : Fin 8) (e : BitVec 6) (op : BitVec 8) (p : FMsg → Prop) : Prop :=
  ∃ f, (t.c.doors[d]).txq = (s.c.doors[d]).txq ++ msgFrames f ∧ f.op = op ∧ f.dst = e ∧ p f

/-- The block takes part in nothing here: it was not adopted from another Room or House, and no granule of it has a
Screen entry. -/
abbrev plainBlock (s : State) (m : Fin 64) (b : Block) (a : Attr) : Prop :=
  let r := Run.start s
  r.adopted m b a = false ∧ ((blkGrans b).all fun g => (r.scnFind m g).isNone) = true

/-- An event of this code and source has been reported. -/
def reportedIn (s t : State) (code src : Nat) : Prop :=
  ∃ e, t.c.fbx.reported = s.c.fbx.reported ++ [e] ∧ e.code = code ∧ e.src = src

/-- An event of this code and source has been reported, after any others. -/
def reportedLast (s t : State) (code src : Nat) : Prop :=
  ∃ es e, t.c.fbx.reported = s.c.fbx.reported ++ es ++ [e] ∧ e.code = code ∧ e.src = src

/-! ## Management -/

/-- The registers are in service, no image load holds the configuration, and no commit lap runs. -/
abbrev mgmtReady (s : State) : Prop :=
  s.c.mod.mode ≠ .off ∧ s.c.mod.mode ≠ .aux ∧ s.c.img.busy = false ∧ s.c.crc.busy = false

/-- The register at a holds v, and no other register has changed. -/
def regIs (s t : State) (a : Nat) (v : Word) : Prop := t.m.regs = mset (regReset a) s.m.regs a v

/-- The registers are in service, and no image load holds the configuration. -/
abbrev mgmtOpen (s : State) : Prop := s.c.mod.mode ≠ .off ∧ s.c.mod.mode ≠ .aux ∧ s.c.img.busy = false

/-- No register but the one at a has changed, and no memory or table has. -/
def onlyReg (s t : State) (a : Nat) : Prop := t.m = { s.m with regs := t.m.regs } ∧ ∀ b, b ≠ a → t.m.reg b = s.m.reg b

/-- Both management ports have the vector, and both copies of its cause. -/
def vectorIn (s t : State) (v : Nat) : Prop := t.c.mgA = s.c.mgA.raise v ∧ t.c.mgB = s.c.mgB.raise v

/-! ## The stores -/

/-- Every table has its canonical form. -/
abbrev Memory.wf (m : Stores) : Prop :=
  mwf regReset m.regs = true ∧ mwf (fun _ => Line.unwritten) m.dram = true ∧
    mwf (fun _ => Line.unwritten) m.remap = true ∧ mwf (fun _ => ({} : TagEnt)) m.tags = true ∧
    mwf (fun _ => 0) m.plru = true ∧ mwf (fun _ => ({} : ScnEnt)) m.scn = true ∧
    mwf (fun _ => ({} : DirEnt)) m.dir = true ∧ mwf (fun _ => 0) m.keys = true ∧ mwf (fun _ => 0) m.pmc = true ∧
    mwf (fun _ => false) m.pmcPrev = true ∧ mwf (fun _ => 0) m.hist = true ∧ mwf (fun _ => 0) m.mtr = true ∧
    mwf (fun _ => 0) m.occ = true ∧ mwf (fun _ => 0) m.occFt = true ∧ mwf (fun _ => 0) m.frames = true ∧
    mwf (fun _ => false) m.pan = true

/-- The stores of a state are in canonical form. -/
abbrev storesWf (s : State) : Prop := Memory.wf s.m

/-- No register word holds a bit that it does not implement. -/
def regsMasked (s : State) : Prop := ∀ e ∈ s.m.regs, e.2 &&& regMask e.1 = e.2

/-- The invariant of the stores. -/
def storesInv (s : State) : Prop := storesWf s ∧ regsMasked s

end Sys2Proof.Safety
end

