-- ==== Sys2Proof/Certificates/Slice0/Obligations.lean ====
section
/-! DEFINITION. The statements for the provers. `Sys2Proof.Claim` holds them one by one, each with the rules it follows;
an obligation is one of them, or several of one part of the House taken together. A statement about a command says what the
command does and what it leaves unchanged. -/
namespace Sys2Proof.Claim
open Sys2Proof Sys2Proof.Machine Sys2Proof.Safety

/-- What admission leaves of a request that passed its checks: it has come out of its link's crossing, and waits at the
Porch for injection. -/
def AdmittedAs (i : Instr) (q : HostReq) (op : ROp) : Prop :=
  ∀ (s : State) (pa : PoolAddr) (a : Attr), let r := Run.start s
    (r.link q.p q.k).up = true → r.mode ≠ .drain → r.check q = .ok pa a → (r.porch q.p).store.length < 2048 →
    r.oidWaits q.p (r.ordId q.p a.tenant (paBlock pa)) = false → toLanding op q.meta' a = false →
    (isRead op = true → (r.porch q.p).hasLand (paLine pa) = false) → (op = .memWrPtl → q.be ≠ 0) →
    ∃ t, exec i s = .next t ∧
      (∃ es e, (t.c.porches[q.p]).store = es ++ [e] ∧ es.map Ent.bare = (s.c.porches[q.p]).store.map Ent.bare ∧
        e.k = q.k ∧ e.tag = q.tag ∧ e.hpa = q.hpa ∧ e.item = r.mkItem q op pa a (r.porch q.p).nextUid ∧
        e.room = r.roomOf (paBlock pa) ∧ e.stage = .waiting ∧ e.ans = none ∧ e.sent = false) ∧
      t.c.xings = tookFrom s (.ingress q.p q.k) (msgWords (isWrite op)) ∧ t.c.out = s.c.out ∧ keepsUnits s t ∧ keepsCells s t

/-- R177, R332: a request that passes every check is admitted. -/
def CheckedRequestIsAdmitted : Prop :=
  ∀ q, AdmittedAs (.memRd q) q .memRd ∧ AdmittedAs (.memRdData q) q .memRdData ∧ AdmittedAs (.memInv q) q .memInv ∧
    AdmittedAs (.memClnEvct q) q .memClnEvct ∧ AdmittedAs (.memWr q) q .memWr ∧ AdmittedAs (.memWrPtl q) q .memWrPtl

/-- R332: MemSpecRd that passes checks 1 and 2 goes no further: nothing changes but its link's crossing, and it gets no
response. On a link that is down nothing arrives. -/
def SpeculativeReadIsDropped : Prop :=
  ∀ s q, let up := ((Run.start s).link q.p q.k).up
    (up = true → (s.c.porches[q.p]).opened = true → s.c.mod.mode ≠ .safe → q.tee = false → q.rsvd = false →
      exec (.memSpecRd q) s = .next { s with c := { s.c with xings := tookFrom s (.ingress q.p q.k) 1 } }) ∧
    (up = false → exec (.memSpecRd q) s = .next s)

/-- R333: a read that fails a check is answered with poison, and counted. -/
def RefusedReadIsCountedAndPoisoned : Prop :=
  ∀ s q n pa, let r := Run.start s
    (r.link q.p q.k).up = true → r.mode ≠ .drain → r.check q = .fail n pa →
    ∃ t, exec (.memRd q) s = .next t ∧
      (t.c.porches[q.p]).refused = (s.c.porches[q.p]).refused ++ [{ k := q.k, tag := q.tag, read := true, poison := true }] ∧
      (t.c.porches[q.p]).store = (s.c.porches[q.p]).store ∧
      (t.m.reg (pchBase q.p + 0x100 + 4 * n.val)).toNat = min 0xFFFFFFFF (r.reg (pchBase q.p + 0x100 + 4 * n.val) + 1) ∧
      t.c.rooms = s.c.rooms ∧ t.c.chans = s.c.chans ∧ keepsHall s t ∧ keepsCells s t

/-- R115: a Streaming write without a host copy takes the Landing: a Free entry opens for its line, and the write
completes at the Porch. -/
def StreamingWriteOpensLanding : Prop :=
  ∀ (s : State) (q : HostReq) (pa : PoolAddr) (a : Attr), let r := Run.start s
    let x := r.porch q.p
    (r.link q.p q.k).up = true → r.mode ≠ .drain → r.check q = .ok pa a → x.store.length < 2048 → x.lands = [] →
    takenIn x.lndFreed s.c.cc 0 < 128 → (x.store.any fun e => e.landWait) = false →
    r.oidWaits q.p (r.ordId q.p a.tenant (paBlock pa)) = false → toLanding .memWr q.meta' a = true →
    ∃ t, exec (.memWr q) s = .next t ∧
      (∃ l, (t.c.porches[q.p]).lands = [l] ∧ l.line = paLine pa ∧ l.data = placeData q.data (paChunk pa) ∧
        l.mask = placeMask (BitVec.allOnes 64) (paChunk pa) ∧ l.poison = q.poison ∧ l.draining = false) ∧
      (∃ es e, (t.c.porches[q.p]).store = es ++ [e] ∧ es.map Ent.bare = x.store.map Ent.bare ∧ e.tag = q.tag ∧
        e.ans = some .done) ∧
      t.c.xings = tookFrom s (.ingress q.p q.k) 2 ∧ keepsUnits s t ∧ keepsCells s t

/-- R179, R180: the oldest request that may be injected sets out over the Hallway to the Room that serves its block. -/
def InjectionSendsToServingRoom : Prop :=
  ∀ s p sel e, let r := Run.start s
    ((r.porch p).store.find? fun e => (if sel = 0x55 then e.reissue else e.item.attr.cls.toNat = sel) && r.canInject p e) = some e →
    (sel = 0x55 → ((r.porch p).landSent.any fun d => r.canResend p d) = false) → slotFor s (64 + p.val) sel → noBuffer s p →
    ∃ t, exec (.requestInject p sel) s = .next t ∧
      setsOut s t (64 + p.val) (72 + (r.serving e.room).val) (.item p (r.serving e.room) e.item) false ∧
      (∀ e' ∈ (t.c.porches[p]).store, e'.uid = e.uid → e'.stage = .injected) ∧ (64 + p.val, sel) ∈ t.c.used ∧
      t.c.hall = s.c.hall ∧ t.c.rooms = s.c.rooms ∧ t.c.chans = s.c.chans ∧ t.c.out = s.c.out ∧ t.m = s.m

/-- R116, R132: the oldest eligible Landing entry becomes Draining and sets out for its Room, by way of the drain queue, as
one write of its line. -/
def LandingDrainSendsOneWrite : Prop :=
  ∀ s p e, let r := Run.start s
    ((r.porch p).landSent.any fun d => r.canResend p d) = false →
    ((r.porch p).lands.find? fun e => r.landEligible p e) = some e → slotFor s (64 + p.val) 0x54 →
    ∃ t it, exec (.landingDrain p) s = .next t ∧
      setsOut s t (64 + p.val) (72 + (r.serving e.room).val) (.item p (r.serving e.room) it) true ∧
      (t.c.porches[p]).drainQ = { (s.c.porches[p]).drainQ with lines := (s.c.porches[p]).drainQ.lines ++ [(s.c.flyNo, 4)] } ∧
      it.pa = linePa e.line ∧ it.data = e.data ∧ it.mask = e.mask ∧ it.poison = e.poison ∧ it.src = .land e.seq p ∧
      (t.c.porches[p]).lands = ((s.c.porches[p]).lands.map fun x => if x.seq = e.seq then { x with draining := true } else x) ∧
      t.c.hall = s.c.hall ∧ t.c.rooms = s.c.rooms ∧ t.c.out = s.c.out ∧ t.m = s.m

/-- R117: an acceptance that has come back frees its Landing entry. -/
def AcceptanceFreesLandingEntry : Prop :=
  ∀ s p n rest, (s.c.porches[p]).lndAcks = n :: rest → quietPorch s p →
    ∃ t, exec (.landingEntryFree p) s = .next t ∧
      (t.c.porches[p]).lands = ((s.c.porches[p]).lands.filter fun e => e.seq ≠ n) ∧ (t.c.porches[p]).lndAcks = rest ∧
      t.c.rooms = s.c.rooms ∧ keepsHall s t ∧ t.c.out = s.c.out ∧ t.m = s.m

/-- R342: in its slot the oldest answered response of a class that is in turn leaves on its link, once. -/
def ResponseLeavesOnItsLink : Prop :=
  ∀ s p sel e a, let r := Run.start s
    sel < 64 → r.nextResponse p sel = some (e, a) → slotFor s (184 + p.val) sel → quietPorch s p →
    ∃ t, exec (.responseReturn p sel) s = .next t ∧
      (a = .done → t.c.out.host = s.c.out.host ++ [.ndr p e.k e.tag] ∧ t.c.xings = sentInto s (.egress p e.k) 1) ∧
      (∀ d, a = .data d false → t.c.out.host = s.c.out.host ++ [.drs p e.k e.tag d false] ∧
        t.c.xings = sentInto s (.egress p e.k) 2) ∧
      (∀ e' ∈ (t.c.porches[p]).store, e'.uid = e.uid → e'.sent = true) ∧ t.c.rooms = s.c.rooms ∧ keepsHall s t ∧
      keepsCells s t

/-- R17, R211: in its slot a stop of the Hallway sends the oldest transfer that waits there for it. -/
def WaitingTransferLeaves : Prop :=
  ∀ s (k code : Nat) x, let r := Run.start s
    r.nextXfer k code = some x → (s.c.slots.find? fun y => y.1 = k) = some (k, code) → x.k = k →
    (∀ f t, x.load ≠ .msg f t) → (∀ m f d, x.load ≠ .room m f d) → x.retire = none →
    let t := Run.finish s (r.inject1 k)
    setsOut { s with c := { s.c with wait := s.c.wait.erase x } } t k (x.load.dest 0) x.load false ∧ (k, code) ∈ t.c.used ∧
      t.c.rooms = s.c.rooms ∧ t.c.porches = s.c.porches ∧ t.c.out = s.c.out ∧ t.m = s.m

/-- R17, R69, R105, R179: what arrives does what it came for: a request waits at its Room's entry, an answer is with its
Porch, a command is in its channel's queue, a return is at its Room. R236: what has met another transfer on a lane is
poison. -/
def TransfersArrive : Prop :=
  ∀ s (f : Fly), let t := Run.finish s ((Run.start s).arrive f)
    (∀ p m it, f.load = .item p m it → f.bad = false → t = { s with c := { s.c with hall := s.c.hall ++ [⟨p, m, it⟩] } }) ∧
    (∀ uid p k a, f.load = .ans (.host uid p k) a →
      ∀ e ∈ (s.c.porches[p]).store, e.uid = uid → e.ans = none → e.gone = false → e.sent = false →
        ∃ e' ∈ (t.c.porches[p]).store, e'.uid = uid ∧ e'.stage = .atPorch ∧
          e'.ans = some (if f.bad then a.hurt else a)) ∧
    (∀ c x, f.load = .cel c x → f.bad = false →
      t.c.chans[c] = { s.c.chans[c] with queue := (s.c.chans[c]).queue ++ [x] } ∧ t.m = s.m) ∧
    (∀ c x, f.load = .cel c x → f.bad = true → x.write = true →
      t.c.chans[c] = { s.c.chans[c] with
        queue := (s.c.chans[c]).queue ++ [{ x with md := { x.md with poison := true } }] } ∧ t.m = s.m) ∧
    (∀ m i d p, f.load = .ret m (.mud i d p) →
      t.c.rooms[m] = { s.c.rooms[m] with returns := (s.c.rooms[m]).returns ++ [.mud i d (p || f.bad)] } ∧ t.m = s.m)

/-- R63, R106: a host read of a home line that no buffer holds waits at its Room's stop for its way to the line's
channel. -/
def HomeReadGoesToItsChannel : Prop :=
  ∀ s m p it uid p' k, let r := Run.start s
    let b := paBlock it.pa
    let (c, idx) := r.homePlace b (paLineNo it.pa)
    idleRoom s m → (s.c.hall.find? fun h => h.p = p && h.m = m) = some ⟨p, m, it⟩ → slotFor s m.val (0x40 + p.val) →
    it.src = .host uid p' k → it.op = .memRd → it.meta' = .noOp → it.bcast = false → it.attr.kind = kindDirect →
    it.attr.mirror = false → r.isHome b = true → plainBlock s m b it.attr → r.scnFind m (paGran it.pa) = none →
    r.lostChan c = false →
    ∃ t x, exec (.roomEntry m p {}) s = .next t ∧
      t.c.hall = (s.c.hall.eraseP fun h => h.p = p && h.m = m) ∧ (t.c.rooms[m]).outC = [.cmd c x] ∧
      x.write = false ∧ x.idx = idx ∧ x.pa = linePa (paLine it.pa) ∧ x.purpose = some (.item m it true) ∧
      (t.c.rooms[m]).waiters = [] ∧ onlyRoom s t m ∧ t.c.wait = s.c.wait ∧ t.c.chans = s.c.chans ∧ keepsRequests s t ∧
      keepsCells s t

/-- R19, R102: a host write of a home line is accepted into the Room's write buffer, and its completion waits at once for
its way back to the Porch. -/
def HomeWriteIsAccepted : Prop :=
  ∀ s m p it uid p' k, let r := Run.start s
    let b := paBlock it.pa
    idleRoom s m → (s.c.hall.find? fun h => h.p = p && h.m = m) = some ⟨p, m, it⟩ → slotFor s m.val (0x40 + p.val) →
    it.src = .host uid p' k → it.op = .memWr → it.meta' = .noOp → it.bcast = false → it.attr.kind = kindDirect →
    it.attr.mirror = false → r.isHome b = true → plainBlock s m b it.attr → r.scnFind m (paGran it.pa) = none →
    ∃ t w, exec (.roomEntry m p {}) s = .next t ∧ (t.c.rooms[m]).wbuf = [w] ∧ w.line = paLine it.pa ∧
      w.data = it.data ∧ w.mask = it.mask ∧ w.poison = it.poison ∧ w.home = true ∧ w.st = .open' ∧
      waits s t (72 + m.val) 0x56 (.ans it.src .done) none ∧ onlyRoom s t m ∧ t.c.chans = s.c.chans ∧ keepsRequests s t ∧
      keepsCells s t

/-- R74: a waiter whose line came while it waited takes its answer when it re-enters, and leaves. -/
def AnsweredWaiterCompletes : Prop :=
  ∀ s m w d bad uid p k, let r := Run.start s
    (s.c.rooms[m]).waiters = [w] → quietRoom s m → (s.c.rooms[m]).trks = [] → r.ready m w = true → slotFor s m.val 0x51 →
    w.ans = some (d, bad) → w.item.src = .host uid p k → w.item.op = .memRd → w.item.meta' = .noOp →
    ∃ t, exec (.waiterReentry m 0 {}) s = .next t ∧ (t.c.rooms[m]).waiters = [] ∧
      waits s t (72 + m.val) 0x56 (.ans w.item.src (.data (chunkOf d (paChunk w.item.pa)) bad)) (some w.item.src) ∧
      onlyRoom s t m ∧ t.c.chans = s.c.chans ∧ keepsRequests s t

/-- R66: the line of a victim that comes back makes its Mudroom entry Ready, newer bytes over the line. -/
def VictimLineBecomesReady : Prop :=
  ∀ s m i d p rest e,
    (s.c.rooms[m]).returns = .mud i d p :: rest → quietRoom s m → slotFor s m.val 0x53 →
    ((s.c.rooms[m]).mud.find? fun e => e.idx = i && e.st = .loading) = some e → (s.c.rooms[m]).trks = [] →
    ∃ t e', exec (.nearCopyReadReturn m) s = .next t ∧ (t.c.rooms[m]).returns = rest ∧ e' ∈ (t.c.rooms[m]).mud ∧
      e'.line = e.line ∧ e'.st = .ready ∧ e'.data = mergeLine d e.data e.wmask ∧
      e'.poison = (e.poison || (p && e.wmask ≠ fullMask)) ∧ t.m.dram = s.m.dram ∧ t.c.chans = s.c.chans

/-- R93: a rebuild that finds no shadow naming the entry leaves it Invalid, and logs TAG_REBUILT. -/
def RebuildWithoutShadowInvalidates : Prop :=
  ∀ s m x rest (errs : Vector ErrPat 16), let r := Run.start s
    (s.c.rooms[m]).rebuilds = x :: rest → r.fenced (unitRoom m) = false → r.wayBusy m x.set x.way = false →
    (∀ l : Fin 16, (r.shadowAt m x.set x.way l errs[l]).all fun y => decide (y.1.state ≠ 2)) →
    ∃ t, exec (.tagRebuild m errs) s = .next t ∧ (t.c.rooms[m]).rebuilds = rest ∧
      t.m.tags = merase s.m.tags (tagKey m x.set x.way) ∧ reportedLast s t Code.tagRebuilt (m.val / 16) ∧
      t.m.dram = s.m.dram

/-- R244: a write of a Room's command queue stores its line when it issues, and drives its commands. -/
def IssuedWriteStoresItsLine : Prop :=
  ∀ s c sel i x, let r := Run.start s
    r.fenced (unitChan c) = false → r.fenced sel = false → r.nextCmd c sel = some (i, x) → x.write = true →
    slotFor s (160 + c.val) (0x80 + sel) →
    ∃ t, exec (.cellarCommandIssue c sel) s = .next t ∧ (t.c.chans[c]).queue = (s.c.chans[c]).queue.eraseIdx i ∧
      storesLine s t c x.idx (r.encrypt x.tenant x.pa x.data x.md) ∧ drives s t c true x.idx ∧
      t.m.tags = s.m.tags ∧ t.m.regs = s.m.regs ∧ t.c.porches = s.c.porches

/-- R244: a read that issues takes the line as it stands, and is in flight. -/
def IssuedReadIsInFlight : Prop :=
  ∀ s c sel i x, let r := Run.start s
    r.fenced (unitChan c) = false → r.fenced sel = false → r.nextCmd c sel = some (i, x) → x.write = false →
    slotFor s (160 + c.val) (0x80 + sel) →
    ∃ t, exec (.cellarCommandIssue c sel) s = .next t ∧ (t.c.chans[c]).queue = (s.c.chans[c]).queue.eraseIdx i ∧
      (t.c.chans[c]).flight = (s.c.chans[c]).flight ++ [{ x with issuedAt := s.c.now, got := some (r.line c x.idx) }] ∧
      drives s t c false x.idx ∧ t.c.rooms = s.c.rooms ∧ t.c.porches = s.c.porches ∧ keepsCells s t

/-- R252: a home read that meets no error comes out of its channel's crossing, and the line's chunk waits for its way back
to the Porch. -/
def CleanReadAnswersItsRequest : Prop :=
  ∀ s c x m it uid p k line y, let r := Run.start s
    (s.c.chans[c]).flight = [x] → r.fenced (unitChan c) = false → r.fenced (unitRoom m) = false → s.c.tt.run = true →
    x.got = some line → x.purpose = some (.item m it true) → x.near = none →
    r.decode c ((s.c.chans[c]).rankOf x.idx) line {} = some y → y.md.state = 1 → it.src = .host uid p k → it.op = .memRd →
    ∃ t, exec (.cellarReadDone c 0 {}) s = .next t ∧ (t.c.chans[c]).flight = [] ∧
      waits s t (136 + c.val) 0x56 (.ans it.src (.data (chunkOf (r.decrypt x.tenant x.pa y) (paChunk it.pa)) y.md.poison))
        (some it.src) ∧
      t.c.xings = tookFrom s (.celRead c) 3 ∧ t.c.rooms = s.c.rooms ∧ t.c.porches = s.c.porches ∧ t.m = s.m

/-- R255: an idle slot rewrites the oldest Pending line of the repeat corrector: the write's commands go out, and it is
counted. -/
def RepeatCorrectorRewrites : Prop :=
  ∀ s c e, let r := Run.start s
    r.fenced (unitChan c) = false →
    ((s.c.chans[c]).cam.find? fun e => e.st = .pending && r.idleFits c true e.line) = some e →
    ∃ t, exec (.repeatCorrectWrite c) s = .next t ∧
      (t.c.chans[c]).cam = ((s.c.chans[c]).cam.map fun x => if x.line = e.line then { x with st := .rewritten } else x) ∧
      drives s t c true e.line ∧
      (t.m.reg (celBase c + 0x2C)).toNat = min 0xFFFFFFFF (r.reg (celBase c + 0x2C) + 1) ∧
      (160 + c.val, 0xFF) ∈ t.c.used ∧ t.c.rooms = s.c.rooms ∧ keepsCells s t

/-- R261: the poison rewrite writes the line's own data with POISON = 1. -/
def PoisonRewriteMarksTheLine : Prop :=
  ∀ s c i, let r := Run.start s
    r.fenced (unitChan c) = false → ((s.c.chans[c]).poisonQ.find? fun i => r.idleFits c true i) = some i →
    ∃ t x, exec (.poisonRewrite c) s = .next t ∧ storesLine s t c i x ∧
      x.md.poison = true ∧ x.data = (r.line c i).data ∧ x.crypt = (r.line c i).crypt ∧ drives s t c true i ∧
      (t.c.chans[c]).poisonQ = ((s.c.chans[c]).poisonQ.filter fun j => j ≠ i) ∧ t.c.rooms = s.c.rooms ∧ t.m.tags = s.m.tags

/-- R488, R490: a crossing never holds more words than it has places, whatever the edges of the two clocks; a full one
takes no word; and a word is popped only when the whole of its packet is known to be there. -/
def CrossingsKeepTheirPackets : Prop :=
  (∀ (depth far : Nat) (x : Xing), depth ≤ 64 → Xing.sound depth x →
    Xing.sound depth (x.outCycle depth far) ∧ Xing.sound depth (x.inCycle depth far) ∧ x.words.length ≤ depth) ∧
  (∀ (depth n : Nat) (x : Xing), Xing.sound depth x → Xing.sound depth (x.send n) ∧ (x.send n).words = x.words) ∧
  (∀ (depth : Nat) (x : Xing), depth ≤ 64 → Xing.sound depth x → x.words.length = depth → (x.wrEdge depth).words = x.words) ∧
  ∀ (depth : Nat) (x : Xing), depth ≤ 64 → Xing.sound depth x → x.rdEdge.words ≠ x.words →
    true ∈ x.words.take (ungray x.wrSync.2 - x.rd).toNat

/-- R243: no two lines of a channel lie at one place. R245, R246: each bit of a line belongs to one symbol of one device,
so errors in one symbol leave every other as it was. R247: a metadata word tells its fields, and its SCHK agrees. R249, R250:
a line is read as it was written when its metadata word comes without error and errors and erasures are within the code's
reach; beyond it, nothing is. -/
def LinesLieInDram : Prop :=
  (∀ (x : Chan) (i j : Nat), i < 2 ^ (11 + x.rankBits + if x.dens then 17 else 16) →
    j < 2 ^ (11 + x.rankBits + if x.dens then 17 else 16) → x.place i = x.place j → i = j) ∧
  (∀ (x : Raw) (a b : Nat) (v : BitVec 16), a < 160 → b < 160 →
    (x.flip a v).sym b = if a = b then x.sym b ^^^ v else x.sym b) ∧
  (∀ md, metaOf (metaWord md) = md ∧ schkOk (metaWord md) = true) ∧
  ∀ (x : Line) mark e, x.rawWord e = metaWord x.md →
    x.decode mark e = if decodes x.md.lcode mark e then some x else none

/-- R105: a whole home line drains as one write that sets out for its channel. -/
def WholeHomeLineDrains : Prop :=
  ∀ s m w, let r := Run.start s
    let (c, idx) := r.homePlace (lineBlk w.line) (lineNo w.line)
    (s.c.rooms[m]).wbuf = [w] → r.wbEligible m w = true → r.fenced (unitRoom m) = false → slotFor s (72 + m.val) 0x57 →
    w.home = true → w.fwd = false → w.mask = fullMask → r.lostChan c = false → w.owners = [] →
    ∃ t x, exec (.wbDrain m 0) s = .next t ∧ setsOut s t (72 + m.val) (136 + c.val) (.cel c x) false ∧ x.write = true ∧
      x.idx = idx ∧ x.data = w.data ∧ x.md.poison = w.poison ∧ x.pa = linePa w.line ∧
      (∃ w', (t.c.rooms[m]).wbuf = [w'] ∧ w'.st = .issued ∧ w'.line = w.line) ∧ (t.c.rooms[m]).outC = (s.c.rooms[m]).outC ∧
      onlyRoom s t m ∧ t.c.chans = s.c.chans ∧ t.c.porches = s.c.porches ∧ keepsCells s t

/-- R127, R132: the oldest eligible Mudroom entry sets out home as one WB, by way of the home-write queue. -/
def MudroomLineGoesHome : Prop :=
  ∀ s m e d, let r := Run.start s
    let dst := r.homeOf (lineBlk e.line) e.attr.mirror
    (s.c.rooms[m]).mud = [e] → r.mudEligible m e = true → r.fenced (unitRoom m) = false → slotFor s (72 + m.val) 0x58 →
    dst ≠ r.myId → routed s dst d → e.owners = [] →
    ∃ t f stamp, exec (.mudroomHomeWrite m) s = .next t ∧ setsOut s t (72 + m.val) (152 + d.val) (.msg f stamp) true ∧
      f.op = Op.wb ∧ f.dst = dst ∧ f.addr = e.line ∧ f.line = e.data ∧ f.poison = e.poison ∧ f.src = r.myId ∧
      f.eseq = (r.peer dst).txEseq[0] ∧
      (t.c.rooms[m]).homeQ = { (s.c.rooms[m]).homeQ with lines := (s.c.rooms[m]).homeQ.lines ++ [(s.c.flyNo, 4)] } ∧
      (∃ e', (t.c.rooms[m]).mud = [e'] ∧ e'.st = .writing ∧ e'.line = e.line) ∧ onlyRoom s t m ∧ t.c.chans = s.c.chans ∧
      t.c.porches = s.c.porches ∧ keepsCells s t

/-- The message is the first of its block that was delivered, and its operation is `op`. -/
abbrev delivered (s : State) (f : FMsg) (op : BitVec 8) (stamp : Stamp) (d : Nat) : Prop :=
  (Run.start s).inboxOf f op = some (stamp, d)

/-- The message has been taken out of the delivered ones. -/
def unboxed (s t : State) (f : FMsg) : Prop := t.c.fab.inbox = s.c.fab.inbox.eraseP fun e => e.1 = f

/-- R151, R161: a fill of one line of a Private-remote region has the line's channel read for the message, which the Door
keeps until the Room retires it. -/
def fillsFromHome (i : Instr) (f : FMsg) (op : BitVec 8) : Prop :=
  ∀ s stamp d, let r := Run.start s
    let b := lineBlk f.addr
    let m := r.roomFor f
    let a := (r.region (blkRegion b)).attr
    let (c, idx) := r.homePlace b (lineNo f.addr)
    delivered s f op stamp d → r.fabServes = true → slotFor s m.val (0x48 + d) → idleRoom s m → r.fabFits f = true →
    a.kind = kindPrivate → f.twin = false → f.mask = lineMask [lineNo f.addr] → r.lostChan c = false →
    ∃ t x, exec i s = .next t ∧ (t.c.rooms[m]).outC = [.cmd c x] ∧ x.write = false ∧ x.idx = idx ∧
      x.pa = linePa f.addr ∧ (∃ it, x.purpose = some (.item m it true) ∧ it.src = .fab f) ∧
      (t.c.rooms[m]).fabOut = [{ f := f, grant := fillGrant op, tin := stamp, lines := [(lineNo f.addr, none)] }] ∧
      t.c.fab.kept = s.c.fab.kept ++ [(f, stamp, d)] ∧ unboxed s t f ∧ (t.c.rooms[m]).waiters = [] ∧ onlyRoom s t m ∧
      t.c.porches = s.c.porches ∧ t.c.chans = s.c.chans ∧ keepsCells s t

def PrivateFillReadsTheHomeLine : Prop :=
  ∀ f, fillsFromHome (.fillP f) f Op.fillP ∧ fillsFromHome (.rdU { msg := f }) f Op.rdU

/-- R151: a fill of one line of a Shared block that no House holds lists the asker in the directory, and has the line
read. -/
def listsTheAsker (i : Instr) (f : FMsg) (op : BitVec 8) (st : BitVec 2) : Prop :=
  ∀ s stamp d w, let r := Run.start s
    let b := lineBlk f.addr
    let m := r.roomFor f
    let a := (r.region (blkRegion b)).attr
    let (c, idx) := r.homePlace b (lineNo f.addr)
    delivered s f op stamp d → r.fabServes = true → slotFor s m.val (0x48 + d) → idleRoom s m → r.fabFits f = true →
    a.kind = kindShared → f.twin = false → f.mask = lineMask [lineNo f.addr] → r.lostChan c = false →
    plainBlock s m b a → r.dirFind m b = none →
    ((List.range 16).find? fun w => (r.dir m (dirSet b) w).state = 0) = some w →
    ∃ t x, exec i s = .next t ∧
      mget {} t.m.dir (dirKey m (dirSet b) w) = { sharers := bit64 f.src, tag := dirTag b, state := st } ∧
      (t.c.rooms[m]).outC = [.cmd c x] ∧ x.write = false ∧ x.idx = idx ∧
      (∃ it, x.purpose = some (.item m it true) ∧ it.src = .fab f) ∧ onlyRoom s t m ∧ t.m.dram = s.m.dram ∧
      t.m.tags = s.m.tags

def SharedFillListsTheAsker : Prop :=
  ∀ f, listsTheAsker (.fillS { msg := f }) f Op.fillS 2 ∧ listsTheAsker (.fillO { msg := f }) f Op.fillO 3

/-- R151: UPGRADE from the only sharer makes it the owner, and its answer is ACK_O. -/
def UpgradeOfTheOnlySharerIsGranted : Prop :=
  ∀ s f stamp d w e, let r := Run.start s
    let b := lineBlk f.addr
    let m := r.roomFor f
    let a := (r.region (blkRegion b)).attr
    delivered s f Op.upgrade stamp d → r.fabServes = true → slotFor s m.val (0x48 + d) → idleRoom s m →
    r.fabFits f = true → a.kind = kindShared → f.twin = false → plainBlock s m b a → r.dirFind m b = some (w, e) →
    e.sharers = bit64 f.src → e.state = 2 → r.dead f.src = false →
    ∃ t, exec (.upgrade { msg := f }) s = .next t ∧
      msgWaits s t (72 + m.val) 0x58 (some (.fab f)) f.src Op.ackO (fun x => x.tag = f.tag ∧ x.addr = f.addr) ∧
      mget {} t.m.dir (dirKey m (dirSet b) w) = { sharers := bit64 f.src, tag := dirTag b, state := 3 } ∧ unboxed s t f ∧
      onlyRoom s t m ∧ t.c.chans = s.c.chans ∧ t.c.porches = s.c.porches ∧ t.m.dram = s.m.dram

/-- R44, R151, R164: a write of another House is accepted at the home, and its acknowledgement waits to leave. -/
def writesTheHome (i : Instr) (f : FMsg) (op : BitVec 8) : Prop :=
  ∀ s stamp d, let r := Run.start s
    let b := lineBlk f.addr
    let m := r.roomFor f
    let a := (r.region (blkRegion b)).attr
    delivered s f op stamp d → r.fabServes = true → slotFor s m.val (0x48 + d) → idleRoom s m → r.fabFits f = true →
    (a.kind = kindPrivate ∨ op = Op.mirrorWr) → f.twin = false → (op ≠ Op.mirrorWr → a.mirror = false) →
    (op = Op.mirrorWr → r.isHome b = false) →
    ∃ t w, exec i s = .next t ∧ (t.c.rooms[m]).wbuf = [w] ∧ w.line = f.addr ∧ w.data = f.line ∧ w.mask = f.bmask ∧
      w.poison = f.poison ∧ w.home = true ∧
      msgWaits s t (72 + m.val) 0x58 none f.src Op.wrAck (fun x => x.tag = f.tag ∧ x.grant = 0) ∧ unboxed s t f ∧
      onlyRoom s t m ∧ t.c.chans = s.c.chans ∧ t.c.porches = s.c.porches ∧ keepsCells s t

def RemoteWriteIsAcceptedAndAcknowledged : Prop :=
  ∀ f, writesTheHome (.wrU { msg := f }) f Op.wrU ∧ writesTheHome (.wb { msg := f }) f Op.wb ∧ writesTheHome (.mirrorWr f) f Op.mirrorWr

/-- R69, R158: DATA answers the waiting read, and frees its tracker. -/
def DataAnswersTheWaitingRead : Prop :=
  ∀ s f stamp d tr by' it uid p k, let r := Run.start s
    let m := msgRoom f
    delivered s f Op.data stamp d → msgIdx f ≠ 1002 → quietRoom s m → slotFor s m.val 0x50 →
    (s.c.rooms[m]).trks = [tr] → tr.idx = msgIdx f → tr.blk = lineBlk f.addr → tr.pend = [(lineNo f.addr, by')] →
    tr.twins = [] → tr.place = none → tr.grant = .none → tr.upg = 0 → tr.evicting = false → tr.held = [] →
    (s.c.rooms[m]).waiters = [⟨it, .fill tr.idx, none⟩] → (s.c.rooms[m]).wbuf = [] → r.scnFind m (paGran it.pa) = none →
    it.src = .host uid p k → it.op = .memRd → it.meta' = .noOp → paLine it.pa = f.addr →
    ∃ t, exec (.data f) s = .next t ∧ (t.c.rooms[m]).trks = [] ∧ (t.c.rooms[m]).waiters = [] ∧
      waits s t (72 + m.val) 0x56 (.ans it.src (.data (chunkOf f.line (paChunk it.pa)) f.poison)) (some it.src) ∧
      unboxed s t f ∧ onlyRoom s t m ∧ t.c.porches = s.c.porches ∧ t.c.chans = s.c.chans ∧ keepsCells s t

/-- R156: ACK_O gives the ownership that was asked for; a tracker that nothing else waits on frees itself. -/
def OwnershipAckEndsItsTracker : Prop :=
  ∀ s f stamp d tr,
    let m := msgRoom f
    delivered s f Op.ackO stamp d → quietRoom s m → slotFor s m.val (0x48 + d) →
    (s.c.rooms[m]).trks = [tr] → tr.idx = msgIdx f → tr.blk = lineBlk f.addr → tr.twins = [] → tr.grant = .asked →
    tr.pend = [] → tr.place = none → tr.evicting = false → tr.held = [] → (s.c.rooms[m]).waiters = [] →
    ∃ t, exec (.ackO f) s = .next t ∧ (t.c.rooms[m]).trks = [] ∧ unboxed s t f ∧ onlyRoom s t m ∧ keepsHall s t ∧
      t.c.porches = s.c.porches ∧ t.c.chans = s.c.chans ∧ keepsCells s t

/-- R105: the home's acknowledgement of a forward frees its write buffer entry, and its writer's completion waits for its
way back. -/
def WriteAckFreesTheForward : Prop :=
  ∀ s f stamp d w uid p k,
    let m := msgRoom f
    delivered s f Op.wrAck stamp d → quietRoom s m → slotFor s m.val (0x48 + d) →
    (s.c.rooms[m]).wbuf = [w] → 320 ≤ msgIdx f → msgIdx f = 320 + w.idx → w.idx < 64 → w.line = f.addr → w.st = .issued →
    w.needCel = false → w.needAck = true → w.needTwin = false → w.twinLater = false → w.srcs = [.host uid p k] →
    f.grant = 0 → s.c.rjob.busy = false → (∀ n : Fin 64, (s.c.rooms[n]).jobs = []) →
    (∀ q : Fin 8, (s.c.porches[q]).bars = []) →
    ∃ t, exec (.wrAck f) s = .next t ∧ (t.c.rooms[m]).wbuf = [] ∧
      waits s t (72 + m.val) 0x56 (.ans (.host uid p k) .done) none ∧ unboxed s t f ∧ onlyRoom s t m ∧
      t.c.porches = s.c.porches ∧ t.c.chans = s.c.chans ∧ keepsCells s t

/-- R159: a House that holds nothing of the block answers INV or RECALL without a line. -/
def snoopsNothing (i : Instr) (f : FMsg) (op ack : BitVec 8) : Prop :=
  ∀ s stamp d, let r := Run.start s
    let m := r.roomFor f
    delivered s f op stamp d → slotFor s m.val (0x48 + d) → idleRoom s m →
    ((blkGrans (lineBlk f.addr)).all fun g => (r.scnFind m g).isNone) = true → r.liveEnt m (lineBlk f.addr) = none →
    ∃ t, exec i s = .next t ∧
      msgWaits s t (72 + m.val) 0x58 none f.src ack (fun x => x.tag = f.tag ∧ x.held = false) ∧ unboxed s t f ∧
      (t.c.rooms[m]).cohs = [] ∧ onlyRoom s t m ∧ t.c.chans = s.c.chans ∧ t.c.porches = s.c.porches ∧ keepsCells s t

def SnoopOfAnAbsentBlockIsAcknowledged : Prop :=
  ∀ f, snoopsNothing (.invSnp { msg := f }) f Op.inv Op.invAck ∧ snoopsNothing (.recallSnp { msg := f }) f Op.rcl Op.recallAck

/-- R151, R155: an answer without a line ends the wait for its House, and HELD is noted. -/
def answersSnoopOf (i : Instr) (f : FMsg) (op : BitVec 8) : Prop :=
  ∀ s stamp d c b rcl, let r := Run.start s
    let m := msgRoom f
    delivered s f op stamp d → r.fenced (unitRoom m) = false → slotFor s m.val (0x48 + d) →
    (s.c.rooms[m]).cohs = [c] → (s.c.rooms[m]).snoopQ = [] → (s.c.rooms[m]).scnBad = [] →
    384 ≤ msgIdx f → c.idx = msgIdx f - 384 → c.blk = lineBlk f.addr →
    (c.invs.any fun i => i.house = f.src) = true → c.job = .home b rcl false →
    ∃ t c', exec i s = .next t ∧ (t.c.rooms[m]).cohs = [c'] ∧ c'.invs = (c.invs.filter fun i => i.house ≠ f.src) ∧
      c'.heldBy = (if f.held then c.heldBy ||| bit64 f.src else c.heldBy) ∧ unboxed s t f ∧ onlyRoom s t m ∧ keepsHall s t ∧
      t.c.chans = s.c.chans ∧ t.c.porches = s.c.porches ∧ t.m = s.m

def SnoopAnswerEndsTheWait : Prop :=
  ∀ f, answersSnoopOf (.invAck f) f Op.invAck ∧ answersSnoopOf (.recallAck f) f Op.recallAck

/-- R151, R164: a line that comes with the answer is written to the home; the last one ends the wait. -/
def returnsALine (i : Instr) (f : FMsg) (op : BitVec 8) : Prop :=
  ∀ s stamp d c b rcl, let r := Run.start s
    let m := msgRoom f
    delivered s f op stamp d → r.fenced (unitRoom m) = false → slotFor s m.val (0x48 + d) →
    (s.c.rooms[m]).cohs = [c] → (s.c.rooms[m]).snoopQ = [] → (s.c.rooms[m]).scnBad = [] →
    384 ≤ msgIdx f → c.idx = msgIdx f - 384 → c.blk = lineBlk f.addr →
    (c.invs.any fun i => i.house = f.src) = true → c.job = .home b rcl false → f.last = true →
    (s.c.rooms[m]).wbuf = [] → r.wbFull m = false → (s.c.rooms[m]).rsvs = [] → (r.attrOf (lineBlk f.addr)).mirror = false →
    ∃ t c' w, exec i s = .next t ∧ (t.c.rooms[m]).cohs = [c'] ∧ c'.invs = (c.invs.filter fun i => i.house ≠ f.src) ∧
      (t.c.rooms[m]).wbuf = [w] ∧ w.line = f.addr ∧ w.data = f.line ∧ w.mask = f.bmask ∧ w.poison = f.poison ∧
      w.home = true ∧ unboxed s t f ∧ onlyRoom s t m ∧ t.c.chans = s.c.chans ∧ keepsCells s t

def ReturnedLineIsWrittenHome : Prop :=
  ∀ f, returnsALine (.invData f) f Op.invData ∧ returnsALine (.recallData f) f Op.recallData

/-- R311: a HEARTBEAT of a live House that is not in SAFE keeps it live, from now on. -/
def HeartbeatKeepsAHouseLive : Prop :=
  ∀ s f stamp d, let r := Run.start s
    delivered s f Op.heartbeat stamp d → f.src ≠ r.myId → r.dead f.src = false → f.mask.toNat % 16 ≠ Mode.safe.code →
    ∃ t, exec (.heartbeat f) s = .next t ∧ ((Run.start t).peer f.src).live = true ∧
      ((Run.start t).peer f.src).lastHb = s.c.now ∧ ((Run.start t).peer f.src).incarn = f.word4hi ∧
      t.c.rooms = s.c.rooms ∧ t.c.porches = s.c.porches ∧ t.m = s.m


/-- R307, R311: HEARTBEATs go out at their interval, to each House with a route. -/
def HeartbeatGoesToARoutedHouse : Prop :=
  ∀ s e g, let r := Run.start s
    r.mode.fabric = true → (∃ d : Fin 8, (s.c.doors[d]).up = true) → s.c.fab.hbAt + usec (r.fld 0x190110 9 0) ≤ s.c.now →
    ((List.range 64).filter fun e => e ≠ r.myId.toNat && (r.bit (0x190000 + 4 * e) 3 || r.bit (0x190000 + 4 * e) 7)) = [e] →
    routeTo s (BitVec.ofNat 6 e) g →
    ∃ t, exec .heartbeatSend s = .next t ∧ t.c.fab.hbAt = s.c.now ∧
      queuedOn s t g (BitVec.ofNat 6 e) Op.heartbeat (fun f => f.src = r.myId ∧ f.word4hi = s.c.fab.incarn ∧
        f.mask = BitVec.ofNat 16 r.mode.code) ∧ t.c.rooms = s.c.rooms ∧ keepsCells s t

/-- R311: a live House that has sent no HEARTBEAT for the limit is dead, and HOUSE_DEAD is reported. -/
def SilentHouseIsDeclaredDead : Prop :=
  ∀ s (e : Fin 64), let r := Run.start s
    let h := BitVec.ofFin e
    r.mode.fabric = true → (r.peer h).live = true → (r.peer h).dead = false →
    (r.peer h).lastHb + usec (r.fld 0x190110 27 16) ≤ s.c.now → s.m.frames = [] → (∀ m : Fin 64, idleRoom s m ∧ (s.c.rooms[m]).jobs = []) →
    ∃ t, exec (.houseDead e) s = .next t ∧ ((Run.start t).peer h).dead = true ∧ ((Run.start t).peer h).live = false ∧
      ((Run.start t).peer h).deadAt = s.c.now ∧ (∃ x ∈ t.c.fbx.reported, x.code = Code.houseDead) ∧
      (∃ y ∈ t.c.fbx.shadows, y.unit = unitHouse h)

/-- R187, R189: a drain barrier waits for the Landing entries that hold completed writes of its link; with none its
read completes at once with 0. A sync barrier waits for the link's requests as well, and sends a marker to every Room,
behind what is on its way there. A link that is down reads nothing. -/
def BarrierReadsStartTheirBarriers : Prop :=
  (∀ s p k, let x := s.c.porches[p]
    x.links[k].up = true → x.bars = [] → x.covered k ≠ [] →
    ∃ t b, exec (.drainRead p k) s = .next t ∧ t = { s with c := { s.c with porches := t.c.porches } } ∧
      (t.c.porches[p]).bars = [b] ∧ b.kind = .drain ∧ b.k = k ∧ b.lands = x.covered k ∧ b.uids = [] ∧ b.markers = 0 ∧
      b.by' = s.c.now + usec ((Run.start s).fld (pchBase p + 0x508) 15 0)) ∧
  (∀ s p k, let x := s.c.porches[p]
    x.links[k].up = true → x.bars = [] → x.covered k = [] →
    ∃ t, exec (.drainRead p k) s = .next t ∧ (t.c.porches[p]).bars = [] ∧
      t.c.out = { s.c.out with host := s.c.out.host ++ [.view p k 0x1000 0] } ∧ t.m = s.m) ∧
  (∀ s p k, let x := s.c.porches[p]
    x.links[k].up = true →
    ∃ t b, exec (.syncRead p k) s = .next t ∧
      t = { s with c := { s.c with porches := t.c.porches, rooms := t.c.rooms } } ∧
      (t.c.porches[p]).bars = x.bars ++ [b] ∧ b.id = x.nextBar ∧ b.kind = .sync ∧ b.k = k ∧ b.lands = x.covered k ∧
      b.uids = x.openUids k ∧ b.markers = BitVec.allOnes 64 ∧
      ∀ m : Fin 64, t.c.rooms[m] = { s.c.rooms[m] with markers := (s.c.rooms[m]).markers ++
        [{ bar := x.nextBar, p := p, behind := (Run.start s).behind p m }] }) ∧
  ∀ s p k, (s.c.porches[p]).links[k].up = false →
    exec (.drainRead p k) s = .next s ∧ exec (.syncRead p k) s = .next s

/-- R189, R191: the last Room to answer the marker of a sync barrier with nothing else to wait for ends it, and its
read completes with the barrier's value. -/
def LastMarkerAnswerEndsTheSync : Prop :=
  ∀ s (m : Fin 64) k b, let y := s.c.rooms[m]
    (Run.start s).fenced (unitRoom m) = false → y.markers = [k] → k.behind = 0 → y.wbuf = [] →
    (s.c.porches[k.p]).bars = [b] → b.id = k.bar → b.kind = .sync → b.lands = [] → b.uids = [] → b.risks = [] →
    b.err = false → b.markers = 1#64 <<< m.val → s.c.fbx.reported = [] →
    ∃ t, exec (.syncMarkerAnswer m) s = .next t ∧ (t.c.rooms[m]).markers = [] ∧ (t.c.porches[k.p]).bars = [] ∧
      t.c.out = { s.c.out with host := s.c.out.host ++ [.view k.p b.k 0x1004 (w32 b.value)] } ∧ onlyRoom s t m ∧
      t.c.chans = s.c.chans ∧ t.c.xings = s.c.xings ∧ t.m = s.m

/-- R192: a drain barrier whose time is up while a Landing entry of a live House waits ends with ERR and LATE; the
entry stays. -/
def LateDrainBarrierEnds : Prop :=
  ∀ s p b e, let r := Run.start s
    let x := s.c.porches[p]
    x.bars = [b] → b.kind = .drain → b.by' ≤ s.c.now → b.ended = false → x.lands = [e] → b.lands = [e.seq] →
    r.landDead e = false → r.mode ≠ .safe → r.fenced (unitPorch p) = false →
    ∃ t, exec (.drainTimeout p) s = .next t ∧ (t.c.porches[p]).bars = [] ∧ (t.c.porches[p]).lands = [e] ∧
      t.c.out = { s.c.out with host := s.c.out.host ++ [.view p b.k 0x1000 3] } ∧
      reportedIn s t Code.drainLate (20 + p.val) ∧ t.c.rooms = s.c.rooms ∧ t.c.chans = s.c.chans ∧ keepsCells s t

/-- R193, R194: a Landing entry that waits on a House dead for the drain time-out is lost, whether or not it has begun to
drain: it frees, and the loss is logged. -/
def WriteToADeadHouseIsLost : Prop :=
  ∀ s (p : Fin 8) e, let r := Run.start s
    (s.c.porches[p]).lands = [e] → r.landDead e = true →
    (r.peer ((lineBlk e.line).extractLsb' 30 6)).deadAt + usec (r.fld (pchBase p + 0x508) 15 0) ≤ s.c.now →
    r.liveEnt (r.serving e.room) (lineBlk e.line) = none → quietPorch s p → r.fenced (unitPorch p) = false →
    ∃ t, exec (.lostWrite p) s = .next t ∧ (t.c.porches[p]).lands = [] ∧
      reportedIn s t Code.porchLostWrite (20 + p.val) ∧ t.c.rooms = s.c.rooms ∧ t.c.chans = s.c.chans ∧ keepsHall s t ∧
      keepsCells s t

/-- R342, R343: the watchdogs. The first request without an answer for its limit reports REQ_TIMEOUT and stays; a
response that its link has not taken in time reports HOST_STALL, is counted, and is marked. -/
def WatchdogsReport : Prop :=
  (∀ s p e, let r := Run.start s
    ((s.c.porches[p]).store.find? fun e => e.ans.isNone && decide (e.admitAt + usec e.limitUs ≤ r.now)) = some e →
    r.mode ≠ .safe → r.fenced (unitPorch p) = false →
    ∃ t, exec (.reqTimeout p) s = .next t ∧ t = { s with c := { s.c with fbx := t.c.fbx } } ∧
      reportedIn s t Code.reqTimeout (20 + p.val)) ∧
  ∀ s p k e, let r := Run.start s
    (s.c.porches[p]).store = [e] → e.k = k → e.ans.isSome = true → e.sent = false → isRsv e.item.op = false →
    e.stalled = false → e.answeredAt + usec e.stallUs ≤ s.c.now → r.fenced (unitPorch p) = false →
    ∃ t, exec (.hostStall p k) s = .next t ∧ (t.c.porches[p]).store = [{ e with stalled := true }] ∧
      reportedIn s t Code.hostStall (20 + p.val) ∧
      (t.m.reg (pchBase p + 0x11C)).toNat = min 0xFFFFFFFF (r.reg (pchBase p + 0x11C) + 1) ∧
      t.c.rooms = s.c.rooms ∧ t.c.out = s.c.out ∧ keepsCells s t

/-- R199, R200, R202: the two halves of a reservation are admitted: the load waits at the Porch with its slot waiting for
data, one word or both, and the store takes its word with it and is in progress. -/
def ReservationOperationsAreAdmitted : Prop :=
  (∀ s p k slot wide pa a, let r := Run.start s
    let x := s.c.porches[p]
    x.links[k].up = true → r.rsvSlot p slot = true → (∀ m : Fin 64, (s.c.rooms[m]).rsvs = []) →
    r.rsvCheck p k (x.links[k].rsv[slot]).dpa = .ok pa a →
    ∃ t es e, exec (.rsvLoad p k { slot := slot, wide := wide }) s = .next t ∧ (t.c.porches[p]).store = es ++ [e] ∧
      es.map Ent.bare = x.store.map Ent.bare ∧ e.item.op = .rsvLoad ∧
      e.item.pa = pa ∧ e.item.attr = a ∧ e.item.src = .rsv x.nextUid p k slot ∧ e.stage = .waiting ∧ e.landWait = true ∧
      (t.c.porches[p]).links[k].rsv[slot] = { x.links[k].rsv[slot] with wide := wide, loadWait := true } ∧
      t.c.rooms = s.c.rooms ∧ t.c.out = s.c.out ∧ keepsHall s t ∧ keepsCells s t) ∧
  ∀ s p k slot hi pa a, let r := Run.start s
    let x := s.c.porches[p]
    x.links[k].up = true → r.rsvSlot p slot = true → r.rsvCheck p k (x.links[k].rsv[slot]).dpa = .ok pa a →
    ∃ t es e, exec (.rsvStore p k slot hi) s = .next t ∧ (t.c.porches[p]).store = es ++ [e] ∧
      es.map Ent.bare = x.store.map Ent.bare ∧ e.item.op = .rsvStore ∧
      e.item.pa = pa ∧ e.item.src = .rsv x.nextUid p k slot ∧ e.stage = .waiting ∧
      e.item.data = (((hi ++ (x.links[k].rsv[slot]).storeLo).setWidth 2048 : LineData) <<< (8 * (pa.toNat % 256)) : LineData) ∧
      e.item.mask = ((0xFF#256) <<< (pa.toNat % 256) : ByteMask) ∧
      (t.c.porches[p]).links[k].rsv[slot] = { x.links[k].rsv[slot] with
        storeHi := hi, stores := (x.links[k].rsv[slot]).stores + 1 } ∧
      t.c.rooms = s.c.rooms ∧ t.c.out = s.c.out ∧ keepsHall s t ∧ keepsCells s t

/-- R199: the words of a reservation slot: a write sets its address and the low store word, a read of the result
answers, and while a store is in progress it waits. A slot that a bifurcated link does not have reads 0, and takes no
write. R338: a write of a read-only word is logged and changes nothing. -/
def ReservationWindowWords : Prop :=
  (∀ s p k (slot : Fin 32) v, let x := (s.c.porches[p]).links[k]
    x.up = true → (Run.start s).rsvSlot p slot = true →
    (∃ t, exec (.hostViewWrite p k (BitVec.ofNat 20 (0x2000 + 0x40 * slot.val)) v) s = .next t ∧
      t = { s with c := { s.c with porches := t.c.porches } } ∧
      (t.c.porches[p]).links[k].rsv[slot] = { x.rsv[slot] with addrLo := v &&& 0xFFFFFFF8 }) ∧
    (∃ t, exec (.hostViewWrite p k (BitVec.ofNat 20 (0x2004 + 0x40 * slot.val)) v) s = .next t ∧
      t = { s with c := { s.c with porches := t.c.porches } } ∧
      (t.c.porches[p]).links[k].rsv[slot] = { x.rsv[slot] with addrHi := v &&& 0xFFFFF }) ∧
    (∃ t, exec (.hostViewWrite p k (BitVec.ofNat 20 (0x2010 + 0x40 * slot.val)) v) s = .next t ∧
      t = { s with c := { s.c with porches := t.c.porches } } ∧
      (t.c.porches[p]).links[k].rsv[slot] = { x.rsv[slot] with storeLo := v }) ∧
    (x.rsv[slot].stores = 0 → exec (.rsvResultRead p k slot) s = .next { s with c := { s.c with out := { s.c.out with
      host := s.c.out.host ++ [.view p k (0x2018 + slot.val * 0x40) (x.rsv[slot].result.setWidth 32)] } } }) ∧
    (x.rsv[slot].stores ≠ 0 → ∃ t, exec (.rsvResultRead p k slot) s = .next t ∧
      t = { s with c := { s.c with porches := t.c.porches } } ∧
      (t.c.porches[p]).links[k].rsv[slot] = { x.rsv[slot] with resultWait := x.rsv[slot].resultWait + 1 })) ∧
  (∀ s p k (slot : Fin 32) v, let reads0 : Nat → State := fun off => { s with c := { s.c with out := { s.c.out with
      host := s.c.out.host ++ [.view p k (off + slot.val * 0x40) 0] } } }
    (s.c.porches[p]).links[k].up = true → (Run.start s).rsvSlot p slot = false →
    exec (.rsvResultRead p k slot) s = .next (reads0 0x2018) ∧ exec (.rsvLoad p k { slot := slot }) s = .next (reads0 0x2008) ∧
      exec (.rsvStore p k slot v) s = .next s) ∧
  ∀ s p k v, (s.c.porches[p]).links[k].up = true → (Run.start s).fenced (unitPorch p) = false →
    ∃ t, exec (.hostViewWrite p k 0x1000 v) s = .next t ∧ t = { s with c := { s.c with fbx := t.c.fbx } } ∧
      reportedIn s t Code.csrAccessHost (20 + p.val)

/-- R203: a reservation whose lease has ended is gone; in SAFE the Rooms are frozen (R27), and nothing changes. -/
def ReservationLeaseExpires : Prop :=
  (∀ s (m : Fin 64) v, s.c.mod.mode ≠ .safe → (s.c.rooms[m]).rsvs = [v] → v.endsAt ≤ s.c.now →
    ∃ t, exec (.rsvLeaseExpire m) s = .next t ∧ t.c.rooms[m] = { s.c.rooms[m] with rsvs := [] } ∧ onlyRoom s t m ∧
      t.c.porches = s.c.porches ∧ t.c.chans = s.c.chans ∧ keepsHall s t ∧ t.c.out = s.c.out ∧ keepsCells s t) ∧
  ∀ s (m : Fin 64), s.c.mod.mode = .safe → exec (.rsvLeaseExpire m) s = .next s

/-- R326, R339, R345, R543: a host link comes up with its decoders uncommitted and advertises its credits; it goes down
with its requests marked and its waiting messages gone; PERST resets its host view as well. -/
def HostLinkComesAndGoes : Prop :=
  (∀ s p k speed width biEn ide blk, let r := Run.start s
    let l := (s.c.porches[p]).links[k]
    let h := if r.bif p then 2 else 1
    r.mayTrain p k = true → l.up = false → s.c.jtag = .none →
    ∃ t, exec (.hostLinkUp p k speed width biEn ide blk) s = .next t ∧
      t = { s with c := { s.c with porches := t.c.porches } } ∧
      (t.c.porches[p]).links[k] = { l with
        up := true, speed := speed, width := width, biEn := biEn, biBlk := blk, ide := ide, decs := Vector.replicate 8 {},
        credits := (r.fld (pchBase p + 0x30) 9 0 / h, r.fld (pchBase p + 0x30) 19 10 / h, r.fld (pchBase p + 0x30) 29 20 / h) }) ∧
  (∀ s p k, (s.c.porches[p]).links[k].up = true → quietPorch s p → (Run.start s).fenced (unitPorch p) = false →
    ∃ t, exec (.hostLinkDown p k) s = .next t ∧ (t.c.porches[p]).links[k].up = false ∧
      (t.c.porches[p]).links[k].bi = [] ∧ (t.c.porches[p]).links[k].conf = [] ∧
      (∀ e ∈ (t.c.porches[p]).store, e.k = k → e.gone = true) ∧ (∀ e ∈ (t.c.porches[p]).refused, e.k ≠ k) ∧
      reportedIn s t Code.linkDown (20 + p.val) ∧ t.c.rooms = s.c.rooms ∧ t.c.out = s.c.out ∧ t.m = s.m) ∧
  ∀ s p k, quietPorch s p →
    ∃ t, exec (.perst p k) s = .next t ∧ (t.c.porches[p]).links[k].up = false ∧
      (t.c.porches[p]).links[k].rsv = Vector.replicate 32 {} ∧ (t.c.porches[p]).links[k].evPolicy = [] ∧
      (t.c.porches[p]).links[k].timestamp = [] ∧ (t.c.porches[p]).links[k].devFatal = false ∧ t.c.rooms = s.c.rooms ∧
      t.c.out = s.c.out ∧ keepsCells s t

/-- R328, R329: a decoder that meets the four conditions commits; one that does not shows its error. The mailbox carries
out its commands, and answers any other as not supported; opcodes and payloads are the model's (log entry 18). -/
def DecodersCommitAndMailboxAnswers : Prop :=
  (∀ s p k (h : HdmCommit), let r := Run.start s
    let l := (s.c.porches[p]).links[k]
    let d : Dec := { committed := true, hpaBase := h.hpaBase, size := h.size, iw := h.iw, ig := h.ig, dpaSkip := h.dpaSkip,
                     dpaBase := BitVec.ofNat 52 (dpaBaseOf (r.decs p k) h.n.val h.dpaSkip), pos := h.pos }
    l.up = true → h.n.val < (r.decs p k).length →
    ∃ t, exec (.hdmDecoderCommit p k h) s = .next t ∧ t = { s with c := { s.c with porches := t.c.porches } } ∧
      (h.iw ≠ 0 → r.decOk p k h.n.val d = true → (t.c.porches[p]).links[k] = { l with decs := l.decs.set h.n.val d h.n.isLt }) ∧
      (r.decOk p k h.n.val d = false →
        (t.c.porches[p]).links[k] = { l with decs := l.decs.set h.n.val { committed := false, err := true } h.n.isLt })) ∧
  ∀ s p k (c : MailCmd), let l := (s.c.porches[p]).links[k]
    let log := (c.payload[0]?).bind evLogOf
    let said : Bool → List HostEvent → List Byte → State := fun ok recs bs => { s with c := { s.c with out := { s.c.out with
      host := s.c.out.host ++ [.mailbox p k c.opcode ok recs bs] } } }
    let keeps : Link → Prop := fun l' => ∃ t, exec (.mailboxCommand p k c) s = .next t ∧
      t = { s with c := { s.c with porches := t.c.porches, out := (said true [] []).c.out } } ∧ (t.c.porches[p]).links[k] = l'
    l.up = true →
    (c.opcode ∉ [0x4000#16, 0x0100#16, 0x0101#16, 0x0102#16, 0x0103#16, 0x0300#16, 0x0301#16, 0x0400#16, 0x0401#16] →
      exec (.mailboxCommand p k c) s = .next (said false [] [])) ∧
    (c.opcode = 0x4000 → exec (.mailboxCommand p k c) s =
      .next (said true [] (leBytes 8 ((Run.start s).fld (pchBase p + 0x20 + 4 * k.val) 12 0 * 4)))) ∧
    (c.opcode = 0x0100 → ∀ g, log = some g →
      exec (.mailboxCommand p k c) s = .next (said true (l.logs.filter fun e => e.log = g) [])) ∧
    (c.opcode = 0x0101 → ∀ g, log = some g → keeps { l with
      logs := if (c.payload[1]?.getD 0).getLsbD 0 then l.logs.filter fun e => e.log ≠ g
        else dropLog g (c.payload[2]?.getD 0).toNat l.logs,
      overflow := l.overflow.filter fun x => x ≠ g }) ∧
    (c.opcode = 0x0100 ∨ c.opcode = 0x0101 → log = none → exec (.mailboxCommand p k c) s = .next (said false [] [])) ∧
    (c.opcode = 0x0102 → exec (.mailboxCommand p k c) s = .next (said true [] l.evPolicy)) ∧
    (c.opcode = 0x0103 → keeps { l with evPolicy := c.payload.take 4 }) ∧
    (c.opcode = 0x0300 → exec (.mailboxCommand p k c) s = .next (said true [] l.timestamp)) ∧
    (c.opcode = 0x0301 → keeps { l with timestamp := c.payload.take 8 }) ∧
    (c.opcode = 0x0400 ∨ c.opcode = 0x0401 → exec (.mailboxCommand p k c) s = .next (said true [] []))

/-- R142, R144, R146: the answer to the last back-invalidate of a Screen entry that is being freed frees it, when no write
of its link to the granule is on its way; one that never comes counts as given, and is logged. -/
def SnoopAnswersFreeTheScreenEntry : Prop :=
  (∀ s (p : Fin 8) k hpa blk x (m : Fin 64) c sn set way, let r := Run.start s
    let g := lineGran sn.line
    (s.c.porches[p]).links[k].up = true → r.snoopOf p k hpa blk = some (m, c, sn) → sn.hpa = hpa → sn.blk = blk →
    r.biBehind p k g = [] → r.biBuffered p k g = false → (r.onWay fun it => it.wrote p k g) = false → s.c.tt.run = true →
    (∀ w ∈ (s.c.rooms[m]).waiters, w.item.wrote p k g = false) → (s.c.rooms[m]).snoopQ = [] → (s.c.rooms[m]).scnBad = [] →
    rspOk sn.kind x = true → (s.c.rooms[m]).cohs = [c] → c.snps = [sn] → c.invs = [] → c.reads = [] → c.parked = [] →
    c.job = .freeScn set way →
    ∃ t, exec (.biRsp p k hpa blk x) s = .next t ∧ (t.c.rooms[m]).cohs = [] ∧ onlyRoom s t m ∧
      t = { s with c := { s.c with rooms := t.c.rooms, xings := tookFrom s (.ingress p k) 1 },
                   m := { s.m with scn := merase s.m.scn (scnKey m set way) } }) ∧
  ∀ s (m : Fin 64) c sn set way, let r := Run.start s
    (s.c.rooms[m]).cohs = [c] → (s.c.rooms[m]).snoopQ = [] → (s.c.rooms[m]).scnBad = [] → c.snps = [sn] → c.invs = [] →
    c.reads = [] → c.parked = [] → c.job = .freeScn set way →
    sn.by' ≤ s.c.now → s.c.tt.run = true → sn.excl = false → r.fenced (unitRoom m) = false →
    ∃ t, exec (.snoopTimeout m c.idx) s = .next t ∧ (t.c.rooms[m]).cohs = [] ∧ onlyRoom s t m ∧
      t.m.scn = merase s.m.scn (scnKey m set way) ∧ reportedIn s t Code.snoopTimeout (m.val / 16) ∧
      t.c.porches = s.c.porches ∧ t.c.chans = s.c.chans ∧ t.m.dram = s.m.dram ∧ t.m.tags = s.m.tags

/-- R143: a BIConflict that crosses a snoop, while its request has not been served, is acknowledged at once. -/
def BiConflictIsAcknowledged : Prop :=
  ∀ s (p : Fin 8) k hpa (m : Fin 64) c sn, let r := Run.start s
    (s.c.porches[p]).links[k].up = true → (r.snoopBy p k fun x => x.meets hpa false) = some (m, c, sn) →
    (∀ e ∈ (s.c.porches[p]).store, e.k = k → e.hpa = hpa → e.sent = false → r.served e sn.sentAt = false) →
    exec (.biConflict p k hpa) s = .next { s with c := { s.c with
      xings := (tookFrom s (.ingress p k) 1).mod (.egress p k) fun x => x.send 1,
      out := { s.c.out with host := s.c.out.host ++ [.biConflictAck p k hpa] } } }

/-- R77: a read whose fill has timed out is answered with poison, and its tracker frees. -/
def TimedOutFillPoisonsItsRead : Prop :=
  ∀ s (m : Fin 64) tr l by' it uid p k,
    s.c.tt.run = true → quietRoom s m → (s.c.rooms[m]).trks = [tr] → tr.pend = [(l, by')] → by' ≤ s.c.now →
    tr.twins = [] → tr.place = none → tr.grant = .none → tr.upg = 0 → tr.evicting = false → tr.held = [] →
    (s.c.rooms[m]).waiters = [⟨it, .fill tr.idx, none⟩] → (s.c.rooms[m]).wbuf = [] →
    paLineNo it.pa = l → it.src = .host uid p k → it.op = .memRd → it.meta' = .noOp →
    ∃ t, exec (.fillTimeout m tr.idx) s = .next t ∧ (t.c.rooms[m]).trks = [] ∧ (t.c.rooms[m]).waiters = [] ∧
      waits s t (72 + m.val) 0x56 (.ans it.src (.data (chunkOf 0 (paChunk it.pa)) true)) (some it.src) ∧
      reportedIn s t Code.fillTimeout (m.val / 16) ∧ onlyRoom s t m ∧ t.c.porches = s.c.porches ∧ t.c.chans = s.c.chans ∧
      keepsCells s t

/-- R155: a House that has not answered INV or RECALL in time is asked once more; one that never answers leaves the
entry as a sharer. -/
def SilentSharerIsAskedAgainThenDropped : Prop :=
  (∀ s (m : Fin 64) c i b rcl, let r := Run.start s
    s.c.tt.run = true → (s.c.rooms[m]).cohs = [c] → c.invs = [i] → i.retried = false → i.retryBy ≤ s.c.now →
    c.job = .home b rcl false →
    ∃ t, exec (.invRetry m c.idx) s = .next t ∧ (t.c.rooms[m]).cohs = [{ c with invs := [{ i with retried := true }] }] ∧
      msgWaits s t (72 + m.val) 0x58 none i.house (if rcl then Op.rcl else Op.inv)
        (fun f => f.addr = blkLine c.blk 0 ∧ f.tag = mkTag m (384 + c.idx) ∧ f.src = r.myId) ∧
      onlyRoom s t m ∧ t.c.chans = s.c.chans ∧ t.c.porches = s.c.porches ∧ keepsCells s t) ∧
  ∀ s (m : Fin 64) c i b rcl w e, let r := Run.start s
    s.c.tt.run = true → r.fenced (unitRoom m) = false → (s.c.rooms[m]).cohs = [c] → (s.c.rooms[m]).snoopQ = [] →
    (s.c.rooms[m]).scnBad = [] → c.invs = [i] → c.parked = [] → i.lostBy ≤ s.c.now →
    c.job = .home b rcl false → r.dirFind m c.blk = some (w, e) → e.state = 2 →
    ∃ t, exec (.snoopLost m c.idx) s = .next t ∧ (t.c.rooms[m]).cohs = [{ c with invs := [] }] ∧
      t.m.dir = mset {} s.m.dir (dirKey m (dirSet c.blk) w) (if e.sharers &&& ~~~(bit64 i.house) = 0 then {} else
        { e with sharers := e.sharers &&& ~~~(bit64 i.house) }) ∧
      reportedIn s t Code.snoopLost (m.val / 16) ∧ onlyRoom s t m ∧ t.m.dram = s.m.dram ∧ t.m.tags = s.m.tags ∧
      t.c.porches = s.c.porches

/-- A frame that Door d may accept: its link runs without encryption, the CRC is right, and its SEQ is the next. -/
abbrev nextFrameOf (s : State) (d : Fin 8) (f : Frame) (ab : Bool) : Prop :=
  let r := Run.start s
  r.doorRuns d = true ∧ (s.c.doors[d]).up = true ∧ r.secOn d = false ∧ hdrAbort (frameHdr f) = ab ∧ frameSum f = frameCrc f ∧
    seqFrame (hdrCls (frameHdr f)) = true ∧ hdrSeq (frameHdr f) = (s.c.doors[d]).expSeq ∧
    r.rxUsed d (hdrCls (frameHdr f)) < clsBuffer (hdrCls (frameHdr f))

/-- R297, R309, R310: an accepted frame advances the expected SEQ; a whole message for this House in order waits for its way
to its Room, and a HEARTBEAT is delivered at once. R289, R297: a frame with a wrong CRC is counted, and a NAK is owed;
nothing is delivered. -/
def FrameIsAcceptedInOrder : Prop :=
  (∀ s (d : Fin 8) f, let r := Run.start s
    let msg := piecesMsg [frameMsg f]
    nextFrameOf s d f false → hdrPos (frameHdr f) = 0 → (frameMsg f).extractLsb' 0 6 = r.myId → msgFits [frameMsg f] = true →
    msg.dst = r.myId → (s.c.doors[d]).parts = [] → s.c.fab.held = [] → s.c.tt.run = true →
    (opClass msg.op < 3 → msg.eseq = (r.peer msg.src).rxEseq[fin3 (opClass msg.op)]) →
    ∃ t, exec (.frameReceive d f {}) s = .next t ∧
      (∀ m, r.msgTo msg = some m → (opClass msg.op = 1 → r.fenced (unitRoom m) = false) →
        waits s t (152 + d.val) 0x5A (.room m msg d.val) none ∧ t.c.fab.inbox = s.c.fab.inbox) ∧
      (r.msgTo msg = none → t.c.fab.inbox = s.c.fab.inbox ++ [(msg, r.ftNs, d.val)] ∧ t.c.wait = s.c.wait) ∧
      (t.c.doors[d]).expSeq = (s.c.doors[d]).expSeq + 1 ∧ (t.c.doors[d]).lastAcc = hdrSeq (frameHdr f) ∧
      (t.c.doors[d]).parts = [] ∧ t.c.xings = tookFrom s (.doorRx d) 1 ∧ t.c.rooms = s.c.rooms ∧
      t.c.porches = s.c.porches ∧ keepsCells s t) ∧
  ∀ s (d : Fin 8) f, let r := Run.start s
    r.doorRuns d = true → (s.c.doors[d]).up = true → hdrAbort (frameHdr f) = false → frameSum f ≠ frameCrc f →
    (s.c.doors[d]).nakAt = none →
    ∃ t, exec (.frameReceive d f {}) s = .next t ∧ (t.c.doors[d]).nakDue = true ∧
      (t.m.reg (dorBase d + 0x24)).toNat = min 0xFFFFFFFF (r.reg (dorBase d + 0x24) + 1) ∧
      (t.c.doors[d]).expSeq = (s.c.doors[d]).expSeq ∧ t.c.xings = tookFrom s (.doorRx d) 1 ∧ t.c.fab = s.c.fab ∧
      keepsHall s t ∧ t.c.rooms = s.c.rooms ∧ keepsCells s t

/-- R319: ABORT ends the message of its class; one that was being forwarded is closed on its way too. -/
def AbortEndsItsMessage : Prop :=
  ∀ s (d : Fin 8) f x e, nextFrameOf s d f true → s.c.tt.run = true → (s.c.doors[d]).parts = [x] →
    x.cls = hdrCls (frameHdr f) →
    ∃ t, exec (.abort d f) s = .next t ∧ (t.c.doors[d]).parts = [] ∧
      (x.transit = some e → waits s t (152 + d.val) 0x5B
        (.transit e { cls := x.cls, pos := 3, abort := true, bytes := 0, via := some d.val }) none) ∧
      (x.transit = none → t.c.wait = s.c.wait) ∧ (t.c.doors[d]).expSeq = (s.c.doors[d]).expSeq + 1 ∧
      t.c.xings = tookFrom s (.doorRx d) 1 ∧ t.c.fab = s.c.fab ∧ t.c.rooms = s.c.rooms ∧ keepsCells s t

/-- R296, R298: an IDLE that acknowledges the only kept frame frees it; a NAK that names it has it sent again. -/
def LinkFramesAcknowledge : Prop :=
  (∀ s (d : Fin 8) h k, (Run.start s).doorRuns d = true → (s.c.doors[d]).kept = [k] → k.f.pos = 0 → k.seq = h.ack →
    ∃ t, exec (.idle d h) s = .next t ∧
      t = { s with c := { s.c with doors := t.c.doors, xings := tookFrom s (.doorRx d) 1 } } ∧ (t.c.doors[d]).kept = [] ∧
      (t.c.doors[d]).txXoff = h.xoff ∧ (t.c.doors[d]).markAt = s.c.now ∧ (t.c.doors[d]).fails = 0) ∧
  ∀ s (d : Fin 8) h n k, (Run.start s).doorRuns d = true → (s.c.doors[d]).kept = [k] → k.f.pos = 0 → k.seq = n →
    k.acked = false → k.seq ≠ h.ack → (s.c.doors[d]).nextSeq ≠ n →
    ∃ t, exec (.nak d h n) s = .next t ∧ (t.c.doors[d]).kept = [k] ∧ (t.c.doors[d]).replay = [n] ∧
      (t.c.doors[d]).replaying = true ∧ (t.c.doors[d]).txXoff = h.xoff ∧
      (t.m.reg (dorBase d + 0x20)).toNat = min 0xFFFFFFFF ((Run.start s).reg (dorBase d + 0x20) + 1) ∧
      t.c.xings = tookFrom s (.doorRx d) 1 ∧ t.c.fab = s.c.fab ∧ t.c.rooms = s.c.rooms ∧ keepsHall s t ∧ keepsCells s t

/-- R306, R307: a BEACON from the Door that this one is cabled to, which echoes it, brings the Door up; one from any
other Door is CABLE_MISMATCH. -/
def BeaconBringsTheDoorUp : Prop :=
  ∀ s (d : Fin 8) h (b : Beacon), let r := Run.start s
    let ex := r.reg (dorBase d + 8)
    let right := ex.testBit 15 && b.id.toNat = bitsOf ex 5 0 && b.door.toNat = bitsOf ex 10 8 && b.id ≠ r.myId &&
      b.pool.toNat = r.reg 0x190118
    r.doorLinks d = true → (s.c.doors[d]).up = false → (s.c.doors[d]).mismatch = false →
    (right = true → b.echoValid = true → b.echoId = r.myId → b.echoDoor.toNat = d.val → s.c.fab.waiting = [] →
      ∃ t, exec (.beacon d h b) s = .next t ∧ (t.c.doors[d]).up = true ∧ (t.c.doors[d]).farId = b.id ∧
        (t.c.doors[d]).farDoor = b.door ∧ t.c.fbx = s.c.fbx ∧ t.c.rooms = s.c.rooms ∧ t.m = s.m) ∧
    (right = false → r.fenced (unitDoor d) = false →
      ∃ t, exec (.beacon d h b) s = .next t ∧ (t.c.doors[d]).up = false ∧ (t.c.doors[d]).mismatch = true ∧
        reportedIn s t Code.cableMismatch (28 + d.val) ∧ t.c.rooms = s.c.rooms ∧ t.m = s.m)

/-- R289, R295, R296, R309: in a slot of its class, or in a transit slot, the oldest frame leaves in the clear on an
unencrypted link, numbered, and is kept until it is acknowledged. R306: a BEACON whose interval has passed waits for its
slot. -/
def FramesLeaveInTheirSlots : Prop :=
  (∀ s (d : Fin 8) cls f, let r := Run.start s
    let x := s.c.doors[d]
    let wire := mkFrame (mkHdr f.cls (r.txKsel d) f.pos x.nextSeq x.lastAcc f.abort (r.rxXoff d)) f.bytes 0
    r.doorLinks d = true → r.frameSlot d = true → s.c.tt.run = true → x.nakDue = false → x.beaconNow = false →
    x.replay = [] → r.secOn d = false → r.slotFrame d cls = some f → seqFrame cls = true →
    ∃ t k, exec (.frameStart d cls) s = .next t ∧
      t.c.out = { s.c.out with frames := s.c.out.frames ++ [(d, wire)] } ∧ t.c.xings = sentInto s (.doorTx d) 1 ∧
      (t.c.doors[d]).kept = x.kept ++ [k] ∧
      k.seq = x.nextSeq ∧ k.f = f ∧ k.wire = wire ∧ k.acked = false ∧ (t.c.doors[d]).nextSeq = x.nextSeq + 1 ∧
      (t.c.doors[d]).txq = x.txq.eraseP (fun y => y = f) ∧ t.c.used = (176 + d.val, f.code) :: s.c.used ∧
      t.c.rooms = s.c.rooms ∧ keepsHall s t ∧ t.c.fab = s.c.fab ∧ t.m = s.m) ∧
  ∀ s (d : Fin 8), let r := Run.start s
    let x := s.c.doors[d]
    r.doorLinks d = true → x.beaconNow = false → r.slotUnused d = false →
    x.beaconAt + (if r.mode = .join then usec 10 else usec 100) ≤ s.c.now →
    ∃ t, exec (.beaconDue d) s = .next t ∧ t = { s with c := { s.c with doors := t.c.doors } } ∧
      t.c.doors[d] = { x with beaconNow := true, beaconAt := s.c.now }

/-- R287, R288, R298, R299: frames unacknowledged too long, a replay that does not end, and a lost lane each begin a
quick retrain; a third replay failure in a row fails the Door. -/
def LinkTroubleBeginsAQuickRetrain : Prop :=
  (∀ s (d : Fin 8), let r := Run.start s
    let x := s.c.doors[d]
    r.doorRuns d = true → x.up = true → x.kept ≠ [] → x.replaying = false →
    x.markAt + usec (r.fld (dorBase d + 0xC) 9 0) ≤ s.c.now →
    ∃ t, exec (.ackTimeout d) s = .next t ∧ t.c.doors[d] = { x with quick := true, replaying := false, replay := [] } ∧
      reportedIn s t Code.ackTimeout (28 + d.val) ∧ t.c.rooms = s.c.rooms ∧ t.c.fab = s.c.fab ∧ keepsCells s t) ∧
  (∀ s (d : Fin 8), let r := Run.start s
    let x := s.c.doors[d]
    r.doorRuns d = true → x.replaying = true → x.replayAt + usec (r.fld (dorBase d + 0xC) 9 0) ≤ s.c.now →
    ∃ t, exec (.replayFail d) s = .next t ∧ (t.c.doors[d]).fails = x.fails + 1 ∧
      (x.fails < 2 → (t.c.doors[d]).quick = true ∧ (t.c.doors[d]).replay = [] ∧ t.c.fbx = s.c.fbx) ∧
      (2 ≤ x.fails → (t.c.doors[d]).failed = true ∧ reportedIn s t Code.doorFail (28 + d.val)) ∧
      t.c.rooms = s.c.rooms ∧ keepsCells s t) ∧
  ∀ s (d lane : Fin 8), let r := Run.start s
    let x := s.c.doors[d]
    x.trained = true → r.fenced (unitDoor d) = false → r.mode.fabric = true →
    bothBad (x.laneBad ||| (1#8 <<< lane.val)) = false →
    ∃ t, exec (.laneFail d lane) s = .next t ∧
      t.c.doors[d] = { x with laneBad := x.laneBad ||| (1#8 <<< lane.val), degrade := true, quick := true,
                              replaying := false, replay := [] } ∧
      t.c.rooms = s.c.rooms ∧ t.c.fab = s.c.fab ∧ t.c.fbx = s.c.fbx ∧ keepsCells s t

/-- R288: a full training at full width leaves the Door trained on all its lanes; a quick retrain that succeeds sends
the kept frames again from the mark. -/
def TrainingEnds : Prop :=
  (∀ s (d : Fin 8), let x := s.c.doors[d]
    x.training = true → s.c.jtag = .none → (Run.start s).bit (dorBase d + 4) 2 = true →
    ∃ t, exec (.doorTrainDone d .full) s = .next t ∧ t = { s with c := { s.c with doors := t.c.doors } } ∧
      t.c.doors[d] = { x with training := false, beaconAt := s.c.now, trained := true, half := false, lset := false,
                              laneBad := 0 }) ∧
  ∀ s (d : Fin 8), let x := s.c.doors[d]
    x.quick = true → x.degrade = false →
    ∃ t, exec (.quickRetrainEnd d true) s = .next t ∧
      t.c.doors[d] = { x with quick := false, degrade := false, trained := true, replay := x.kept.map (·.seq),
                              replayAt := s.c.now, replaying := decide (0 < x.kept.length) } ∧
      t.c.rooms = s.c.rooms ∧ t.c.fab = s.c.fab ∧ t.c.fbx = s.c.fbx ∧ keepsCells s t

/-- R310: a gap that has lasted too long is skipped: the held message goes on to its Room, the next number follows it, and
SEQ_GAP is reported. -/
def SequenceGapIsSkipped : Prop :=
  ∀ s (src : Fin 64) cls h m, let r := Run.start s
    s.c.fab.held = [h] → h.src = BitVec.ofFin src → h.cls = cls → cls < 3 → h.since + usec (r.fld 0x190114 9 0) ≤ s.c.now →
    s.c.tt.run = true → r.msgTo h.msg = some m → r.fenced (unitRoom m) = false →
    ∃ t, exec (.seqGap src cls) s = .next t ∧ t.c.fab.held = [] ∧
      waits s t (152 + h.door) 0x5A (.room m h.msg h.door) none ∧ t.c.fab.inbox = s.c.fab.inbox ∧
      ((Run.start t).peer h.src).rxEseq[fin3 cls] = h.msg.eseq + 1 ∧ reportedIn s t Code.seqGap 50 ∧
      t.c.rooms = s.c.rooms ∧ t.c.porches = s.c.porches ∧ keepsCells s t

/-- R315, R316: the exchange with the parent: the request is captured and answered, the answer is captured, and the
follow-up gives θ and the delay, corrects the rate when θ is small, and ends the exchange. -/
def TimeExchangeCorrectsTheRate : Prop :=
  (∀ s (d : Fin 8) xn, let r := Run.start s
    let x := s.c.doors[d]
    r.doorRuns d = true →
    ∃ t, exec (.tReq d xn) s = .next t ∧
      t = { s with c := { s.c with doors := t.c.doors, xings := tookFrom s (.doorRx d) 1 } } ∧
      (t.c.doors[d]).asked = (x.asked.filter fun y => y.1 ≠ xn) ++ [(xn, BitVec.ofInt 64 (r.capture d))] ∧
      (t.c.doors[d]).txq = x.txq ++ [({ cls := 3, pos := 0, bytes := atByte 12 1 ||| atByte 14 xn.toNat } : TxFrame)]) ∧
  (∀ s (d : Fin 8) xn, let r := Run.start s
    r.timeMatch d xn = true →
    exec (.tResp d xn) s = .next { s with c := { s.c with
      time := { s.c.time with t4 := some (r.capture d) }, xings := tookFrom s (.doorRx d) 1 } }) ∧
  ∀ s (d : Fin 8) xn t2 t3 t1 t4, let r := Run.start s
    let theta := timeTheta t1 t2.toNat t3.toNat t4
    let run := if -10 ≤ theta ∧ theta ≤ 10 then min 8 (s.c.time.goodRun + 1) else 0
    r.timeMatch d xn = true → s.c.time.t1 = some t1 → s.c.time.t4 = some t4 → -1000 ≤ theta → theta ≤ 1000 →
    exec (.tFollow d xn t2 t3) s = .next { s with c := { s.c with xings := tookFrom s (.doorRx d) 1, time := { s.c.time with
      offset := theta, delay := (timeDelay t1 t2.toNat t3.toNat t4).toNat, goodRun := run,
      locked := s.c.time.locked || decide (8 ≤ run), holdover := false, lastXn := s.c.now, t1 := none,
      t4 := none, rate := slewRate theta r.timePeriod } } }

/-- R315, R316: once a period the House asks its parent for the time; sixteen periods without an answer are holdover. -/
def TimeIsAskedOrHeldOver : Prop :=
  (∀ s d, let r := Run.start s
    r.upstream = some d → r.doorRuns d = true → s.c.time.nextXn ≤ s.c.now →
    ∃ t, exec .timeExchange s = .next t ∧ t = { s with c := { s.c with doors := t.c.doors, time := t.c.time } } ∧
      t.c.time = { s.c.time with xn := s.c.time.xn + 1, t1 := none, t4 := none, nextXn := s.c.now + usec r.timePeriod } ∧
      (t.c.doors[d]).txq = (s.c.doors[d]).txq ++
        [({ cls := 3, pos := 0, bytes := atByte 12 0 ||| atByte 14 (s.c.time.xn + 1).toNat } : TxFrame)]) ∧
  ∀ s e, let r := Run.start s
    r.mode.fabric = true → s.c.time.holdover = false → r.actingMaster = some e → e ≠ r.myId →
    s.c.time.lastXn + 16 * usec r.timePeriod ≤ s.c.now →
    ∃ t, exec .timeHoldover s = .next t ∧
      t = { s with c := { s.c with time := t.c.time, mtr := t.c.mtr, fbx := t.c.fbx } } ∧
      t.c.time = { s.c.time with holdover := true, locked := false, goodRun := 0 } ∧
      t.c.mtr = { s.c.mtr with flagsLive := s.c.mtr.flagsLive ||| 16 } ∧ reportedIn s t Code.timeHoldover 46

/-- R83: a visit to a set with nothing in it moves the walker on, and every active job with it.
R355, R356: a trim visit that finds nothing to do moves on; 32,768 of them in a row end the trim. -/
def WalkerAndTrimMoveOn : Prop :=
  (∀ s (m : Fin 64), let r := Run.start s
    let y := s.c.rooms[m]
    quietRoom s m → y.jobs ≠ [] → slotFor s m.val 0x52 →
    (∀ w < 16, r.tag m y.walkSet w = {}) → (∀ w < 16, r.scn m y.walkSet w = {}) → (∀ w < 16, r.dir m y.walkSet w = {}) →
    ∃ t, exec (.walkerVisit { m := m }) s = .next t ∧ (t.c.rooms[m]).walkSet = (y.walkSet + 1) % 32768 ∧
      (t.c.rooms[m]).jobs = (y.jobs.map fun (j : Job) => { j with left := j.left - 1 }).filter (fun j => j.left ≠ 0) ∧
      (m.val, 0x52) ∈ t.c.used ∧ onlyRoom s t m ∧ t.c.chans = s.c.chans ∧ t.c.porches = s.c.porches ∧ keepsHall s t ∧
      keepsCells s t) ∧
  ∀ s (m : Fin 64), let r := Run.start s
    let y := s.c.rooms[m]
    quietRoom s m → y.trimWork = true → r.bit 0xC00830 0 = true → r.canIdle m.val = true → y.jobs = [] → y.trks = [] →
    r.trimWays m y.trimSet = [] → r.trimOver m y.trimSet = none →
    ∃ t, exec (.trimVisit { m := m }) s = .next t ∧ t = { s with c := { s.c with rooms := t.c.rooms, used := t.c.used } } ∧
      onlyRoom s t m ∧ t.c.rooms[m] = { y with trimSet := (y.trimSet + 1) % 32768, trimClean := y.trimClean + 1,
                                               trimWork := decide (y.trimClean + 1 < 32768) }

/-- R262: a scrub read of a line without errors moves its pointer on and changes no line.
R264: a lap that lasts too long is reported, once. -/
def ScrubReadsTheNextLine : Prop :=
  (∀ s (c : Fin 16) (rank : Fin 4) (bg : Fin 8), let r := Run.start s
    let i : Fin 32 := ⟨rank.val * 8 + bg.val, by omega⟩
    let x := s.c.chans[c]
    let idx := x.nthLine rank bg x.scrub[i]
    let line := r.line c idx
    r.scrubRuns = true → r.lostChan c = false → x.scrubDone.getLsbD i.val = false → r.idleRead c rank bg = true →
    rank.val < 2 ^ x.rankBits → r.resilFits c = false → r.lineBusy c idx = false → line.md.state ≠ 3 →
    erasures line.md.lcode (r.mark c rank) ≤ paritySyms line.md.lcode → x.scrub[i] + 1 < r.scrubLines c →
    ∃ t, exec (.scrubRead c rank bg {}) s = .next t ∧
      t.c.chans[c] = { x with scrub := x.scrub.set i.val (x.scrub[i] + 1) i.isLt } ∧
      t.c.out = { s.c.out with ddr := s.c.out.ddr ++ dramCmds s c false idx } ∧
      t.c.xings = tookFrom s (.celRead c) 3 ∧ t.c.rooms = s.c.rooms ∧ t.c.fbx = s.c.fbx ∧ keepsCells s t) ∧
  ∀ s, let r := Run.start s
    r.scrubRuns = true → s.c.scrubSlow = false → r.reg 0x60104 * 1000 < (s.c.now - s.c.scrubStart) / msec 1 →
    ∃ t, exec .scrubSlow s = .next t ∧ t = { s with c := { s.c with scrubSlow := true, fbx := t.c.fbx } } ∧
      reportedIn s t Code.scrubSlow 47

/-- R165, R166: RESILVER reads the next line of the frame for its Room, and goes on; in an idle slot the line that has come
becomes a write buffer entry that waits for the twin, and its copy waits to leave. -/
def ResilverSendsALineToTheTwin : Prop :=
  (∀ s e line c idx d p, let r := Run.start s
    let b := lineBlk line
    let a := r.attrOf b
    let m := r.serving (r.roomOf b)
    r.resilNext = some (line, c, idx) → r.fenced (unitRoom m) = false → r.lostChan c = false → r.twinFor b a = true →
    r.resilFits c = true →
    r.rdLine c ((s.c.chans[c]).rankOf idx) (r.line c idx) (if ((s.c.chans[c]).remapOf idx).isSome then {} else e) a.tenant
      (linePa line) none = .ok d p →
    ∃ t, exec (.resilverRead e) s = .next t ∧
      t.c.rooms[m] = { s.c.rooms[m] with
        resils := (s.c.rooms[m]).resils ++ [{ line := line, attr := a, data := d, poison := p }] } ∧
      waits s t (136 + c.val) 0x5A (.ret m (.resil line)) none ∧ t.c.rjob.next = s.c.rjob.next + 1 ∧
      t.c.out = { s.c.out with ddr := s.c.out.ddr ++ dramCmds s c false idx } ∧ t.c.xings = tookFrom s (.celRead c) 3 ∧
      onlyRoom s t m ∧ t.c.chans = s.c.chans ∧ t.c.porches = s.c.porches ∧ keepsCells s t) ∧
  ∀ s m x rest, let r := Run.start s
    let twin := (r.region (blkRegion (lineBlk x.line))).twin
    idleRoom s m → s.c.tt.run = true → (s.c.rooms[m]).resils = x :: rest → x.here = true → r.canIdle m.val = true →
    (s.c.rooms[m]).trimWork = false →
    let t := Run.finish s (r.resilPass m)
    ∃ w, (t.c.rooms[m]).wbuf = [w] ∧ w.line = x.line ∧ w.data = x.data ∧ w.mask = fullMask ∧ w.poison = x.poison ∧
      w.needTwin = true ∧ w.resil = true ∧ (t.c.rooms[m]).resils = rest ∧
      msgWaits s t (72 + m.val) 0xFF none twin Op.mirrorWr
        (fun f => f.addr = x.line ∧ f.line = x.data ∧ f.poison = x.poison) ∧
      onlyRoom s t m ∧ t.c.chans = s.c.chans ∧ keepsCells s t

/-- R274: a dirty near line that the sweep reads without error waits to go home as one WB. -/
def SweptDirtyLineGoesHome : Prop :=
  ∀ s (m : Fin 64) (way line : Fin 16) e sw, let r := Run.start s
    let set := sw.target
    let sw' := sw.begin set r.nearWays
    let cell := r.nearCell sw.lost set way.val
    let c := r.chanOf cell line
    let x := r.line c cell
    let b := r.blockOf sw.lost set x.md.tagSh
    let a := { r.attrOf b with tenant := x.md.tenant }
    (s.c.rooms[m]).sweep = some sw → sw.left ≠ 0 → r.fenced (unitRoom m) = false → (way.val, line.val) ∈ sw'.slots →
    r.lostChan c = false → r.nextCmd c m.val = none → r.recFits c false cell = true → r.lineBusy c cell = false →
    slotFor s (160 + c.val) (0x80 + m.val) →
    decodes x.md.lcode (r.mark c ((s.c.chans[c]).rankOf cell)) (if ((s.c.chans[c]).remapOf cell).isSome then {} else e) = true →
    x.md.state = 2 → x.md.way = BitVec.ofNat 4 way → x.md.dirty = true → r.nearable b a = true →
    x.md.epoch = (r.cls a.cls).epoch → r.homeOf b a.mirror ≠ r.myId → r.dead (r.homeOf b a.mirror) = false →
    ∃ t, exec (.sweepRead m way line e) s = .next t ∧
      t.c.rooms[m] = { s.c.rooms[m] with sweep := some (sw'.took way line) } ∧
      msgWaits s t (72 + m.val) 0x58 none (r.homeOf b a.mirror) Op.wb (fun f => f.addr = blkLine b line ∧
        f.line = r.decrypt x.md.tenant (linePa (blkLine b line)) x ∧ f.poison = x.md.poison) ∧
      t.c.out = { s.c.out with ddr := s.c.out.ddr ++ dramCmds s c false cell } ∧ t.c.xings = tookFrom s (.celRead c) 3 ∧
      onlyRoom s t m ∧ t.c.chans = s.c.chans ∧ keepsCells s t

/-- R265: FILL writes the Unwritten pattern, line by line. R268, R270: the rebuild sequencer writes a newer write of a line
that it has copied; of its next line, a home line becomes what its twin answered, or poison when there is no twin to ask,
and every other line takes the Unwritten pattern. -/
def FillAndRebuildWriteUnwrittenLines : Prop :=
  (∀ s (c : Fin 16), let r := Run.start s
    let idx := (s.c.chans[c]).fillPtr
    r.mode = .fill → r.lostChan c = false → r.canIdle (160 + c.val) = true →
    (∃ w w2, r.curRecord (160 + c.val) = some (w, w2) ∧ bitsOf w2 1 0 = 0) → r.extraRefresh c = false →
    r.xingFull (.celWrite c) = false → idx < r.chLines →
    ∃ t, exec (.fillWrite c) s = .next t ∧ storesLine s t c idx Line.unwritten ∧ drives s t c true idx ∧
      t.m = { s.m with dram := t.m.dram, remap := t.m.remap } ∧
      t.c.chans[c] = { s.c.chans[c] with fillPtr := idx + 1 } ∧ t.c.rooms = s.c.rooms ∧ t.c.fbx = s.c.fbx) ∧
  (∀ s (c : Fin 16) w, let r := Run.start s
    r.rebuildReady c = true → slotFor s (160 + c.val) 0x5C →
    (s.c.rebuild.late.find? fun w => decide (w.idx < (s.c.chans[c]).rebuildPtr)) = some w →
    ∃ t, exec (.rebuildWrite c) s = .next t ∧ storesLine s t c w.idx (r.encrypt w.tenant w.pa w.data w.md) ∧
      drives s t c true w.idx ∧ t.c.rebuild = { s.c.rebuild with late := s.c.rebuild.late.eraseP fun y => y = w } ∧
      t.c.chans = s.c.chans ∧ t.c.rooms = s.c.rooms ∧ t.c.fbx = s.c.fbx) ∧
  ∀ s (c : Fin 16), let r := Run.start s
    let idx := (s.c.chans[c]).rebuildPtr
    let writes : Line → Prop := fun x => ∃ t, exec (.rebuildWrite c) s = .next t ∧ storesLine s t c idx x ∧
      drives s t c true idx ∧ t.c.chans[c] = { s.c.chans[c] with rebuildPtr := idx + 1 } ∧ t.c.rooms = s.c.rooms ∧
      t.c.fbx = s.c.fbx
    r.rebuildReady c = true → slotFor s (160 + c.val) 0x5C → (∀ w ∈ s.c.rebuild.late, idx ≤ w.idx) → idx < r.chLines →
    (r.nearBase ≤ idx ∨ r.frameRgn idx = none → writes Line.unwritten) ∧
    (∀ n mine, idx < r.nearBase → r.frameRgn idx = some (n, mine) →
      let line := r.frameLine n c idx
      let a := r.attrOf (lineBlk line)
      let lc := (r.cls a.cls).lcode
      (r.twinAlive (lineBlk line) a = false → writes (r.encrypt a.tenant (linePa line) 0 (homeMeta a.tenant lc true))) ∧
      (∀ d p, r.twinAlive (lineBlk line) a = true → s.c.rebuild.got = some (d, p) →
        writes (r.encrypt a.tenant (linePa line) d (homeMeta a.tenant lc p))) ∧
      (r.twinAlive (lineBlk line) a = true → s.c.rebuild.ask = none → s.c.rebuild.got = none →
        ∃ t, exec (.rebuildWrite c) s = .next t ∧ t.c.rebuild = { s.c.rebuild with ask := some line } ∧
          msgWaits s t (136 + c.val) 0x5C none (r.partner (lineBlk line)) Op.rdU
            (fun f => f.addr = line ∧ f.twin = true ∧ f.mask = lineMask [lineNo line]) ∧
          t.c.chans = s.c.chans ∧ t.c.out = s.c.out ∧ keepsCells s t))

/-- R233, R267: a read that does not return and a CA-parity ALERT_n that persists are CH_FAIL; a hot DIMM doubles its
channel's refresh and is noted. -/
def ChannelFaultsAreReported : Prop :=
  (∀ s (c : Fin 16) x, (Run.start s).fenced (unitChan c) = false → x ∈ (s.c.chans[c]).flight →
    x.issuedAt + usec 2 ≤ s.c.now →
    ∃ t, exec (.channelReadTimeout c) s = .next t ∧ t = { s with c := { s.c with fbx := t.c.fbx } } ∧
      reportedIn s t Code.chFail (4 + c.val)) ∧
  (∀ s (c : Fin 16), (Run.start s).fenced (unitChan c) = false →
    ∃ t, exec (.ddrAlert c) s = .next t ∧ t = { s with c := { s.c with fbx := t.c.fbx } } ∧
      reportedIn s t Code.chFail (4 + c.val)) ∧
  ∀ s (c : Fin 16), (Run.start s).fenced (unitChan c) = false → (s.c.chans[c]).tcr2x = false →
    ∃ t, exec (.tcr2x c true) s = .next t ∧ t = { s with c := { s.c with fbx := t.c.fbx, chans := t.c.chans } } ∧
      t.c.chans[c] = { s.c.chans[c] with tcr2x := true } ∧ reportedIn s t Code.tcr2x (4 + c.val)

/-- R219, R220: at a seam boundary the pending switch to NOMINAL or COOL is taken. R435: DRAIN leaves for PANTRY at a
seam boundary: the Timetable stops, and the table that ran is kept. -/
def SeamTakesTheSwitch : Prop :=
  (∀ s, let r := Run.start s
    let x := s.c.tt
    r.seam = true → x.pend = true → x.pendCc < s.c.cc → x.next < 2 → s.c.fbx.cur = none →
    ∃ t, exec .tableSwitch s = .next t ∧ t.c = { s.c with tt := { x with cur := x.next, pend := false, lastFrom := x.cur,
                                                                          lastTo := x.next, lastFt := r.ftNs } } ∧
      (t.m.reg 0xC08).toNat = min 0xFFFFFFFF (r.reg 0xC08 + 1) ∧ keepsCells s t) ∧
  ∀ s, let r := Run.start s
    r.mode = .drain → s.c.mod.pantryReq = true → r.seam = true → s.c.mod.pantryCc < s.c.cc → s.c.tt.pend = false →
    (∀ (p : Fin 8) (k : Fin 2), (s.c.porches[p]).links[k].buf = []) →
    ∃ t, exec .pantryEntry s = .next t ∧ t.c.mod.mode = .pantry ∧ t.c.mod.origin = .drain ∧ t.c.mod.pantryReq = false ∧
      t.c.tt.run = false ∧ t.c.tt.saved = s.c.tt.cur ∧ (∀ p : Fin 8, (t.c.porches[p]).opened = false) ∧
      t.c.rooms = s.c.rooms ∧ t.c.chans = s.c.chans ∧ keepsCells s t

/-- R376, R379, R387, R390: a Minor event of no kind is logged, and sets the status bit of its source. -/
def MinorEventIsLogged : Prop :=
  ∀ s e, let r := Run.start s
    let f := s.c.fbx
    f.reported = [e] → e.inj = false → evKind e.code = .none → r.bit (evCfg e.code) 2 = false → r.baseSev e = 1 →
    e.addr = none → 4 ≤ e.src → e.src < 51 →
    ∃ t x, exec .eventDecide s = .next t ∧ t.c.fbx.reported = [] ∧
      t.c.fbx.log.toList[f.logPtr % 256]? = some (some x) ∧ x.ev = e ∧ x.sev = 1 ∧ x.seqNo = (f.logTotal + 1) % 2 ^ 32 ∧
      t.c.fbx.logPtr = (f.logPtr + 1) % 256 ∧ t.c.fbx.status = f.status ||| (1#51 <<< e.src) ∧ t.c.fbx.anySev = true ∧
      t.c.fbx.fenced = f.fenced ∧ t.c.mod = s.c.mod ∧ t.c.tt = s.c.tt ∧ t.c.rooms = s.c.rooms ∧ keepsCells s t

/-- R380: the first Major DOOR_FAIL in RUN fences its Door: the House is DEGRADED, and the switch to the Door's fallback
table is pending. -/
def FailedDoorIsFenced : Prop :=
  ∀ s e (d : Fin 8), let r := Run.start s
    s.c.fbx.reported = [e] → e.code = Code.doorFail → e.src = 28 + d.val → e.inj = false →
    r.bit (evCfg Code.doorFail) 2 = false → r.baseSev e = 2 → r.mode = .run → s.c.tt.run = true → s.c.tt.cur < 2 →
    s.c.tt.pend = false → r.unitUsed (unitDoor d) = true → r.fenced (unitDoor d) = false →
    ∃ t, exec .eventDecide s = .next t ∧ t.c.fbx.fenced = s.c.fbx.fenced ||| (1#96 <<< unitDoor d) ∧
      t.c.fbx.cur = some (unitDoor d) ∧ t.c.fbx.phase = 0 ∧ t.c.mod.mode = .degraded ∧ t.c.mod.prev = .run ∧
      t.c.tt.pend = true ∧ t.c.tt.next = 82 + d.val ∧ (t.c.doors[d]).up = false ∧ t.c.rooms = s.c.rooms ∧ keepsCells s t

/-- R394: a fault of the Fuse box itself takes the House to SAFE past all classification. R384: a shadow that has ended is
dropped when no undecided event lies before its end. -/
def FuseBoxFaultIsSafe : Prop :=
  (∀ s area, let r := Run.start s
    r.mode ≠ .off → r.mode ≠ .aux → r.mode ≠ .safe → r.mode.fabric = false →
    (∀ p : Fin 8, (s.c.porches[p]).store = [] ∧ (s.c.porches[p]).bars = []) →
    (∀ (p : Fin 8) (k : Fin 2), (s.c.porches[p]).links[k].buf = [] ∧ (s.c.porches[p]).links[k].up = false) →
    ∃ t, exec (.fuseSelfFault area) s = .next t ∧ t.c.mod.mode = .safe ∧ t.c.mod.prev = r.mode ∧ t.c.fbx.selfFault = true ∧
      t.c.fbx.selfArea = area ∧ t.c.fbx.logTotal = (s.c.fbx.logTotal + 1) % 2 ^ 32 ∧ 1 ∈ t.c.mgA.msix ∧ 1 ∈ t.c.mgB.msix ∧
      t.c.tt.run = false ∧ t.c.rooms = s.c.rooms ∧ t.m = s.m) ∧
  ∀ s, exec .fenceShadowEnd s = .next { s with c := { s.c with fbx := { s.c.fbx with
    shadows := s.c.fbx.shadows.filter fun x => decide ((Run.start s).ftNs < x.stop) ||
      s.c.fbx.reported.any fun e => decide (e.stamp < x.stop) } } }

/-- R424, R425, R242: the self-test ends when training has, with its results and vector 5; a channel that passes its training in CHECK is
trained. R431: a Door that is not up when the join time-out ends reports DOOR_FAIL. -/
def CheckAndJoinEnd : Prop :=
  (∀ s, let r := Run.start s
    r.mode = .check → s.c.selft.busy = true → r.trainOver = true →
    exec (.selftestDone {}) s = .next { s with c := { s.c with
      selft := { s.c.selft with busy := false, done := true }, mgA := s.c.mgA.raise 5, mgB := s.c.mgB.raise 5 } }) ∧
  (∀ s (x : SelfTest), let r := Run.start s
    r.mode = .check → s.c.selft.busy = true → r.trainOver = true →
    ∃ t, exec (.selftestDone x) s = .next t ∧ t.c.selft.busy = false ∧ t.c.selft.done = true ∧ vectorIn s t 5 ∧
      (x.codeChans ≠ [] → t.c.selft.codeFail = true) ∧ (x.crcFail.isSome = true → t.c.selft.crcFail = true) ∧
      t.c.mod = s.c.mod ∧ t.c.tt = s.c.tt ∧ t.m.dram = s.m.dram) ∧
  (∀ s (c : Fin 16) (x : ChTrain), let r := Run.start s
    r.mode = .check → s.c.rebuild.busy = false → (s.c.chans[c]).trained = false → (s.c.chans[c]).trainFail = false →
    r.fenced (unitChan c) = false → x.pass = true →
    ∃ t, exec (.channelTrainDone c x) s = .next t ∧ t = { s with c := { s.c with chans := t.c.chans } } ∧
      t.c.chans[c] = { s.c.chans[c] with
        trained := true, capGib := x.capGib, ranks := x.ranks, dens := x.dens, mrdimm := x.mrdimm }) ∧
  ∀ s d, let r := Run.start s
    r.mode = .join → s.c.mod.joinOver = false → s.c.mod.joinAt + msec (r.fld 0x10C 15 0) ≤ s.c.now →
    r.doorsMissing = [d] →
    ∃ t, exec .joinTimeout s = .next t ∧ t.c.mod = { s.c.mod with joinOver := true } ∧ (t.c.doors[d]).failed = true ∧
      reportedIn s t Code.doorFail (28 + d.val) ∧ t.c.rooms = s.c.rooms ∧ t.m = s.m

/-- R428, R429: AUX leaves for LOAD when supplies and clocks are there; LOAD begins with its blocks in reset, and with an
image load when IMG_CTRL.AUTO asks for one. LOAD leaves for CHECK when a request is pending and its image is there, and
CHECK begins with its channels untrained. A step whose conditions are not all met waits on the first that is not. -/
def StartUpSteps : Prop :=
  (∀ s, let r := Run.start s
    r.mode = .aux → s.c.pwrGood = true → s.c.railLow = 0 → s.c.clk.ref100 = true → s.c.clk.coreLock = true →
    s.c.porches = Vector.replicate 8 {} →
    ∃ t, exec .startUpStep s = .next t ∧ t.c.mod.mode = .load ∧ t.c.mod.prev = .aux ∧ t.c.rooms = Vector.replicate 64 {} ∧
      t.c.doors = Vector.replicate 8 {} ∧ t.c.tt.run = false ∧ t.c.img.busy = (r.bit 0x200 0 || s.c.img.busy) ∧
      t.m.dram = s.m.dram ∧ t.m.tags = s.m.tags) ∧
  (∀ s, let r := Run.start s
    r.mode = .load → s.c.mod.pend = true → r.unmet .load = none →
    ∃ t, exec .startUpStep s = .next t ∧ t.c.mod.mode = .check ∧ t.c.mod.prev = .load ∧
      (s.c.mod.target ≠ .check → t.c.mod.pend = true) ∧ (s.c.mod.target = .check → t.c.mod.pend = false) ∧
      (∀ c : Fin 16, (t.c.chans[c]).trained = false) ∧ t.c.selft.busy = true ∧ t.m.dram = s.m.dram) ∧
  ∀ s w, let r := Run.start s
    let waitsOn : Prop := exec .startUpStep s = .next { s with c := { s.c with mod := { s.c.mod with wait := w } } }
    (r.mode = .aux ∨ (r.mode ≠ .check ∧ s.c.mod.pend = true) → r.unmet r.mode = some w → waitsOn) ∧
    (r.mode = .load → s.c.mod.pend = false → w = (r.unmet .load).getD 0 → waitsOn)

/-- R270: when the sequencer has written every line, the Rooms begin to release the refuge; when they have released it, the
rebuild is done and its channel READY, with vector 5. -/
def RebuildReleasesTheRefuge : Prop :=
  (∀ s, let r := Run.start s
    s.c.rebuild.busy = true → r.sequencerOver = true → s.c.rebuild.released = false → r.mode = .run →
    ∃ t, exec .rebuildEnd s = .next t ∧ t.c.rebuild = { s.c.rebuild with released := true } ∧
      (∀ m : Fin 64, (t.c.rooms[m]).refugeShut = true ∧ (r.fenced (unitRoom m) = false → t.c.rooms[m] = { s.c.rooms[m] with
        refugeShut := true, jobs := ((s.c.rooms[m]).jobs.filter fun j => j.kind ≠ .refugeRelease) ++
          [{ kind := .refugeRelease, left := 32768, start := (s.c.rooms[m]).walkSet }] })) ∧
      t.c.chans = s.c.chans ∧ t.c.fbx = s.c.fbx ∧ t.m = s.m) ∧
  ∀ s, let r := Run.start s
    let c := s.c.rebuild.ch
    s.c.rebuild.busy = true → r.sequencerOver = true → s.c.rebuild.released = true →
    (∀ m : Fin 64, r.fenced (unitRoom m) = false ∧ ∀ j ∈ (s.c.rooms[m]).jobs, j.kind ≠ .refugeRelease) →
    exec .rebuildEnd s = .next { s with c := { s.c with
      rebuild := { s.c.rebuild with busy := false, done := true },
      chans := s.c.chans.set c.val { s.c.chans[c] with ready := true } c.isLt,
      mgA := s.c.mgA.raise 5, mgB := s.c.mgB.raise 5 } }

/-- R451: a management write that is not an aligned full word changes nothing and is logged.
R452, R455: a full-word write of a plain register (here RTE_POOL_NAME) stores the word; its SET, CLEAR and TOGGLE aliases
change the bits that are 1; a location without a register ignores the write. -/
def ManagementWrites : Prop :=
  (∀ s g a be v, s.c.mod.mode ≠ .off → be ≠ 0 → ¬(be = 0xF ∧ a.toNat % 4 = 0) →
    ∃ t, exec (.mgmtWrite g a be v) s = .next t ∧ t = { s with c := { heard s g with fbx := t.c.fbx } } ∧
      reportedIn s t Code.csrAccess (Writer.port g).src) ∧
  (∀ s g v, mgmtReady s → let old := s.m.reg 0x190118
    (∃ t, exec (.mgmtWrite g 0x190118 0xF v) s = .next t ∧ regIs s t 0x190118 v ∧ t.c = { heard s g with crc := t.c.crc }) ∧
    (∃ t, exec (.mgmtWrite g 0x194118 0xF v) s = .next t ∧ regIs s t 0x190118 (old ||| v) ∧ t.c = { heard s g with crc := t.c.crc }) ∧
    (∃ t, exec (.mgmtWrite g 0x198118 0xF v) s = .next t ∧ regIs s t 0x190118 (old &&& ~~~v) ∧
      t.c = { heard s g with crc := t.c.crc }) ∧
    ∃ t, exec (.mgmtWrite g 0x19C118 0xF v) s = .next t ∧ regIs s t 0x190118 (old ^^^ v) ∧ t.c = { heard s g with crc := t.c.crc }) ∧
  ∀ s g (a : BitVec 26) v, mgmtReady s → a.toNat % 4 = 0 → regDef (aliasOf a.toNat).1 = none → a.toNat < 0xC10000 →
    exec (.mgmtWrite g a 0xF v) s = .next { s with c := heard s g }

/-- R39: the first word of a window segment is stored when the segment would lie in one slice and overlap no other of its
link; R454: else nothing is stored, and WINDOW_BAD is logged. -/
def WindowSegmentIsChecked : Prop :=
  ∀ s g (p : Fin 8) (n : Fin 64) v, let r := Run.start s
    let a := segBase p n.val
    let x := Seg.ofWords v.toNat (r.reg (a + 4)) (r.reg (a + 8))
    let good := x.v = false ∨ (1 ≤ x.size ∧ x.size ≤ 4096 ∧ x.pool % 4096 + x.size ≤ 4096 ∧
      ∀ t < 64, t ≠ n.val → (r.bif p = true → t / 32 = n.val / 32) → (r.seg p t).v = true →
        gibOverlap x.dpa x.size (r.seg p t).dpa (r.seg p t).size = false)
    mgmtReady s →
    (good → ∃ t, exec (.windowSegmentWrite g (BitVec.ofNat 26 a) 0xF v) s = .next t ∧ regIs s t a (v &&& 0x803FFFFF) ∧
      t.c = { heard s g with crc := t.c.crc }) ∧
    (¬good → ∃ t, exec (.windowSegmentWrite g (BitVec.ofNat 26 a) 0xF v) s = .next t ∧
      t = { s with c := { heard s g with fbx := t.c.fbx } } ∧ reportedIn s t Code.windowBad (Writer.port g).src)

/-- R41, R279: clearing the KIND of a region takes its frame out of the frame map when this House held it. R350, R356: a
write of a class's WAY_MASK is stored, and one that takes a way away wakes the trim in every Room. R84: a bit set in
RM_WAYDIS begins the way-disable job of its way. -/
def TableEntriesAndWaysAreWritten : Prop :=
  (∀ s g (n : BitVec 18), let r := Run.start s
    mgmtReady s → ∃ t, exec (.regionEntryWrite g (BitVec.ofNat 26 (rgnBase n)) 0xF 0) s = .next t ∧ regIs s t (rgnBase n) 0 ∧
      (r.holdsFrame n (r.region n) = true → t.m.frames = merase s.m.frames (r.region n).frame) ∧
      (r.holdsFrame n (r.region n) = false → t.m.frames = s.m.frames) ∧ t.m.dram = s.m.dram ∧
      t.c = { heard s g with crc := t.c.crc }) ∧
  (∀ s g (c : Fin 64) v, let a := 0xC00004 + 0x20 * c.val
    mgmtReady s → ∃ t, exec (.classEntryWrite g (BitVec.ofNat 26 a) 0xF v) s = .next t ∧ regIs s t a (v &&& 0xFFFF) ∧
      (s.m.reg a &&& ~~~v &&& 0xFFFF ≠ 0 → ∀ m : Fin 64, (t.c.rooms[m]).trimWork = true ∧ (t.c.rooms[m]).trimClean = 0) ∧
      (s.m.reg a &&& ~~~v &&& 0xFFFF = 0 → t.c.rooms = s.c.rooms) ∧ t.c.chans = s.c.chans ∧ keepsCells s t) ∧
  ∀ s g (m : Fin 64) (w : Fin 16), let a := rmBase m + 0x20
    mgmtReady s → s.c.mod.mode ≠ .load → s.c.mod.mode ≠ .check → s.c.mod.mode ≠ .fill →
    (Run.start s).fenced (unitRoom m) = false → (s.m.reg a).getLsbD w.val = false →
    ∃ t, exec (.waydisWrite g (BitVec.ofNat 26 a) 0xF (w32 (2 ^ w.val + 2 ^ (16 + w.val)))) s = .next t ∧
      regIs s t a ((s.m.reg a ||| w32 (2 ^ w.val)) &&& 0xFFFF) ∧
      t.c.rooms[m] = { s.c.rooms[m] with jobs := ((s.c.rooms[m]).jobs.filter fun j => j.kind ≠ .wayDis w) ++
        [{ kind := .wayDis w, left := 32768, start := (s.c.rooms[m]).walkSet }] } ∧
      t.c.chans = s.c.chans ∧ t.c.porches = s.c.porches ∧ keepsCells s t

/-- R97–R99: a Pantry write changes one word of one entry, check bits apart, and a read returns it; a closed Pantry reads
0. R92: an uncorrectable entry reads all ones, and a corrected one as it should. -/
def PantryReadsAndWrites : Prop :=
  (∀ s g (x : BitVec 25) v, let r := Run.start s
    let (n, i) := r.pantryAt x.toNat
    storesWf s → r.pantryOpen = true → s.c.img.busy = false → x.toNat % 4 = 0 →
    ∃ t, exec (.pantryWrite g x 0xF v) s = .next t ∧
      entWord ((Run.start t).pantryBits n) i = (if i = 2 then v &&& 0x7FFFFF else v) ∧
      (∀ j < 3, j ≠ i → entWord ((Run.start t).pantryBits n) j = entWord (r.pantryBits n) j) ∧
      t.c.rooms = s.c.rooms ∧ t.c.fbx = s.c.fbx ∧ t.m.dram = s.m.dram ∧ t.m.regs = s.m.regs) ∧
  (∀ s g (x : BitVec 25), let r := Run.start s
    let (n, i) := r.pantryAt (x.toNat / 4 * 4)
    r.pantryOpen = true →
    (∃ t w, exec (.pantryRead g x none) s = .next t ∧ t = { s with c := told s g (0x2000000 + x.toNat) w } ∧
      (i < 2 → w = entWord (r.pantryBits n) i)) ∧
    ∃ t, exec (.pantryRead g x (some true)) s = .next t ∧
      t.c.out = (told s g (0x2000000 + x.toNat) 0xFFFFFFFF).out ∧ keepsCells s t) ∧
  ∀ s g x u, s.c.mod.mode ≠ .off → (Run.start s).pantryOpen = false →
    ∃ t, exec (.pantryRead g x u) s = .next t ∧
      t = { s with c := { told s g (0x2000000 + x.toNat) 0 with fbx := t.c.fbx } } ∧
      reportedIn s t Code.pantryClosed (Writer.port g).src

/-- R358, R359: words of a key are staged; word 15 installs the stage as the tenant's key, and the stage is empty. -/
def KeysAreStagedAndCommitted : Prop :=
  (∀ s g (n : Fin 4096) (i : Fin 15) v, mgmtReady s → n.val ≠ 0 → s.c.stage = none →
    exec (.keyStageWrite g n i v) s = .next { s with c := { heard s g with
      stage := some { tenant := n.val, words := mset 0 [] i.val v } } }) ∧
  ∀ s g (n : Fin 4096) v st, mgmtReady s → storesWf s → n.val ≠ 0 → s.c.stage = some st → st.tenant = n.val →
    ∃ t, exec (.keyCommit g n v) s = .next t ∧ t.c = { heard s g with stage := none } ∧
      (∀ i < 15, mget 0 t.m.keys (16 * n.val + i) = mget 0 st.words i) ∧ mget 0 t.m.keys (16 * n.val + 15) = v ∧
      (t.m.reg (0xC10000 + n.val * 0x10)).getLsbD 1 = true ∧ t.m.dram = s.m.dram ∧ t.m.tags = s.m.tags

/-- R432, R433: a request for a mode further on the start-up path is pending until it is reached; RUN leaves for DRAIN at
once. -/
def ModeRequests : Prop :=
  (∀ s g (v : Word) t', let r := Run.start s
    mgmtReady s → v.getLsbD 16 = true → v.getLsbD 4 = false → Mode.ofCode (v.toNat % 16) = some t' →
    onPath r.mode t' = true →
    ∃ t, exec (.modeRequest g 0x104 v) s = .next t ∧ t.c = { heard s g with mod := { s.c.mod with pend := true, target := t', logged := 0 } } ∧
      keepsCells s t) ∧
  ∀ s g, mgmtReady s → s.c.mod.mode = .run →
    ∃ t, exec (.modeRequest g 0x104 0x10009) s = .next t ∧ t.c.mod.mode = .drain ∧ t.c.mod.drainFrom = .run ∧
      t.c.mod.prev = .run ∧ t.c.mod.pend = false ∧ t.c.rooms = s.c.rooms ∧ t.c.porches = s.c.porches ∧ t.c.tt = s.c.tt ∧
      keepsCells s t

/-- R396, R397: an accepted un-fence of a channel, Door or Porch asks for the switch back at once; that of a Room begins
the handback in every other Room first. -/
def UnfenceBegins : Prop :=
  ∀ s g (v : Word), let r := Run.start s
    let u := bitsOf v.toNat 14 8
    mgmtReady s → v.getLsbD 16 = true → v.getLsbD 4 = true → r.unfenceOk u = true → s.c.tt.run = true → s.c.tt.pend = false →
    (64 ≤ u → ∃ t, exec (.unfenceRequest g 0x104 v) s = .next t ∧ t.c.fbx = { s.c.fbx with phase := 2 } ∧
      t.c.tt = { s.c.tt with pend := true, next := r.homeTable, pendCc := s.c.cc } ∧ t.c.rooms = s.c.rooms ∧
      keepsCells s t) ∧
    (u < 64 → (∀ w, w ≠ u → r.fenced w = false) → ∃ t, exec (.unfenceRequest g 0x104 v) s = .next t ∧
      t.c.fbx = { s.c.fbx with phase := 1 } ∧ t.c.tt = s.c.tt ∧
      (∀ m : Fin 64, m.val ≠ u → (t.c.rooms[m]).jobs = ((s.c.rooms[m]).jobs.filter fun j => j.kind ≠ .handback) ++
        [{ kind := .handback, left := 32768, start := (s.c.rooms[m]).walkSet }]) ∧ keepsCells s t)

/-- R86, R165: a class drain and a FLUSH begin a job in every Room, RESILVER its copy; R270: a rebuild retrains its
channel. -/
def JobsBegin : Prop :=
  (∀ s g (v : Word), let cls := v.extractLsb' 0 6
    mgmtReady s → s.c.mod.mode ≠ .load → s.c.mod.mode ≠ .check → s.c.mod.mode ≠ .fill → s.c.cdrainBusy = false →
    (∀ m : Fin 64, (Run.start s).fenced (unitRoom m) = false) → v.getLsbD 8 = true →
    ∃ t, exec (.classDrainGo g 0xA00 v) s = .next t ∧ t.c.cdrainBusy = true ∧ t.c.cdrainDone = false ∧
      (∀ m : Fin 64, t.c.rooms[m] = { s.c.rooms[m] with jobs := ((s.c.rooms[m]).jobs.filter fun j => j.kind ≠ .classDrain cls) ++
        [{ kind := .classDrain cls, left := 32768, start := (s.c.rooms[m]).walkSet }] }) ∧
      t.c.chans = s.c.chans ∧ t.c.porches = s.c.porches ∧ keepsCells s t) ∧
  (∀ s g (v : Word), let n := v.extractLsb' 0 18
    mgmtReady s → s.c.mod.mode ≠ .load → s.c.mod.mode ≠ .check → s.c.mod.mode ≠ .fill → s.c.rjob.busy = false →
    (∀ m : Fin 64, (Run.start s).fenced (unitRoom m) = false) → v.getLsbD 20 = true → v.extractLsb' 18 2 = 0 →
    ∃ t, exec (.flush g 0xA08 v) s = .next t ∧ t.c.rjob = { busy := true, region := n } ∧
      (∀ m : Fin 64, t.c.rooms[m] = { s.c.rooms[m] with jobs := ((s.c.rooms[m]).jobs.filter fun j => j.kind ≠ .flush n) ++
        [{ kind := .flush n, left := 32768, start := (s.c.rooms[m]).walkSet }] }) ∧
      t.c.chans = s.c.chans ∧ t.c.porches = s.c.porches ∧ keepsCells s t) ∧
  (∀ s g (v : Word), let n := v.extractLsb' 0 18
    mgmtReady s → s.c.rjob.busy = false → v.getLsbD 20 = true → v.extractLsb' 18 2 = 1 → rgnHome n = (Run.start s).myId →
    ((Run.start s).region n).attr.mirror = true →
    ∃ t, exec (.resilver g 0xA08 v) s = .next t ∧ t.c.rjob = { busy := true, resilver := true, region := n } ∧
      t.c.rooms = s.c.rooms ∧ t.c.chans = s.c.chans ∧ keepsCells s t) ∧
  ∀ s g (v : Word), let c : Fin 16 := (v.extractLsb' 0 4).toFin
    mgmtReady s → s.c.rebuild.busy = false → (s.c.chans[c]).lost = true → v.getLsbD 4 = true →
    ∃ t, exec (.rebuildGo g 0x110030 v) s = .next t ∧ t.c.rebuild = { busy := true, ch := c } ∧
      t.c.chans[c] = { s.c.chans[c] with trained := false, trainFail := false, ready := false, rebuildPtr := 0 } ∧
      t.c.rooms = s.c.rooms ∧ keepsCells s t

/-- R197, R219, R288: a management sync with nothing to wait for is done at once, and one that has waits for it; a legal TT_FORCE is pending; RETRAIN
begins a full training of its Door. -/
def SyncForceAndRetrain : Prop :=
  (∀ s g (p : Fin 8), let x := s.c.porches[p]
    mgmtReady s → x.bars = [] → x.store = [] → x.lands = [] →
    ∃ t, exec (.msyncGo g p) s = .next t ∧ (t.c.porches[p]).bars = [] ∧ (t.c.porches[p]).msyncDone = true ∧
      t.c.mgA = s.c.mgA.raise 5 ∧ t.c.mgB = s.c.mgB.raise 5 ∧ t.c.rooms = s.c.rooms ∧ t.c.out = s.c.out ∧ keepsCells s t) ∧
  (∀ s g (p : Fin 8), let x := s.c.porches[p]
    let lands := (x.lands.filter fun e => !e.links.isEmpty).map fun e => e.seq
    let uids := (x.store.filter fun e => !e.sent).map fun e => e.uid
    mgmtReady s → x.bars = [] → (lands ≠ [] ∨ uids ≠ []) →
    ∃ t b, exec (.msyncGo g p) s = .next t ∧ (t.c.porches[p]).bars = [b] ∧ b.kind = .msync ∧ b.lands = lands ∧ b.uids = uids ∧
      (t.c.porches[p]).msyncDone = false ∧ t.c = { heard s g with porches := t.c.porches } ∧ keepsCells s t) ∧
  (∀ s g (v : Word), let n := v.toNat % 128
    mgmtReady s → v.getLsbD 8 = true → (Run.start s).forceLegal n = true →
    ∃ t, exec (.ttForceGo g 0xC1C v) s = .next t ∧
      t.c.tt = { s.c.tt with pend := true, next := n, pendCc := s.c.cc } ∧ t.c.rooms = s.c.rooms ∧ keepsCells s t) ∧
  ∀ s g (d : Fin 8) (v : Word), mgmtReady s → v.getLsbD 0 = true → v.getLsbD 1 = true →
    (s.c.mod.mode.fabric = true ∨ s.c.mod.mode = .pantry) → (Run.start s).fenced (unitDoor d) = false →
    ∃ t, exec (.retrain g d v) s = .next t ∧ t.c.doors[d] = { s.c.doors[d] with
        training := true, quick := false, up := false, mismatch := false, failed := false, replaying := false, replay := [] } ∧
      t.c.rooms = s.c.rooms ∧ t.c.fab = s.c.fab ∧ keepsCells s t

/-- R389, R392, R395: REARM empties the first-error capture; a legal injection is an event of its code and source; a
re-check begins for its unit, and ends with its result and vector 5. -/
def FuseBoxCommands : Prop :=
  (∀ s g (v : Word), mgmtReady s → v.getLsbD 1 = true →
    ∃ t, exec (.rearm g 0x10118 v) s = .next t ∧ t.c.fbx = { s.c.fbx with first := none, firstSwap := false } ∧
      t.c.rooms = s.c.rooms ∧ t.c.mod = s.c.mod ∧ keepsCells s t) ∧
  (∀ s g (v : Word) src sub, mgmtReady s → v.getLsbD 16 = true → injLegal v.toNat = true →
    injTarget (bitsOf v.toNat 7 0) (bitsOf v.toNat 14 8) = some (src, sub) →
    (∀ u, evUnit src sub = some u → (Run.start s).fenced u = false) →
    ∃ t e, exec (.fbxInject g 0x10400 v) s = .next t ∧ t.c.fbx = { s.c.fbx with reported := s.c.fbx.reported ++ [e] } ∧
      e.code = bitsOf v.toNat 7 0 ∧ e.src = src ∧ e.sub = sub ∧ e.cause = bitsOf v.toNat 26 24 ∧ e.inj = true ∧
      e.stamp = (Run.start s).ftNs ∧ t.c.rooms = s.c.rooms ∧ t.c.mod = s.c.mod ∧ keepsCells s t) ∧
  (∀ s g (v : Word), let u := bitsOf v.toNat 6 0
    mgmtReady s → v.getLsbD 8 = true → (Run.start s).recheckLegal u = true →
    ∃ t, exec (.recheckGo g 0x10310 v) s = .next t ∧
      t.c.fbx = { s.c.fbx with reBusy := true, rePass := false, reFail := false, reUnit := u } ∧
      (∀ d : Fin 8, u = unitDoor d → (t.c.doors[d]).training = true) ∧ t.c.rooms = s.c.rooms ∧ keepsCells s t) ∧
  ∀ s pass rows, s.c.fbx.reBusy = true → (64 ≤ s.c.fbx.reUnit ∨ rows = []) →
    ∃ t, exec (.recheckEnd pass rows) s = .next t ∧ t = { s with c := { s.c with
        fbx := { s.c.fbx with reBusy := false, rePass := pass, reFail := !pass }, doors := t.c.doors,
        mgA := s.c.mgA.raise 5, mgB := s.c.mgB.raise 5 } } ∧
      ∀ d : Fin 8, t.c.doors[d] = if s.c.fbx.reUnit = unitDoor d then
        { s.c.doors[d] with training := false, trained := pass, up := pass } else s.c.doors[d]

/-- Every bit that the configuration CRC covers reads its reset value, and the CDAT tables are empty. -/
def configCleared (t : State) : Prop :=
  (∀ a, t.m.reg a &&& w32 (crcMask a) = regReset a &&& w32 (crcMask a)) ∧
    ∀ (p : Fin 8) (k : Fin 2), (t.c.porches[p]).links[k].cdat = []

/-- R97, R424: in CHECK, SCB_SELFTEST.GO starts the self-test and the BIST, which leaves the Pantry arbitrary. -/
def SelfTestRunsAgain : Prop :=
  ∀ s g (v : Word), mgmtOpen s → s.c.mod.mode = .check → v.getLsbD 0 = true →
    ∃ t, exec (.selftestGo g 0x60000 v) s = .next t ∧
      t.c = { heard s g with selft := { busy := true, wiped := true, runs := s.c.selft.runs + 1 } } ∧
      t.m = { s.m with regs := t.m.regs, pan := mdrop 0 (2 ^ 25) s.m.pan } ∧ ∀ b, b ≠ 0x60000 → t.m.reg b = s.m.reg b

/-- R419, R421: in LOAD, IMG_CTRL.GO starts the image loader, which clears the configuration. -/
def ImageLoadBegins : Prop :=
  ∀ s g (v : Word), mgmtOpen s → s.c.mod.mode = .load → storesWf s → v.getLsbD 2 = true →
    ∃ t, exec (.imgLoadGo g 0x200 v) s = .next t ∧
      t.c.img = { busy := true, src := v.getLsbD 1, startAt := s.c.now, flash := s.c.img.flash, spiBusy := s.c.img.spiBusy } ∧
      configCleared t ∧ t.c.rooms = s.c.rooms ∧ t.c.chans = s.c.chans ∧ t.c.doors = s.c.doors ∧ t.m.dram = s.m.dram ∧
      t.m.tags = s.m.tags

/-- R418, R420, R421: a load from the Pantry ends with its one attempt: when that has passed, what it applied stands, with
OK and the image's VERSION; when it has failed, the load ends without an image. An image whose header fails check 1 ends its
load with FORMAT and IMG_AUTH; a flash in which no boot record is found ends it with NOFLASH. Each raises vector 5. -/
def ImageLoadEnds : Prop :=
  (∀ s f, let r := Run.start s
    let bs := r.pantryImage
    let x := (r.attempt bs bs bs.length).1
    let passed := (r.attempt bs bs bs.length).2
    let ends : Img → Prop := fun y => ∃ t, exec (.imageLoadEnd f) s = .next t ∧
      t.c = { x.c with img := y, mgA := x.c.mgA.raise 5, mgB := x.c.mgB.raise 5 } ∧ t.m = x.m
    s.c.img.busy = true → s.c.img.src = true →
    (passed = true → targetMode bs = 2 →
      ends { x.c.img with busy := false, ok := true, version := BitVec.ofNat 16 (leAt bs 12 2) }) ∧
    (passed = false → ends { x.c.img with busy := false, noflash := !x.c.img.src })) ∧
  (∀ s f, let bs := (Run.start s).pantryImage
    s.c.img.busy = true → s.c.img.src = true → headOk bs bs.length = false →
    ∃ t, exec (.imageLoadEnd f) s = .next t ∧
      t.c = { s.c with fbx := t.c.fbx, mgA := t.c.mgA, mgB := t.c.mgB,
                       img := { s.c.img with format := true, busy := false, noflash := false } } ∧
      reportedIn s t Code.imgAuth 43 ∧ vectorIn s t 5 ∧ t.m = s.m) ∧
  ∀ s (f : FlashRead), s.c.img.busy = true → s.c.img.src = false → f.found = false →
    ∃ t, exec (.imageLoadEnd f) s = .next t ∧
      t.c = { s.c with mgA := t.c.mgA, mgB := t.c.mgB, img := { s.c.img with flash := 0, busy := false, noflash := true } } ∧
      vectorIn s t 5 ∧ t.m = s.m

/-- R419: a load that has not ended within 30 s ends, with IMG_TIMEOUT, and the configuration is cleared. -/
def ImageLoadTimesOut : Prop :=
  ∀ s, storesWf s → s.c.img.busy = true → s.c.img.startAt + msec 30000 ≤ s.c.now →
    ∃ t, exec .imgTimeout s = .next t ∧ t.c.img = { s.c.img with timeout := true, busy := false, noflash := !s.c.img.src } ∧
      configCleared t ∧ reportedIn s t Code.imgTimeout 43 ∧ vectorIn s t 5 ∧ t.c.rooms = s.c.rooms ∧ t.m.dram = s.m.dram ∧
      t.m.tags = s.m.tags

/-- R438: an SPI command sends its opcode, then the address when it has one, high byte first, then the bytes of a write from
IMG_SPI_BUF; the end of a read leaves the bytes that came in IMG_SPI_BUF, and that of a write leaves the buffer alone. -/
def SpiCommandsRun : Prop :=
  (∀ s g (v : Word), let len := v.toNat / 1024 % 512
    let addr := leBytes (if v.getLsbD 9 then 4 else 3) (s.m.reg 0x264).toNat
    let data := (List.range len).map fun k => (s.m.reg (0x300 + k / 4 * 4)).extractLsb' (8 * (k % 4)) 8
    mgmtOpen s → s.c.img.spiBusy = false → v.getLsbD 20 = true → len ≤ 256 →
    ∃ t, exec (.spiCommand g 0x260 v) s = .next t ∧
      t.c = { heard s g with img := { s.c.img with spiBusy := true }, out := { s.c.out with side := s.c.out.side ++
        [v.setWidth 8 :: (if v.getLsbD 8 then addr.reverse else []) ++ (if v.getLsbD 19 then data else [])] } } ∧
      onlyReg s t 0x260) ∧
  (∀ s rd, let c := s.m.reg 0x260
    storesWf s → s.c.img.spiBusy = true → c.getLsbD 19 = false → c.toNat / 1024 % 512 ≤ 256 →
    ∃ t, exec (.spiCommandEnd rd) s = .next t ∧ t.c = { s.c with img := { s.c.img with spiBusy := false } } ∧
      (∀ k, k < c.toNat / 1024 % 512 → (t.m.reg (0x300 + k / 4 * 4)).extractLsb' (8 * (k % 4)) 8 = rd.getD k 0) ∧
      t.m = { s.m with regs := t.m.regs }) ∧
  ∀ s rd, s.c.img.spiBusy = true → (s.m.reg 0x260).getLsbD 19 = true →
    exec (.spiCommandEnd rd) s = .next { s with c := { s.c with img := { s.c.img with spiBusy := false } } }

/-- R467–R469: a commit reads the whole configuration and makes its CRC the reference; a lap is compared with it when
nothing has changed since. -/
def ConfigurationLaps : Prop :=
  (∀ s g (v : Word), mgmtReady s → v.getLsbD 0 = true →
    ∃ t, exec (.commitGo g 0xE08 v) s = .next t ∧
      t.c = { heard s g with crc := { s.c.crc with busy := true, done := false, lapCc := s.c.cc } } ∧ onlyReg s t 0xE08) ∧
  (∀ s, let r := Run.start s
    let x := s.c.crc
    r.lapOver = true → x.busy = true →
    ∃ t, exec .commitEnd s = .next t ∧
      t.c = { s.c with mgA := t.c.mgA, mgB := t.c.mgB, crc := {
        live := r.configCrc, ref := r.configCrc, busy := false, done := true, dirty := false, mismatch := false,
        raised := x.raised && decide (x.ref = r.configCrc), lapCc := s.c.cc } } ∧
      (t.m.reg 0xE14).toNat = min 0xFFFFFFFF (r.reg 0xE14 + 1) ∧ vectorIn s t 5 ∧ onlyReg s t 0xE14) ∧
  ∀ s, let r := Run.start s
    let x := s.c.crc
    r.lapOver = true → x.busy = false →
    ∃ t, exec .crcLapEnd s = .next t ∧ t.c = { s.c with crc := t.c.crc, fbx := t.c.fbx } ∧ t.c.crc.live = r.configCrc ∧
      t.c.crc.lapCc = s.c.cc ∧ t.c.crc.ref = x.ref ∧ t.c.crc.dirty = x.dirty ∧
      (t.m.reg 0xE14).toNat = min 0xFFFFFFFF (r.reg 0xE14 + 1) ∧ onlyReg s t 0xE14 ∧
      (x.dirty = true ∨ r.configCrc = x.ref → t.c.crc.mismatch = x.mismatch ∧ t.c.fbx = s.c.fbx) ∧
      (x.dirty = false → r.configCrc ≠ x.ref → t.c.crc.mismatch = true ∧ t.c.crc.raised = true ∧
        (x.raised = false → reportedIn s t Code.cfgCrc 38) ∧ (x.raised = true → t.c.fbx = s.c.fbx))

/-- The settling of a window that ends at boundary b: the banks swap, and the new live bank holds nothing but the charges
stamped at or above b; the rest of the control state is that of `c`. -/
def snapshotOf (s t : State) (c : Ctl) (b : Stamp) (manual : Bool) : Prop :=
  let x := s.c.mtr
  (t.c.mtr.bank = !x.bank ∧ t.c.mtr.settling = true ∧ t.c.mtr.closed = false ∧ t.c.mtr.merged = false ∧
    t.c.mtr.liveSeq = x.liveSeq + 1 ∧ t.c.mtr.setStart = x.liveStart ∧ t.c.mtr.boundary = b ∧ t.c.mtr.liveStart = b ∧
    t.c.mtr.snapCc = s.c.cc ∧ t.c.mtr.setFlags = x.flagsLive ||| (if manual then 4 else 0)) ∧
  ((∀ d ∈ x.dated, d.stamp < b) →
    ∀ n, mtrKey (!x.bank) 0 .rd ≤ n → n < mtrKey (!x.bank) 4096 .rd → mget 0 t.m.mtr n = 0) ∧
  (∀ d, x.dated = [d] → b ≤ d.stamp → d.key < mtrKey false 4096 .rd →
    (mget 0 t.m.mtr (mtrKey (!x.bank) 0 .rd + d.key)).toNat = d.n % 2 ^ 63) ∧
  t.c = { c with mtr := t.c.mtr } ∧ keepsCells s t

/-- R363–R366: MTR_SNAP and the automatic boundary end the window; a boundary that comes while a bank settles merges
two windows; METER_CLOSE closes the bank, and MTR_ACK with its number frees it. -/
def MeterWindows : Prop :=
  (∀ s g, mgmtOpen s → (Run.start s).autoDue = false → s.c.mtr.settling = false →
    (s.c.mtr.closed = true → s.c.mtr.acked = true) → (s.m.reg 0xF04).getLsbD 1 = false →
    ∃ t, exec (.meterSnap g) s = .next t ∧ snapshotOf s t (heard s g) (Run.start s).ftNs true) ∧
  (∀ s, let r := Run.start s
    let w := r.fld 0xC00800 27 16 * 10 ^ 9
    let b := r.ftNs / w * w
    (s.m.reg 0xC00800).getLsbD 0 = true → s.c.mtr.opened = true → w ≠ 0 → s.c.mtr.autoDone < b →
    (s.c.mtr.settling = false → (s.c.mtr.closed = true → s.c.mtr.acked = true) → (s.m.reg 0xF04).getLsbD 1 = false →
      ∃ t, exec .meterSnapshotAuto s = .next t ∧ snapshotOf s t s.c b false ∧ t.c.mtr.autoDone = b) ∧
    (s.c.mtr.settling = true →
      exec .meterSnapshotAuto s = .next { s with c := { s.c with mtr := { s.c.mtr with autoDone := b, merged := true } } })) ∧
  (∀ s, let r := Run.start s
    let x := s.c.mtr
    x.settling = true → x.snapCc + 4096 ≤ s.c.cc → r.settled x.boundary = true →
    ∃ t, exec .meterClose s = .next t ∧ t.c = { s.c with mgA := t.c.mgA, mgB := t.c.mgB, mtr := { x with
        settling := false, closed := true, acked := false, seqNo := x.liveSeq,
        winStart := x.setStart, winEnd := x.boundary,
        flagsWin := x.setFlags ||| (if r.bankOvf (!x.bank) then 8 else 0) } } ∧ vectorIn s t 6 ∧ t.m = s.m) ∧
  ∀ s g (v : Word), mgmtOpen s →
    ∃ t, exec (.meterAck g v) s = .next t ∧ onlyReg s t 0xC00824 ∧
      (s.c.mtr.closed = true → v.toNat = s.c.mtr.seqNo % 2 ^ 32 →
        t.c = { heard s g with mtr := { s.c.mtr with closed := false, acked := true, lastAck := v } }) ∧
      (s.c.mtr.closed = false → t.c = { heard s g with fbx := t.c.fbx } ∧ reportedIn s t Code.meterBusy (Writer.port g).src)

/-- R497, R499, R500, R504: a counter that passes its last value wraps and sets OVF; CLR zeroes a count and LOAD sets it
to the preset, with OVF kept; PMC_FREEZE takes its bit; a histogram snapshot swaps the banks of every Porch and empties
the new live one. -/
def CountersAndHistograms : Prop :=
  (∀ s (m : Fin 64) (k : Fin 9), let r := Run.start s
    let key := m.val * 9 + k.val
    let n := (mget 0 s.m.pmc key).toNat % 2 ^ 48 + r.pmcTick m k
    r.bit 0xF00 0 = false → key ∉ s.c.wrapped → 2 ^ 48 ≤ n →
    ∃ t, exec (.counterWrap m k) s = .next t ∧ t.m = { s.m with pmc := t.m.pmc } ∧
      mget 0 t.m.pmc key = BitVec.ofNat 49 (2 ^ 48 + n % 2 ^ 48) ∧ (∀ j, j ≠ key → mget 0 t.m.pmc j = mget 0 s.m.pmc j) ∧
      t.c = { s.c with mgA := t.c.mgA, mgB := t.c.mgB, wrapped := key :: s.c.wrapped } ∧
      (k.val < 8 → r.bit (rmBase m + 0x640 + 0x20 * k) 10 = true → vectorIn s t 8)) ∧
  (∀ s g (m : Fin 64) (k : Fin 8), let a := rmBase m + 0x640 + 0x20 * k.val
    let key := m.val * 9 + k.val
    mgmtReady s → storesWf s → s.m.reg a &&& 0x300 = 0 →
    (∃ t, exec (.counterClr g m k 0x1000100) s = .next t ∧ t.c = heard s g ∧
      mget 0 t.m.pmc key = mget 0 s.m.pmc key &&& BitVec.ofNat 49 (2 ^ 48) ∧
      (∀ j, j ≠ key → mget 0 t.m.pmc j = mget 0 s.m.pmc j) ∧ keepsCells s t) ∧
    ∃ t, exec (.counterLoad g m k 0x2000200) s = .next t ∧ t.c = heard s g ∧
      mget 0 t.m.pmc key = (mget 0 s.m.pmc key &&& BitVec.ofNat 49 (2 ^ 48)) |||
        (((s.m.reg (a + 16)).setWidth 16 ++ (s.m.reg (a + 12)).setWidth 16 ++ (s.m.reg (a + 8)).setWidth 16 : BitVec 48).setWidth 49) ∧
      (∀ j, j ≠ key → mget 0 t.m.pmc j = mget 0 s.m.pmc j) ∧ keepsCells s t) ∧
  (∀ s g v, mgmtReady s →
    ∃ t, exec (.pmcFreezeWrite g 0xF00 v) s = .next t ∧ regIs s t 0xF00 (v &&& 1) ∧ t.c = { heard s g with crc := t.c.crc } ∧
      keepsCells s t) ∧
  ∀ s g (v : Word), mgmtReady s → v.getLsbD 0 = true →
    ∃ t, exec (.histogramSnapshot g 0xF04 v) s = .next t ∧ t.c.hsnapSeq = s.c.hsnapSeq + 1 ∧
      (∀ p : Fin 8, t.c.porches[p] = { s.c.porches[p] with histBank := !(s.c.porches[p]).histBank } ∧
        ∀ i < 32, mget 0 t.m.hist (histKey p (!(s.c.porches[p]).histBank) i) = 0) ∧ t.c.rooms = s.c.rooms ∧ keepsCells s t

/-- R459, R492, R509: WIN_LOCK takes its first write only, and a later one is WRITE_ONCE; a write of THM_SEL starts the
residence counters of the domain from zero. -/
def LockAndSelect : Prop :=
  (∀ s g v, mgmtReady s →
    (s.c.winLockArmed = true → ∃ t, exec (.winLockWrite g 0x50008 v) s = .next t ∧ regIs s t 0x50008 (v &&& 1) ∧
      t.c = { heard s g with winLockArmed := false, crc := t.c.crc }) ∧
    (s.c.winLockArmed = false → ∃ t, exec (.winLockWrite g 0x50008 v) s = .next t ∧
      t = { s with c := { heard s g with fbx := t.c.fbx } } ∧ reportedIn s t Code.writeOnce (Writer.port g).src)) ∧
  ∀ s g (v : Word), mgmtReady s → v.toNat % 256 < 160 →
    ∃ t, exec (.thmSelWrite g 0x30060 v) s = .next t ∧ regIs s t 0x30060 (v &&& 0xFF) ∧
      t.c = { heard s g with crc := t.c.crc, thm := { s.c.thm with res := Vector.replicate 4 0 } }

/-- R219, R482, R484: a sample at the warning temperature asserts the warning, with vector 7 and the switch to COOL; at
125 °C THERMTRIP_N falls. -/
def HeatIsAnswered : Prop :=
  (∀ s (x : TempSample), let r := Run.start s
    let t' : Thm := { s.c.thm with temps := x.temps, valid := x.valid }
    s.c.mod.mode ≠ .off → s.c.mod.mode ≠ .aux → s.c.thm.warn = false → t'.reaches (r.fld 0x30040 7 0) = true →
    t'.reaches (r.fld 0x30040 15 8) = false → t'.reaches 125 = false →
    ∃ t, exec (.thermalSample x) s = .next t ∧ t.c.thm.temps = x.temps ∧ t.c.thm.valid = x.valid ∧ t.c.thm.watts = x.watts ∧
      t.c.thm.warn = true ∧ t.c.thm.tripRun = 0 ∧ reportedIn s t Code.thermWarn 41 ∧ vectorIn s t 7 ∧
      (s.c.tt.run = true → s.c.tt.cur = 0 → s.c.tt.pend = false →
        t.c.tt = { s.c.tt with pend := true, next := 1, pendCc := s.c.cc }) ∧ t.c.rooms = s.c.rooms ∧ t.m = s.m) ∧
  ∀ s, s.c.mod.mode ≠ .off → s.c.mod.mode ≠ .aux → s.c.thm.reaches 125 = true → s.c.out.thermtripN = true →
    ∃ t, exec .thermtrip s = .next t ∧ t = { s with c := { s.c with
        fbx := t.c.fbx, thm := { s.c.thm with trip := true }, out := { s.c.out with thermtripN := false } } } ∧
      reportedIn s t Code.thermTrip 41

/-- R486, R487: what a window of the clock monitor sees is noted; the first loss is captured and reported. -/
def ClockLossIsReported : Prop :=
  ∀ s (c : ClockSample), let r := Run.start s
    s.c.mod.mode ≠ .off → c.porchLock = s.c.clk.porchLock → c.chLock = s.c.clk.chLock → c.doorLock = s.c.clk.doorLock →
    ∃ t, exec (.clockMonitorWindow c) s = .next t ∧ t = { s with c := { s.c with fbx := t.c.fbx, clk := t.c.clk } } ∧
      t.c.clk = { s.c.clk with
        ref100 := c.ref100, ref156 := c.ref156, xtal := c.xtal, coreLock := c.coreLock, mgLock := c.mgLock,
        auxLock := c.auxLock, lost := r.lostNow c,
        lossFirst := if s.c.clk.lossFirst = 0 then lowestLoss (r.lostNow c) else s.c.clk.lossFirst } ∧
      (s.c.clk.lost = 0 → r.lostNow c ≠ 0 → reportedIn s t Code.clkLoss 40) ∧
      (s.c.clk.lost ≠ 0 ∨ r.lostNow c = 0 → t.c.fbx = s.c.fbx)

/-- R473, R476: a domain that is Awake takes the deepest state it may; one whose state may be left for sleep takes it;
one in any other state that is needed begins its wake, which costs its state's time; else it goes deeper when it may. -/
def ThermostatsSleepAndWake : Prop :=
  ∀ s kind n (dom : Fin 160), let r := Run.start s
    let x := s.c.thm
    let sets : Pwr → Option Nat → Prop := fun y w => exec (.thermostatWake kind n) s = .next { s with c := { s.c with
      thm := { x with pwr := x.pwr.set dom.val y dom.isLt, wakeCc := x.wakeCc.set dom.val w dom.isLt } } }
    n.val < kind.count → dom.val = kind.base + n.val → x.wakeCc[dom] = none →
    (x.pwr[dom] = .awake → sets (r.pwrTarget dom) none) ∧
    (x.pwr[dom] ≠ .awake → r.pwrTarget dom = .sleep → sets .sleep none) ∧
    (∀ y, x.pwr[dom] = y → y ≠ .awake → r.pwrTarget dom ≠ .sleep →
      (r.wakeDue dom y = true → sets y (some (s.c.cc + s.c.wakeCost y))) ∧
      (r.wakeDue dom y = false → y.depth < (r.pwrTarget dom).depth → sets (r.pwrTarget dom) none))

/-- R406: a main rail that falls low from LOAD onward is SUPPLY_LOW; its return ends the state. -/
def RailsFallAndReturn : Prop :=
  (∀ s (rail : Fin 8), s.c.mod.mode ≠ .off → s.c.mod.mode ≠ .aux → 1 ≤ rail.val → rail.val ≤ 6 →
    s.c.railLow.getLsbD rail.val = false →
    ∃ t, exec (.supplyLow rail) s = .next t ∧ t = { s with c := { s.c with fbx := t.c.fbx, railLow := t.c.railLow } } ∧
      t.c.railLow = (s.c.railLow ||| ((1#8) <<< rail.val) : BitVec 8) ∧ reportedIn s t Code.supplyLow 42) ∧
  ∀ s (rail : Fin 8), s.c.mod.mode ≠ .off →
    exec (.supplyRestored rail) s = .next { s with c := { s.c with
      railLow := (s.c.railLow &&& ~~~((1#8) <<< rail.val) : BitVec 8) } }

/-- Every table of the House reads as after reset. -/
def tablesEmpty (t : State) : Prop :=
  (∀ k < 2 ^ 25, mget {} t.m.tags k = {} ∧ mget 0 t.m.plru k = 0 ∧ mget {} t.m.scn k = {} ∧ mget {} t.m.dir k = {} ∧
    mget 0 t.m.keys k = 0 ∧ mget 0 t.m.pmc k = 0 ∧ mget 0 t.m.hist k = 0 ∧ mget 0 t.m.mtr k = 0 ∧ mget 0 t.m.occ k = 0 ∧
    mget 0 t.m.frames k = 0 ∧ mget Line.unwritten t.m.remap k = Line.unwritten) ∧
  ∀ k < 2 ^ 34, mget Line.unwritten t.m.dram k = Line.unwritten

/-- The House is in AUX with its blocks in reset. -/
def auxAfter (s t : State) : Prop :=
  t.c.mod = { mode := .aux, prev := s.c.mod.mode, lastFt := s.c.ftNs } ∧ t.c.rooms = Vector.replicate 64 {} ∧
    t.c.porches = Vector.replicate 8 {} ∧ t.c.chans = Vector.replicate 16 {} ∧ t.c.doors = Vector.replicate 8 {} ∧
    t.c.hall = [] ∧ t.c.tt = {} ∧ t.c.img = {} ∧ t.c.now = s.c.now ∧ t.c.ft = s.c.ft ∧ t.c.cells = s.c.cells

/-- R411, R433: RESET_N and DEV_CTRL take the House to AUX, with every register at its reset value and every memory lost;
the fall of PWR_GOOD keeps the Fuse box's log, status and counts, the Latch, and the management links. -/
def ResetsLeadToAux : Prop :=
  (∀ s, storesWf s → s.c.mod.mode ≠ .off →
    ∃ t, exec .resetN s = .next t ∧ auxAfter s t ∧ t.c.fbx = {} ∧ t.c.lch = {} ∧ t.c.fuses = s.c.cells ∧
      (∀ a, t.m.reg a = regReset a) ∧ tablesEmpty t) ∧
  (∀ s g, storesWf s → s.c.mod.mode ≠ .off → s.c.mod.mode ≠ .aux →
    ∃ t, exec (.devReset g 0x14 0xA5E70001) s = .next t ∧ auxAfter s t ∧ t.c.fbx = {} ∧ t.c.lch = {} ∧
      t.c.fuses = s.c.cells ∧ (∀ a, t.m.reg a = regReset a) ∧ tablesEmpty t) ∧
  ∀ s, storesWf s → s.c.mod.mode ≠ .off → s.c.pwrGood = true →
    ∃ t, exec .pwrGoodLow s = .next t ∧ auxAfter s t ∧ t.c.pwrGood = false ∧ t.c.fbx.log = s.c.fbx.log ∧
      t.c.fbx.status = s.c.fbx.status ∧ t.c.fbx.first = s.c.fbx.first ∧ t.c.lch = s.c.lch ∧ t.c.mgA.up = s.c.mgA.up ∧
      t.c.mgB.up = s.c.mgB.up ∧ (∀ a, t.m.reg a = if fbxCount a then s.m.reg a else regReset a) ∧ tablesEmpty t

/-- R406–R412: PWR_GOOD rises; VAUX becomes valid and the House enters AUX with its fuses read; VAUX is lost, and with it
everything but the fuses. -/
def SuppliesComeAndGo : Prop :=
  (∀ s, s.c.mod.mode ≠ .off → exec .pwrGoodRise s = .next { s with c := { s.c with pwrGood := true } }) ∧
  (∀ s, s.c.mod.mode = .off →
    ∃ t, exec .vauxValid s = .next t ∧ t.c.mod.mode = .aux ∧ t.c.mod.prev = .off ∧ t.c.vaux = true ∧ t.c.fuses = s.c.cells ∧
      t.c.clk = { s.c.clk with xtal := true } ∧ vectorIn s t 4 ∧ t.c.rooms = s.c.rooms ∧ t.m = s.m) ∧
  ∀ s, storesWf s →
    ∃ t, exec .vauxLoss s = .next t ∧ t.c = {
        cells := s.c.cells, free := s.c.free, vaux := false, mod := { mode := .off },
        out := { s.c.out with thermtripN := true } } ∧
      (∀ a, t.m.reg a = regReset a) ∧ tablesEmpty t

/-- R460, R464, R465: a read takes a free Latch for its port, renews its own, and is told of another's; a lease that ends
frees it with LCH_LEASE; a parity fault frees it and sets ERR. -/
def LatchIsTakenAndFreed : Prop :=
  (∀ s g (n : Fin 32), let x := s.c.lch.l[n]
    let ends := s.c.now + msec ((Run.start s).fld 0x20100 15 0)
    let tells : Latch → Ctl := fun y => told s g (0x20000 + 4 * n.val) (w32 (y.word g))
    s.c.mod.mode ≠ .off → x.err = false →
    (x.owner = none → ∃ t y, exec (.latchTake g n) s = .next t ∧
      t = { s with c := { tells y with lch := t.c.lch } } ∧
      y = { x with owner := some g, token := x.token + 1, endsAt := ends, takenIn := some (s.c.now / 40) } ∧
      t.c.lch = { s.c.lch with l := s.c.lch.l.set n.val y n.isLt }) ∧
    (x.owner = some g → s.c.now < x.endsAt → exec (.latchTake g n) s = .next { s with c := { tells x with
      lch := { s.c.lch with l := s.c.lch.l.set n.val { x with endsAt := ends } n.isLt } } }) ∧
    (x.owner = some (mgOther g) → s.c.now < x.endsAt → x.takenIn ≠ some (s.c.now / 40) →
      exec (.latchTake g n) s = .next { s with c := tells x })) ∧
  (∀ s (n : Fin 32), let x := s.c.lch.l[n]
    x.owner ≠ none → x.endsAt ≤ s.c.now →
    ∃ t, exec (.latchLeaseExpire n) s = .next t ∧ t.c.lch = { s.c.lch with
        l := s.c.lch.l.set n.val { x with owner := none, takenIn := none } n.isLt } ∧
      (t.m.reg 0x20114).toNat = min 0xFFFFFFFF ((Run.start s).reg 0x20114 + 1) ∧ reportedIn s t Code.lchLease 39 ∧
      vectorIn s t 3 ∧ onlyReg s t 0x20114) ∧
  ∀ s (n : Fin 32), let x := s.c.lch.l[n]
    s.c.mod.mode ≠ .off →
    ∃ t, exec (.lchParity n) s = .next t ∧ t = { s with c := { s.c with lch := t.c.lch, fbx := t.c.fbx } } ∧
      t.c.lch = { s.c.lch with l := s.c.lch.l.set n.val { x with err := true, owner := none, takenIn := none } n.isLt } ∧
      reportedIn s t Code.lchParity 39

/-- R462: REL = 1 frees a Latch when the writer owns it and TOKEN is the Latch's; any other release is an ILLEGAL_WRITE that
changes nothing; CLRERR = 1 clears ERR, whichever port writes it. -/
def LatchReleaseNeedsOwnerAndToken : Prop :=
  ∀ s g (n : Fin 32) (v : Word), let x := s.c.lch.l[n]
    let legal := x.owner = some g ∧ v.extractLsb' 16 16 = x.token
    let frees : State → Prop := fun t => onlyReg s t (0x20080 + 4 * n.val) ∧ t.c = { heard s g with lch := { s.c.lch with
      l := s.c.lch.l.set n.val { x with owner := none, takenIn := none, err := x.err && !(v.getLsbD 1) } n.isLt } }
    s.c.mod.mode ≠ .off → s.c.img.busy = false →
    (v.getLsbD 0 = true → legal → (∃ t, exec (.latchRelease g n v) s = .next t ∧ frees t) ∧
      (v.getLsbD 1 = true → ∃ t, exec (.latchClrerr g n v) s = .next t ∧ frees t)) ∧
    (v.getLsbD 0 = true → ¬legal → ∃ t, exec (.latchRelease g n v) s = .next t ∧
      t = { s with c := { heard s g with fbx := t.c.fbx } } ∧ reportedIn s t Code.illegalWrite (Writer.port g).src) ∧
    (v.getLsbD 0 = false → v.getLsbD 1 = true → ∃ t, exec (.latchClrerr g n v) s = .next t ∧
      onlyReg s t (0x20080 + 4 * n.val) ∧ t.c = { heard s g with lch := { s.c.lch with
        l := s.c.lch.l.set n.val { x with err := false } n.isLt } })

/-- R352: the tenant table has 4,096 entries of 16 bytes, entry t at 0xC10000 + t × 0x10. A write of word 0 sets V and
PORCHES and leaves KEYLD, one of a legal value to word 1 is the quota, and words 2 and 3 take no write. The entry of tenant 0
has no bits, and takes no write: it changes nothing, and is logged as a Minor TENANT_BAD event. -/
def TenantZeroHasNoEntry : Prop :=
  (∀ s g (t : Fin 4096) v, mgmtReady s → t.val ≠ 0 → let a := 0xC10000 + t.val * 0x10
    let stores : Nat → Word → Prop := fun w x => ∃ u, exec (.mgmtWrite g (BitVec.ofNat 26 (a + 4 * w)) 0xF v) s = .next u ∧
      regIs s u (a + 4 * w) x ∧ u.c = { heard s g with crc := u.c.crc, rooms := u.c.rooms } ∧ keepsCells s u
    stores 0 ((s.m.reg a &&& 2) ||| (v &&& 0xFF01)) ∧
    ((v &&& 0x3FFFFFF).toNat ≤ 33554432 → stores 1 (v &&& 0x3FFFFFF)) ∧
    ∀ w, storesInv s → w = 2 ∨ w = 3 →
      ∃ u, exec (.mgmtWrite g (BitVec.ofNat 26 (a + 4 * w)) 0xF v) s = .next u ∧ u = { s with c := u.c } ∧
        u.c = { heard s g with crc := u.c.crc }) ∧
  (∀ s g (w : Fin 4) v, mgmtOpen s →
    ∃ u, exec (.mgmtWrite g (BitVec.ofNat 26 (0xC10000 + 4 * w.val)) 0xF v) s = .next u ∧
      u = { s with c := { heard s g with fbx := u.c.fbx } } ∧ reportedIn s u Code.tenantBad (Writer.port g).src) ∧
  (∀ w : Fin 4, regMask (0xC10000 + 4 * w.val) = 0 ∧ regReset (0xC10000 + 4 * w.val) = 0) ∧
  evDef Code.tenantBad = some { code := 0x86, sev := 1 }

/-- A management link leaves L0. -/
def portFalls (i : MgPort → Instr) : Prop :=
  ∀ s g, ((Run.start s).mg g).up = true → (∀ n : Fin 32, s.c.lch.l[n].owner ≠ some g) →
    ∃ t, exec (i g) s = .next t ∧ t = { s with c := { s.c with mgA := t.c.mgA, mgB := t.c.mgB, fbx := t.c.fbx } } ∧
      (Run.start t).mg g = { (Run.start s).mg g with up := false, speed := 0 } ∧
      (Run.start t).mg (mgOther g) = (Run.start s).mg (mgOther g) ∧ reportedIn s t Code.mgLinkDown (Writer.port g).src

/-- R410, R445, R543: a management link enters L0 at its speed; it leaves L0 by itself or by PERST, and this is
logged. -/
def ManagementLinksComeAndGo : Prop :=
  (∀ s g speed, s.c.mod.mode ≠ .off → s.c.clk.ref100 = true → ((Run.start s).mg g).up = false → s.c.jtag = .none →
    ∃ t, exec (.mgLinkUp g speed) s = .next t ∧ t = { s with c := { s.c with mgA := t.c.mgA, mgB := t.c.mgB } } ∧
      (Run.start t).mg g = { (Run.start s).mg g with up := true, speed := speed } ∧
      (Run.start t).mg (mgOther g) = (Run.start s).mg (mgOther g)) ∧
  portFalls .mgLinkDown ∧ portFalls .mgPerst

/-- R446–R448: the sideband sets its pointer, reads the word behind it and moves on, and writes IMG_CTRL; the packet error
code covers each transfer. -/
def SidebandTransfers : Prop :=
  ∀ s g, let r := Run.start s
    s.c.mod.mode ≠ .off → s.c.jtag = .none →
    (∀ a : BitVec 32, a.toNat % 4 = 0 →
      ∃ t, exec (.smbSetPointer g a (some (pecOf (smbAddr g false :: 0x10#8 :: 4#8 :: leBytes 4 a.toNat)))) s = .next t ∧
        t = { s with c := { s.c with mgA := t.c.mgA, mgB := t.c.mgB } } ∧
        (Run.start t).mg g = { r.mg g with smbPtr := a } ∧ (Run.start t).mg (mgOther g) = r.mg (mgOther g)) ∧
    (let a := (r.mg g).smbPtr
      let bs := BitVec.ofNat 8 (r.smbAnswer g a.toNat).1 :: leBytes 4 (r.smbAnswer g a.toNat).2
      ∃ t, exec (.smbRead g true) s = .next t ∧ t = { s with c := { s.c with mgA := t.c.mgA, mgB := t.c.mgB, out := t.c.out } } ∧
        (Run.start t).mg g = { r.mg g with smbPtr := a + 4 } ∧ (Run.start t).mg (mgOther g) = r.mg (mgOther g) ∧
        t.c.out.side = s.c.out.side ++ [bs ++ [pecOf (smbAddr g false :: 0x11#8 :: smbAddr g true :: 5#8 :: bs)]]) ∧
    ∀ v : Word, v.getLsbD 2 = false →
      ∃ t, exec (.smbWrite g 0x200 v (some (pecOf (smbAddr g false :: 0x20#8 :: 8#8 :: (leBytes 4 0x200 ++ leBytes 4 v.toNat))))) s =
          .next t ∧ t.c = s.c ∧ regIs s t 0x200 (v &&& 0xF3) ∧ keepsCells s t

/-- The balls are taken from their blocks: every link is down. -/
def takesTheBalls (i : Instr) (j : Jtag) : Prop :=
  ∀ s, (∀ p : Fin 8, quietPorch s p) → ∃ t, exec i s = .next t ∧ t.c.jtag = j ∧
    (∀ (p : Fin 8) (k : Fin 2), (t.c.porches[p]).links[k].up = false) ∧ (∀ d : Fin 8, (t.c.doors[d]).trained = false) ∧
    t.c.mgA.up = false ∧ t.c.mgB.up = false ∧ t.c.rooms = s.c.rooms ∧ t.c.chans = s.c.chans ∧ keepsCells s t

/-- R417, R509, R546, R547: IDCODE shifts the identity out; EXTEST, INTEST and CLAMP take the balls; FUSEPROG programs the
field fuses when supply, mode and loader allow it. -/
def JtagInstructions : Prop :=
  (∀ s, exec .idcode s = .next { s with c := { s.c with jtag := .none, out := { s.c.out with
    side := s.c.out.side ++ [leBytes 4 (s.c.fuses.step.toNat % 16 * 0x10000000 + 0x6480B5B)] } } }) ∧
  takesTheBalls .extest .extest ∧ takesTheBalls .intest .intest ∧ takesTheBalls .clamp .clamp ∧
  (∀ s op, s.c.pwrGood = true → s.c.railLow = 0 → s.c.mod.mode = .load → s.c.img.busy = false →
    exec (.fuseprog op true) s = .next { s with c := { s.c with jtag := .none, cells := s.c.cells.program op } }) ∧
  ∀ s op, exec (.fuseprog op false) s = .next { s with c := { s.c with jtag := .none } }

/-- The block's queue: a step takes the command at the front and runs it with the queue's rest (a convention of the model,
log entry 6). -/
def StepRunsTheFrontCommand : Prop :=
  ∀ (c : Instr) (rest : List Instr) (s : State), step { s with pending := c :: rest } = exec c { s with pending := rest }

/-- The model's own choice (log entry 1): on an empty queue one period of the core clock passes. R7, R208: the time and,
from LOAD onward, the cycle count move on, and the running Timetable's slot counter advances by 1, 4,095 to 0; in OFF
nothing happens. -/
def IdleStepIsOneClockPeriod : Prop :=
  ∀ s, s.pending = [] →
    (s.c.mod.mode = .off → step s = .next s) ∧
    (s.c.mod.mode ≠ .off → ∃ t, step s = .next t ∧ t.pending = [] ∧ t.c.now = s.c.now + s.c.ccLen ∧
      t.c.mod.mode = s.c.mod.mode ∧
      (s.c.mod.mode = .aux → t.c.cc = s.c.cc) ∧
      (s.c.mod.mode ≠ .aux → t.c.cc = s.c.cc + 1 ∧
        (s.c.tt.run = true → t.c.tt.slot = s.c.tt.slot + 1) ∧ (s.c.tt.run = false → t.c.tt.slot = s.c.tt.slot)))

/-- Every command of the table completes, in every state and with every operand, and leaves the queue as it was; none
faults or is refused. -/
def EveryCommandCompletes : Prop := ∀ c s, ∃ t, exec c s = .next t ∧ t.pending = s.pending

/-- R452: whatever the command, and on an idle step, the stores stay in canonical form, and no register holds a bit that
its fields do not implement. -/
def StoresStayCanonical : Prop := ∀ s t, storesInv s → step s = .next t → storesInv t

/-- R411, R412: after reset the House is in AUX with VAUX valid; every register word reads its reset value (three words
written out: THM_LIMITS, LCH_LEASE and MTR_CTRL), the Latches are free, the event log is empty, the queue is empty, and the
stores are canonical. That reset is the one after which PWR_GOOD is low is the model's choice (log entry 17). -/
def ResetLeavesAux : Prop :=
  let s := State.reset
  s.c.mod.mode = .aux ∧ s.c.vaux = true ∧ s.pending = [] ∧ storesInv s ∧ (∀ a, s.m.reg a = regReset a) ∧
    s.m.reg 0x30040 = 0x56E64 ∧ s.m.reg 0x20100 = 1000 ∧ s.m.reg 0xC00800 = 0x3C0001 ∧
    (∀ n : Fin 32, s.c.lch.l[n] = {}) ∧ s.c.fbx.log = Vector.replicate 256 none ∧ s.c.fbx.fenced = 0 ∧
    s.c.tt.run = false

end Sys2Proof.Claim

/-- A request that passes its checks is admitted and waits at its Porch. -/
def Obligations.CheckedRequestIsAdmitted : Prop :=
  Sys2Proof.Claim.CheckedRequestIsAdmitted

/-- MemSpecRd goes no further; a refused read is counted and answered with poison. -/
def Obligations.PorchChecksDecide : Prop :=
  Sys2Proof.Claim.SpeculativeReadIsDropped ∧
    Sys2Proof.Claim.RefusedReadIsCountedAndPoisoned

/-- A Streaming write completes into the Landing, drains as one write, and its entry frees on acceptance. -/
def Obligations.LandingHoldsStreamingWrites : Prop :=
  Sys2Proof.Claim.StreamingWriteOpensLanding ∧
    Sys2Proof.Claim.LandingDrainSendsOneWrite ∧
    Sys2Proof.Claim.AcceptanceFreesLandingEntry

/-- In its slot a request sets out to its Room, an answer leaves on its link, and what waits for the Hallway leaves; what
arrives does what it came for. -/
def Obligations.PorchSlotsMoveRequests : Prop :=
  Sys2Proof.Claim.InjectionSendsToServingRoom ∧
    Sys2Proof.Claim.ResponseLeavesOnItsLink ∧
    Sys2Proof.Claim.WaitingTransferLeaves ∧
    Sys2Proof.Claim.TransfersArrive

/-- A Room sends a home read to its channel, accepts a home write, and completes an answered waiter. -/
def Obligations.RoomServesHomeLines : Prop :=
  Sys2Proof.Claim.HomeReadGoesToItsChannel ∧
    Sys2Proof.Claim.HomeWriteIsAccepted ∧
    Sys2Proof.Claim.AnsweredWaiterCompletes

/-- A victim's line becomes Ready; a tag rebuild without a shadow invalidates the entry. -/
def Obligations.NearReturnsAndTagRebuild : Prop :=
  Sys2Proof.Claim.VictimLineBecomesReady ∧
    Sys2Proof.Claim.RebuildWithoutShadowInvalidates

/-- A Cellar write stores its line, a read takes it, a clean read answers its request, and the repeat corrector and the
poison rewrite write their lines. -/
def Obligations.CellarCommandsIssueAndReturn : Prop :=
  Sys2Proof.Claim.IssuedWriteStoresItsLine ∧
    Sys2Proof.Claim.IssuedReadIsInFlight ∧
    Sys2Proof.Claim.CleanReadAnswersItsRequest ∧
    Sys2Proof.Claim.RepeatCorrectorRewrites ∧
    Sys2Proof.Claim.PoisonRewriteMarksTheLine

/-- How a line lies in DRAM and on the data bus, and when it is read as it was written. -/
def Obligations.LinesLieInDram : Prop :=
  Sys2Proof.Claim.LinesLieInDram

/-- The dual-clock FIFOs keep their bounds and their packets. -/
def Obligations.CrossingsKeepTheirPackets : Prop :=
  Sys2Proof.Claim.CrossingsKeepTheirPackets

/-- A whole home line drains to its channel; a Mudroom line goes home as WB. -/
def Obligations.WritesGoHome : Prop :=
  Sys2Proof.Claim.WholeHomeLineDrains ∧
    Sys2Proof.Claim.MudroomLineGoesHome

/-- The home reads a filled line, lists the asker, and grants an UPGRADE of the only sharer. -/
def Obligations.RemoteFillsAreServed : Prop :=
  Sys2Proof.Claim.PrivateFillReadsTheHomeLine ∧
    Sys2Proof.Claim.SharedFillListsTheAsker ∧
    Sys2Proof.Claim.UpgradeOfTheOnlySharerIsGranted

/-- A remote write is accepted at its home or twin and acknowledged. -/
def Obligations.RemoteWriteIsAcceptedAndAcknowledged : Prop :=
  Sys2Proof.Claim.RemoteWriteIsAcceptedAndAcknowledged

/-- DATA, ACK_O and WR_ACK end what waits for them. -/
def Obligations.AnswersEndTheirTrackers : Prop :=
  Sys2Proof.Claim.DataAnswersTheWaitingRead ∧
    Sys2Proof.Claim.OwnershipAckEndsItsTracker ∧
    Sys2Proof.Claim.WriteAckFreesTheForward

/-- INV and RECALL are answered, and their answers end the wait and bring lines home. -/
def Obligations.SnoopsAreAnsweredAndCounted : Prop :=
  Sys2Proof.Claim.SnoopOfAnAbsentBlockIsAcknowledged ∧
    Sys2Proof.Claim.SnoopAnswerEndsTheWait ∧
    Sys2Proof.Claim.ReturnedLineIsWrittenHome

/-- HEARTBEATs keep a House live; a silent House is declared dead. -/
def Obligations.HousesLiveAndDie : Prop :=
  Sys2Proof.Claim.HeartbeatKeepsAHouseLive ∧
    Sys2Proof.Claim.HeartbeatGoesToARoutedHouse ∧
    Sys2Proof.Claim.SilentHouseIsDeclaredDead

/-- Drain and sync barriers begin, wait, and end. -/
def Obligations.BarriersWaitAndEnd : Prop :=
  Sys2Proof.Claim.BarrierReadsStartTheirBarriers ∧
    Sys2Proof.Claim.LastMarkerAnswerEndsTheSync ∧
    Sys2Proof.Claim.LateDrainBarrierEnds

/-- The watchdogs of a Porch report, and a write to a dead House is lost. -/
def Obligations.PorchWatchdogsReport : Prop :=
  Sys2Proof.Claim.WriteToADeadHouseIsLost ∧
    Sys2Proof.Claim.WatchdogsReport

/-- Reservation loads and stores are admitted; the window's words; a lease ends. -/
def Obligations.ReservationsAreHeldAndEnd : Prop :=
  Sys2Proof.Claim.ReservationOperationsAreAdmitted ∧
    Sys2Proof.Claim.ReservationWindowWords ∧
    Sys2Proof.Claim.ReservationLeaseExpires

/-- A host link comes up, goes down, and is reset by PERST. -/
def Obligations.HostLinkComesAndGoes : Prop :=
  Sys2Proof.Claim.HostLinkComesAndGoes

/-- An HDM decoder commits or shows its error; the mailbox carries out its commands, and refuses any other. -/
def Obligations.DecodersCommitAndMailboxAnswers : Prop :=
  Sys2Proof.Claim.DecodersCommitAndMailboxAnswers

/-- Back-invalidate answers and their time-out end a snoop; a BIConflict is acknowledged. -/
def Obligations.HostSnoopsEnd : Prop :=
  Sys2Proof.Claim.SnoopAnswersFreeTheScreenEntry ∧
    Sys2Proof.Claim.BiConflictIsAcknowledged

/-- A fill that times out poisons its read; a silent sharer is asked again, then dropped. -/
def Obligations.SilenceIsTimedOut : Prop :=
  Sys2Proof.Claim.TimedOutFillPoisonsItsRead ∧
    Sys2Proof.Claim.SilentSharerIsAskedAgainThenDropped

/-- A Door accepts frames in order, refuses a wrong CRC, and ABORT ends a message; a gap in end-to-end order is skipped after
its limit. -/
def Obligations.FramesAreAccepted : Prop :=
  Sys2Proof.Claim.FrameIsAcceptedInOrder ∧
    Sys2Proof.Claim.AbortEndsItsMessage ∧
    Sys2Proof.Claim.SequenceGapIsSkipped

/-- IDLE and NAK acknowledge frames; a BEACON brings its Door up. -/
def Obligations.LinkFramesKeepTheLink : Prop :=
  Sys2Proof.Claim.LinkFramesAcknowledge ∧
    Sys2Proof.Claim.BeaconBringsTheDoorUp

/-- A frame leaves in its slot, numbered and kept; a BEACON falls due. -/
def Obligations.FramesLeaveInTheirSlots : Prop :=
  Sys2Proof.Claim.FramesLeaveInTheirSlots

/-- Link trouble begins a quick retrain, and a training ends. -/
def Obligations.LinkTroubleAndTraining : Prop :=
  Sys2Proof.Claim.LinkTroubleBeginsAQuickRetrain ∧
    Sys2Proof.Claim.TrainingEnds

/-- The time exchange corrects the rate; without answers time is held over. -/
def Obligations.TimeIsExchanged : Prop :=
  Sys2Proof.Claim.TimeExchangeCorrectsTheRate ∧
    Sys2Proof.Claim.TimeIsAskedOrHeldOver

/-- The walker and the trim move on over sets with nothing to do. -/
def Obligations.WalkerAndTrimMoveOn : Prop :=
  Sys2Proof.Claim.WalkerAndTrimMoveOn

/-- A clean scrub read moves its pointer only; a slow lap is reported. -/
def Obligations.ScrubReadsTheNextLine : Prop :=
  Sys2Proof.Claim.ScrubReadsTheNextLine

/-- RESILVER copies a line to the twin; the sweep sends a dirty line home. -/
def Obligations.CopiesAreSentToTheirPlace : Prop :=
  Sys2Proof.Claim.ResilverSendsALineToTheTwin ∧
    Sys2Proof.Claim.SweptDirtyLineGoesHome

/-- FILL and the rebuild write the Unwritten pattern, and the refuge is released. -/
def Obligations.DramIsFilled : Prop :=
  Sys2Proof.Claim.FillAndRebuildWriteUnwrittenLines ∧
    Sys2Proof.Claim.RebuildReleasesTheRefuge

/-- A lost read, an ALERT_n and a hot DIMM are reported. -/
def Obligations.ChannelFaultsAreReported : Prop :=
  Sys2Proof.Claim.ChannelFaultsAreReported

/-- A seam boundary takes the table switch and the entry to PANTRY. -/
def Obligations.SeamTakesTheSwitch : Prop :=
  Sys2Proof.Claim.SeamTakesTheSwitch

/-- A Minor event is logged; a failed Door is fenced and the House DEGRADED. -/
def Obligations.EventsAreDecided : Prop :=
  Sys2Proof.Claim.MinorEventIsLogged ∧
    Sys2Proof.Claim.FailedDoorIsFenced

/-- A fault of the Fuse box itself takes the House to SAFE; a shadow ends. -/
def Obligations.FuseBoxFaultIsSafe : Prop :=
  Sys2Proof.Claim.FuseBoxFaultIsSafe

/-- AUX leaves for LOAD, LOAD for CHECK, or a step waits; training, self-test and the join time-out end. -/
def Obligations.StartUpMovesOn : Prop :=
  Sys2Proof.Claim.CheckAndJoinEnd ∧
    Sys2Proof.Claim.StartUpSteps

/-- A management write stores, sets, clears or toggles, or is logged. -/
def Obligations.ManagementWrites : Prop :=
  Sys2Proof.Claim.ManagementWrites

/-- Window segments, region and class entries and way disables are written as checked. -/
def Obligations.TablesAreWritten : Prop :=
  Sys2Proof.Claim.WindowSegmentIsChecked ∧
    Sys2Proof.Claim.TableEntriesAndWaysAreWritten

/-- The Pantry writes one word of a tag entry and reads it back. -/
def Obligations.PantryReadsAndWrites : Prop :=
  Sys2Proof.Claim.PantryReadsAndWrites

/-- Key words are staged, and word 15 commits them. -/
def Obligations.KeysAreStagedAndCommitted : Prop :=
  Sys2Proof.Claim.KeysAreStagedAndCommitted

/-- A mode request is pending or taken; an accepted un-fence begins. -/
def Obligations.RequestsOfMode : Prop :=
  Sys2Proof.Claim.ModeRequests ∧
    Sys2Proof.Claim.UnfenceBegins

/-- Class drain, FLUSH, RESILVER and rebuild begin their work. -/
def Obligations.JobsBegin : Prop :=
  Sys2Proof.Claim.JobsBegin

/-- MSYNC with nothing to wait for is done; TT_FORCE is pending; RETRAIN trains. -/
def Obligations.SyncForceAndRetrain : Prop :=
  Sys2Proof.Claim.SyncForceAndRetrain

/-- REARM, injection and re-check do what they say. -/
def Obligations.FuseBoxCommands : Prop :=
  Sys2Proof.Claim.FuseBoxCommands

/-- The self-test, an image load and SPI commands begin and end. -/
def Obligations.ImagesAndSelfTest : Prop :=
  Sys2Proof.Claim.SelfTestRunsAgain ∧
    Sys2Proof.Claim.ImageLoadBegins ∧
    Sys2Proof.Claim.ImageLoadEnds ∧
    Sys2Proof.Claim.ImageLoadTimesOut ∧
    Sys2Proof.Claim.SpiCommandsRun

/-- A commit makes the configuration's CRC the reference; laps are compared with it. -/
def Obligations.ConfigurationLaps : Prop :=
  Sys2Proof.Claim.ConfigurationLaps

/-- Meter windows end, settle, close and are acknowledged. -/
def Obligations.MeterWindows : Prop :=
  Sys2Proof.Claim.MeterWindows

/-- Counters wrap, clear and load; histograms swap; WIN_LOCK and THM_SEL. -/
def Obligations.CountersHistogramsAndSelectors : Prop :=
  Sys2Proof.Claim.CountersAndHistograms ∧
    Sys2Proof.Claim.LockAndSelect

/-- Heat asserts the warning and the trip; Thermostats sleep and wake. -/
def Obligations.HeatAndPowerStates : Prop :=
  Sys2Proof.Claim.HeatIsAnswered ∧
    Sys2Proof.Claim.ThermostatsSleepAndWake

/-- A lost clock and a low rail are reported. -/
def Obligations.ClocksAndRailsAreMonitored : Prop :=
  Sys2Proof.Claim.ClockLossIsReported ∧
    Sys2Proof.Claim.RailsFallAndReturn

/-- Every reset leads to AUX with its state cleared; supplies come and go. -/
def Obligations.ResetsAndSupplies : Prop :=
  Sys2Proof.Claim.ResetsLeadToAux ∧
    Sys2Proof.Claim.SuppliesComeAndGo

/-- The Latch is taken, renewed and freed; management links come and go. -/
def Obligations.LatchAndPortLinks : Prop :=
  Sys2Proof.Claim.LatchIsTakenAndFreed ∧
    Sys2Proof.Claim.ManagementLinksComeAndGo

/-- A release frees the Latch only for its owner with its token. -/
def Obligations.LatchReleaseNeedsOwnerAndToken : Prop :=
  Sys2Proof.Claim.LatchReleaseNeedsOwnerAndToken

/-- The words of the tenant table take what they may, and those of tenant 0 nothing. -/
def Obligations.TenantZeroHasNoEntry : Prop :=
  Sys2Proof.Claim.TenantZeroHasNoEntry

/-- The SMBus sideband and the JTAG instructions. -/
def Obligations.SideChannels : Prop :=
  Sys2Proof.Claim.SidebandTransfers ∧
    Sys2Proof.Claim.JtagInstructions

/-- A step runs the command at the front of the queue. -/
def Obligations.StepRunsTheFrontCommand : Prop :=
  Sys2Proof.Claim.StepRunsTheFrontCommand

/-- On an empty queue one clock period passes (the model's choice, log entry 1). -/
def Obligations.IdleStepIsOneClockPeriod : Prop :=
  Sys2Proof.Claim.IdleStepIsOneClockPeriod

/-- Every command completes and leaves the queue as it was. -/
def Obligations.EveryCommandCompletes : Prop :=
  Sys2Proof.Claim.EveryCommandCompletes

/-- Every step keeps the stores canonical and the registers to their implemented bits. -/
def Obligations.StoresStayCanonical : Prop :=
  Sys2Proof.Claim.StoresStayCanonical

/-- Reset leaves the House in AUX with its reset values. -/
def Obligations.ResetLeavesAux : Prop :=
  Sys2Proof.Claim.ResetLeavesAux
end

