-- ==== Sys2Proof/Laws/Doors.lean ====
section
/-! SUPPORT. Frames and messages: the CRC of a made frame, and what its fields read as. -/
namespace Sys2Proof.Laws
open Sys2Proof Sys2Proof.Machine

/-- The CRC field does not reach the bytes that the CRC covers. -/
theorem frameByte_sum (b x : Frame) (i : Nat) (h : i < 124) : frameByte (b ||| x <<< 992) i = frameByte b i := by
  unfold frameByte
  ext j hj
  simp only [BitVec.getElem_extractLsb', BitVec.getLsbD_or, BitVec.getLsbD_shiftLeft]
  have : 8 * i + j < 992 := by omega
  simp [this]

theorem frameCrc_sum (b x : Frame) : frameCrc (b ||| x <<< 992) = frameCrc b := by
  unfold frameCrc
  congr 1
  apply List.map_congr_left
  intro i hi
  exact frameByte_sum b x i (by simpa using hi)

/-- A frame that a Door makes carries its CRC. -/
theorem mkFrame_crc (h : BitVec 32) (msg : BitVec 896) (tag : BitVec 64) :
    frameSum (mkFrame h msg tag) = frameCrc (mkFrame h msg tag) := by
  unfold mkFrame
  simp only [frameCrc_sum]
  unfold frameSum
  ext j hj
  simp only [BitVec.getElem_extractLsb', BitVec.getLsbD_or, BitVec.getLsbD_shiftLeft, BitVec.getLsbD_setWidth]
  have h1 : ¬ 992 + j < 32 := by omega
  have e1 : h.getLsbD (992 + j) = false := BitVec.getLsbD_of_ge _ _ (by omega)
  have e2 : msg.getLsbD (992 + j - 32) = false := BitVec.getLsbD_of_ge _ _ (by omega)
  have e3 : tag.getLsbD (992 + j - 928) = false := BitVec.getLsbD_of_ge _ _ (by omega)
  have e5 : 992 + j < 1024 := by omega
  simp [e1, e2, e3, e5, hj]
  exact fun _ => by omega

/-- A wrong bit in the CRC field leaves the CRC of the frame as it was. -/
theorem frameCrc_flip (f x : Frame) : frameCrc (f ^^^ x <<< 992) = frameCrc f := by
  unfold frameCrc
  congr 1
  apply List.map_congr_left
  intro i hi
  have hi' : i < 124 := by simpa using hi
  unfold frameByte
  ext j hj
  simp only [BitVec.getElem_extractLsb', BitVec.getLsbD_xor, BitVec.getLsbD_shiftLeft]
  have : 8 * i + j < 992 := by omega
  simp [this]

/-- The header, the payload and the abort bit of a made frame are what it was made from. -/
theorem frameHdr_mk (h : BitVec 32) (msg : BitVec 896) (tag : BitVec 64) : frameHdr (mkFrame h msg tag) = h := by
  unfold mkFrame frameHdr
  ext j hj
  simp only [BitVec.getElem_extractLsb', BitVec.getLsbD_or, BitVec.getLsbD_shiftLeft, BitVec.getLsbD_setWidth]
  have h1 : 0 + j < 32 := by omega
  have h2 : 0 + j < 928 := by omega
  have h3 : 0 + j < 992 := by omega
  have h4 : 0 + j < 1024 := by omega
  simp only [h1, h2, h3, h4, decide_true, Bool.true_and, Bool.not_true, Bool.false_and, Bool.and_false, Bool.or_false]
  simp [hj]

theorem frameMsg_mk (h : BitVec 32) (msg : BitVec 896) (tag : BitVec 64) : frameMsg (mkFrame h msg tag) = msg := by
  unfold mkFrame frameMsg
  ext j hj
  simp only [BitVec.getElem_extractLsb', BitVec.getLsbD_or, BitVec.getLsbD_shiftLeft, BitVec.getLsbD_setWidth]
  have h1 : ¬ 32 + j < 32 := by omega
  have h2 : 32 + j < 928 := by omega
  have h3 : 32 + j < 992 := by omega
  have h4 : 32 + j < 1024 := by omega
  have e1 : h.getLsbD (32 + j) = false := BitVec.getLsbD_of_ge _ _ (by omega)
  simp only [h1, h2, h3, h4, e1, decide_true, decide_false, Bool.true_and, Bool.not_true, Bool.not_false, Bool.false_and,
    Bool.and_false, Bool.or_false, Bool.false_or]
  have h5 : 32 + j - 32 = j := by omega
  have h6 : j < 1024 := by omega
  simp [h5, h6, hj]

theorem frameHdr_flip (f x : Frame) : frameHdr (f ^^^ x <<< 992) = frameHdr f := by
  unfold frameHdr
  ext j hj
  simp only [BitVec.getElem_extractLsb', BitVec.getLsbD_xor, BitVec.getLsbD_shiftLeft]
  have h : j < 992 := by omega
  simp [h]

theorem frameSum_flip (f x : Frame) : frameSum (f ^^^ x <<< 992) = frameSum f ^^^ x.setWidth 32 := by
  unfold frameSum
  ext j hj
  simp only [BitVec.getElem_extractLsb', BitVec.getLsbD_xor, BitVec.getLsbD_shiftLeft, BitVec.getElem_xor,
    BitVec.getElem_setWidth]
  have h : 992 + j < 1024 := by omega
  have h2 : ¬ 992 + j < 992 := by omega
  have h3 : 992 + j - 992 = j := by omega
  simp [h, h2, h3]

theorem xor_one_ne (x : BitVec 32) : x ^^^ (1 : Frame).setWidth 32 ≠ x := by
  intro h
  have := congrArg (fun y => y.getLsbD 0) h
  simp at this
end Sys2Proof.Laws
end

