-- ==== Sys2Proof/Laws/Map.lean ====
section
/-! SUPPORT. Laws of the sparse tables: a read after a write, and that every operation keeps the canonical form. -/
namespace Sys2Proof.Laws
open Sys2Proof Sys2Proof.Machine

variable {α : Type} {d : α} {t : SMap α} {j k : Nat} {v : α}

@[simp] theorem mget_nil : mget d [] k = d := rfl

theorem mget_minsert_self : mget d (minsert t k v) k = v := by
  induction t with
  | nil => simp [minsert, mget]
  | cons e r ih =>
    obtain ⟨i, u⟩ := e
    unfold minsert
    split
    · simp [mget]
    · split
      · simp [mget]
      · next h => simp only [mget, if_neg h]; exact ih

theorem mget_minsert_ne (h : j ≠ k) : mget d (minsert t k v) j = mget d t j := by
  induction t with
  | nil => simp [minsert, mget, h.symm]
  | cons e r ih =>
    obtain ⟨i, u⟩ := e
    unfold minsert
    split
    · simp [mget, h.symm]
    · split
      · next hi => subst hi; simp [mget, h.symm]
      · simp only [mget]; rw [ih]

theorem mget_merase_ne (h : j ≠ k) : mget d (merase t k) j = mget d t j := by
  induction t with
  | nil => rfl
  | cons e r ih =>
    obtain ⟨i, u⟩ := e
    unfold merase
    split
    · next hi => subst hi; simp [mget, h.symm]
    · simp only [mget]; rw [ih]

/-- A write leaves every other key alone, whatever the table. -/
theorem mget_mset_ne [DecidableEq α] {x : α} (h : j ≠ k) : mget d (mset x t k v) j = mget d t j := by
  unfold mset; split
  · exact mget_merase_ne h
  · exact mget_minsert_ne h

/-! ## The canonical form -/

theorem mabove_mono (h : j < k) : mabove k t = true → mabove j t = true := by
  cases t with
  | nil => simp [mabove]
  | cons e r => obtain ⟨i, u⟩ := e; simp only [mabove, decide_eq_true_eq]; omega

variable [DecidableEq α] {f : Nat → α}

theorem mwf_cons {u : α} : mwf f ((j, u) :: t) = true ↔ mabove j t = true ∧ u ≠ f j ∧ mwf f t = true := by
  simp [mwf, and_assoc]

omit [DecidableEq α] in
theorem mabove_minsert (h : j < k) (ht : mabove j t = true) : mabove j (minsert t k v) = true := by
  cases t with
  | nil => simpa [minsert, mabove] using h
  | cons e r =>
    obtain ⟨i, u⟩ := e
    have hi : j < i := by simpa [mabove] using ht
    unfold minsert
    split
    · simpa [mabove] using h
    · split <;> simp [mabove, h, hi]

theorem mabove_head {u : α} (hw : mwf f ((j, u) :: t) = true) (h : k < j) : mabove k t = true :=
  mabove_mono h (mwf_cons.mp hw).1

theorem mabove_merase (hw : mwf f t = true) (ht : mabove j t = true) : mabove j (merase t k) = true := by
  cases t with
  | nil => rfl
  | cons e r =>
    obtain ⟨i, u⟩ := e
    have hi : j < i := by simpa [mabove] using ht
    unfold merase
    split
    · exact mabove_head hw hi
    · simpa [mabove] using hi

theorem mwf_minsert (hv : v ≠ f k) (hw : mwf f t = true) : mwf f (minsert t k v) = true := by
  induction t with
  | nil => simp [minsert, mwf, mabove, hv]
  | cons e r ih =>
    obtain ⟨i, u⟩ := e
    obtain ⟨h1, h2, h3⟩ := mwf_cons.mp hw
    unfold minsert
    split
    · next hk => exact mwf_cons.mpr ⟨by simpa [mabove] using hk, hv, hw⟩
    · split
      · next hi => subst hi; exact mwf_cons.mpr ⟨h1, hv, h3⟩
      · exact mwf_cons.mpr ⟨mabove_minsert (by omega) h1, h2, ih h3⟩

theorem mwf_merase (hw : mwf f t = true) : mwf f (merase t k) = true := by
  induction t with
  | nil => rfl
  | cons e r ih =>
    obtain ⟨i, u⟩ := e
    obtain ⟨h1, h2, h3⟩ := mwf_cons.mp hw
    unfold merase
    split
    · exact h3
    · exact mwf_cons.mpr ⟨mabove_merase h3 h1, h2, ih h3⟩

/-- A write keeps the canonical form. -/
theorem mwf_mset (hw : mwf f t = true) : mwf f (mset (f k) t k v) = true := by
  unfold mset; split
  · exact mwf_merase hw
  · next h => exact mwf_minsert h hw

theorem mabove_filter {p : Nat × α → Bool} (hw : mwf f t = true) (ht : mabove j t = true) : mabove j (t.filter p) = true := by
  induction t with
  | nil => rfl
  | cons e r ih =>
    obtain ⟨i, u⟩ := e
    have hi : j < i := by simpa [mabove] using ht
    rw [List.filter_cons]; split
    · simpa [mabove] using hi
    · exact ih (mwf_cons.mp hw).2.2 (mabove_head hw hi)

/-- Removing a range of keys keeps the canonical form. -/
theorem mwf_mdrop {lo hi : Nat} (hw : mwf f t = true) : mwf f (mdrop lo hi t) = true := by
  unfold mdrop
  induction t with
  | nil => rfl
  | cons e r ih =>
    obtain ⟨i, u⟩ := e
    obtain ⟨h1, h2, h3⟩ := mwf_cons.mp hw
    rw [List.filter_cons]; split
    · exact mwf_cons.mpr ⟨mabove_filter h3 h1, h2, ih h3⟩
    · exact ih h3

omit [DecidableEq α] in
theorem mget_of_mabove (h : mabove k t = true) (hw : ∀ e ∈ t, k < e.1) : mget d t k = d := by
  induction t with
  | nil => rfl
  | cons e r ih =>
    obtain ⟨i, u⟩ := e
    have hi : k < i := hw (i, u) (by simp)
    simp only [mget]
    rw [if_neg (by omega)]
    cases r with
    | nil => rfl
    | cons e' r' => exact ih (by simpa [mabove] using hw e' (by simp)) (fun x hx => hw x (by simp [hx]))

/-- Every key of a canonical table that lies above `k` lies above it throughout. -/
theorem mwf_keys_above (hw : mwf f t = true) (h : mabove k t = true) : ∀ e ∈ t, k < e.1 := by
  induction t with
  | nil => simp
  | cons e r ih =>
    obtain ⟨i, u⟩ := e
    have hi : k < i := by simpa [mabove] using h
    intro x hx
    rcases List.mem_cons.mp hx with rfl | hx
    · exact hi
    · exact ih (mwf_cons.mp hw).2.2 (mabove_head hw hi) x hx

/-- A key that has been removed from a canonical table reads as unlisted. -/
theorem mget_merase_self (hw : mwf f t = true) : mget d (merase t k) k = d := by
  induction t with
  | nil => rfl
  | cons e r ih =>
    obtain ⟨i, u⟩ := e
    obtain ⟨h1, _, h3⟩ := mwf_cons.mp hw
    unfold merase
    split
    · next hi => subst hi; exact mget_of_mabove h1 (mwf_keys_above h3 h1)
    · next hi => simp only [mget, if_neg hi]; exact ih h3

/-- A write to a canonical table reads back. -/
theorem mget_mset_self (hw : mwf f t = true) : mget d (mset d t k v) k = v := by
  unfold mset; split
  · next h => rw [mget_merase_self hw, h]
  · exact mget_minsert_self

theorem mget_mdrop (hw : mwf f t = true) {lo hi : Nat} :
    mget d (mdrop lo hi t) k = if k < lo ∨ hi ≤ k then mget d t k else d := by
  induction t with
  | nil => simp [mdrop]
  | cons e r ih =>
    obtain ⟨i, u⟩ := e
    obtain ⟨h1, _, h3⟩ := mwf_cons.mp hw
    have ih := ih h3
    unfold mdrop at ih ⊢
    rw [List.filter_cons]
    by_cases hk : i = k
    · subst hk
      split
      · next h => simp only [mget, if_pos, Bool.or_eq_true, decide_eq_true_eq] at h ⊢; rw [if_pos h]
      · next h =>
        simp only [Bool.or_eq_true, decide_eq_true_eq] at h
        rw [ih, if_neg h, if_neg h]
    · split
      · simp only [mget, if_neg hk]; exact ih
      · simp only [mget, if_neg hk]; exact ih

end Sys2Proof.Laws
end

