-- ==== Sys2Proof/Laws/State.lean ====
section
/-! SUPPORT. What each update of a command at work does to each field: one lemma per field and update. -/
namespace Sys2Proof.Laws
open Sys2Proof Sys2Proof.Machine

variable (r : Run) (s : State)

/-! ## The beginning and the end of a command -/

@[simp] theorem start_c : (Run.start s).c = s.c := rfl
@[simp] theorem start_m : (Run.start s).m = s.m := rfl
@[simp] theorem start_log : (Run.start s).log = [] := rfl
@[simp] theorem finish_c : (Run.finish s r).c = r.c := rfl
@[simp] theorem finish_m : (Run.finish s r).m = s.m.applyAll r.log.reverse := rfl
@[simp] theorem finish_pending : (Run.finish s r).pending = s.pending := rfl

/-! ## Store operations leave the control state alone -/

@[simp] theorem st_c (o : StoreOp) : (r.st o).c = r.c := rfl
@[simp] theorem setReg_c (a v : Nat) : (r.setReg a v).c = r.c := rfl
@[simp] theorem count32_c (a n : Nat) : (r.count32 a n).c = r.c := rfl
@[simp] theorem count16_c (a n : Nat) : (r.count16 a n).c = r.c := rfl
@[simp] theorem rmCount_c (m : Fin 64) (o n : Nat) : (r.rmCount m o n).c = r.c := rfl
@[simp] theorem pchCount_c (p : Fin 8) (o n : Nat) : (r.pchCount p o n).c = r.c := rfl
@[simp] theorem st_m (o : StoreOp) : (r.st o).m = r.m.apply o := rfl
@[simp] theorem st_log (o : StoreOp) : (r.st o).log = o :: r.log := rfl
@[simp] theorem setReg_m (a v : Nat) : (r.setReg a v).m = r.m.apply (.reg a (w32 v)) := rfl
@[simp] theorem setReg_log (a v : Nat) : (r.setReg a v).log = .reg a (w32 v) :: r.log := rfl

/-! ## `setRoom` -/

@[simp] theorem setRoom_m (m : Fin 64) (x : Room) : (r.setRoom m x).m = r.m := rfl
@[simp] theorem setRoom_log (m : Fin 64) (x : Room) : (r.setRoom m x).log = r.log := rfl
@[simp] theorem setRoom_now (m : Fin 64) (x : Room) : (r.setRoom m x).c.now = r.c.now := rfl
@[simp] theorem setRoom_cc (m : Fin 64) (x : Room) : (r.setRoom m x).c.cc = r.c.cc := rfl
@[simp] theorem setRoom_ft (m : Fin 64) (x : Room) : (r.setRoom m x).c.ft = r.c.ft := rfl
@[simp] theorem setRoom_ftCore (m : Fin 64) (x : Room) : (r.setRoom m x).c.ftCore = r.c.ftCore := rfl
@[simp] theorem setRoom_ftNext (m : Fin 64) (x : Room) : (r.setRoom m x).c.ftNext = r.c.ftNext := rfl
@[simp] theorem setRoom_ftHand (m : Fin 64) (x : Room) : (r.setRoom m x).c.ftHand = r.c.ftHand := rfl
@[simp] theorem setRoom_wait (m : Fin 64) (x : Room) : (r.setRoom m x).c.wait = r.c.wait := rfl
@[simp] theorem setRoom_fly (m : Fin 64) (x : Room) : (r.setRoom m x).c.fly = r.c.fly := rfl
@[simp] theorem setRoom_flyNo (m : Fin 64) (x : Room) : (r.setRoom m x).c.flyNo = r.c.flyNo := rfl
@[simp] theorem setRoom_lanes (m : Fin 64) (x : Room) : (r.setRoom m x).c.lanes = r.c.lanes := rfl
@[simp] theorem setRoom_xings (m : Fin 64) (x : Room) : (r.setRoom m x).c.xings = r.c.xings := rfl
@[simp] theorem setRoom_cdrainDone (m : Fin 64) (x : Room) : (r.setRoom m x).c.cdrainDone = r.c.cdrainDone := rfl
@[simp] theorem setRoom_csweepBusy (m : Fin 64) (x : Room) : (r.setRoom m x).c.csweepBusy = r.c.csweepBusy := rfl
@[simp] theorem setRoom_lapNo (m : Fin 64) (x : Room) : (r.setRoom m x).c.lapNo = r.c.lapNo := rfl
@[simp] theorem setRoom_slots (m : Fin 64) (x : Room) : (r.setRoom m x).c.slots = r.c.slots := rfl
@[simp] theorem setRoom_free (m : Fin 64) (x : Room) : (r.setRoom m x).c.free = r.c.free := rfl
@[simp] theorem setRoom_rooms (m : Fin 64) (x : Room) : (r.setRoom m x).c.rooms = r.c.rooms.set m.val x m.isLt := rfl
@[simp] theorem setRoom_porches (m : Fin 64) (x : Room) : (r.setRoom m x).c.porches = r.c.porches := rfl
@[simp] theorem setRoom_chans (m : Fin 64) (x : Room) : (r.setRoom m x).c.chans = r.c.chans := rfl
@[simp] theorem setRoom_doors (m : Fin 64) (x : Room) : (r.setRoom m x).c.doors = r.c.doors := rfl
@[simp] theorem setRoom_hall (m : Fin 64) (x : Room) : (r.setRoom m x).c.hall = r.c.hall := rfl
@[simp] theorem setRoom_fab (m : Fin 64) (x : Room) : (r.setRoom m x).c.fab = r.c.fab := rfl
@[simp] theorem setRoom_time (m : Fin 64) (x : Room) : (r.setRoom m x).c.time = r.c.time := rfl
@[simp] theorem setRoom_fbx (m : Fin 64) (x : Room) : (r.setRoom m x).c.fbx = r.c.fbx := rfl
@[simp] theorem setRoom_tt (m : Fin 64) (x : Room) : (r.setRoom m x).c.tt = r.c.tt := rfl
@[simp] theorem setRoom_mod (m : Fin 64) (x : Room) : (r.setRoom m x).c.mod = r.c.mod := rfl
@[simp] theorem setRoom_img (m : Fin 64) (x : Room) : (r.setRoom m x).c.img = r.c.img := rfl
@[simp] theorem setRoom_selft (m : Fin 64) (x : Room) : (r.setRoom m x).c.selft = r.c.selft := rfl
@[simp] theorem setRoom_fuses (m : Fin 64) (x : Room) : (r.setRoom m x).c.fuses = r.c.fuses := rfl
@[simp] theorem setRoom_cells (m : Fin 64) (x : Room) : (r.setRoom m x).c.cells = r.c.cells := rfl
@[simp] theorem setRoom_crc (m : Fin 64) (x : Room) : (r.setRoom m x).c.crc = r.c.crc := rfl
@[simp] theorem setRoom_lch (m : Fin 64) (x : Room) : (r.setRoom m x).c.lch = r.c.lch := rfl
@[simp] theorem setRoom_mgA (m : Fin 64) (x : Room) : (r.setRoom m x).c.mgA = r.c.mgA := rfl
@[simp] theorem setRoom_mgB (m : Fin 64) (x : Room) : (r.setRoom m x).c.mgB = r.c.mgB := rfl
@[simp] theorem setRoom_clk (m : Fin 64) (x : Room) : (r.setRoom m x).c.clk = r.c.clk := rfl
@[simp] theorem setRoom_thm (m : Fin 64) (x : Room) : (r.setRoom m x).c.thm = r.c.thm := rfl
@[simp] theorem setRoom_mtr (m : Fin 64) (x : Room) : (r.setRoom m x).c.mtr = r.c.mtr := rfl
@[simp] theorem setRoom_stage (m : Fin 64) (x : Room) : (r.setRoom m x).c.stage = r.c.stage := rfl
@[simp] theorem setRoom_jtag (m : Fin 64) (x : Room) : (r.setRoom m x).c.jtag = r.c.jtag := rfl
@[simp] theorem setRoom_win (m : Fin 64) (x : Room) : (r.setRoom m x).c.win = r.c.win := rfl
@[simp] theorem setRoom_rjob (m : Fin 64) (x : Room) : (r.setRoom m x).c.rjob = r.c.rjob := rfl
@[simp] theorem setRoom_rebuild (m : Fin 64) (x : Room) : (r.setRoom m x).c.rebuild = r.c.rebuild := rfl
@[simp] theorem setRoom_cdrainBusy (m : Fin 64) (x : Room) : (r.setRoom m x).c.cdrainBusy = r.c.cdrainBusy := rfl
@[simp] theorem setRoom_pwrGood (m : Fin 64) (x : Room) : (r.setRoom m x).c.pwrGood = r.c.pwrGood := rfl
@[simp] theorem setRoom_vaux (m : Fin 64) (x : Room) : (r.setRoom m x).c.vaux = r.c.vaux := rfl
@[simp] theorem setRoom_railLow (m : Fin 64) (x : Room) : (r.setRoom m x).c.railLow = r.c.railLow := rfl
@[simp] theorem setRoom_winLockArmed (m : Fin 64) (x : Room) : (r.setRoom m x).c.winLockArmed = r.c.winLockArmed := rfl
@[simp] theorem setRoom_used (m : Fin 64) (x : Room) : (r.setRoom m x).c.used = r.c.used := rfl
@[simp] theorem setRoom_out (m : Fin 64) (x : Room) : (r.setRoom m x).c.out = r.c.out := rfl

/-! ## `modRoom` -/

@[simp] theorem modRoom_m (m : Fin 64) (f : Room → Room) : (r.modRoom m f).m = r.m := rfl
@[simp] theorem modRoom_log (m : Fin 64) (f : Room → Room) : (r.modRoom m f).log = r.log := rfl
@[simp] theorem modRoom_now (m : Fin 64) (f : Room → Room) : (r.modRoom m f).c.now = r.c.now := rfl
@[simp] theorem modRoom_cc (m : Fin 64) (f : Room → Room) : (r.modRoom m f).c.cc = r.c.cc := rfl
@[simp] theorem modRoom_ft (m : Fin 64) (f : Room → Room) : (r.modRoom m f).c.ft = r.c.ft := rfl
@[simp] theorem modRoom_ftCore (m : Fin 64) (f : Room → Room) : (r.modRoom m f).c.ftCore = r.c.ftCore := rfl
@[simp] theorem modRoom_ftNext (m : Fin 64) (f : Room → Room) : (r.modRoom m f).c.ftNext = r.c.ftNext := rfl
@[simp] theorem modRoom_ftHand (m : Fin 64) (f : Room → Room) : (r.modRoom m f).c.ftHand = r.c.ftHand := rfl
@[simp] theorem modRoom_wait (m : Fin 64) (f : Room → Room) : (r.modRoom m f).c.wait = r.c.wait := rfl
@[simp] theorem modRoom_fly (m : Fin 64) (f : Room → Room) : (r.modRoom m f).c.fly = r.c.fly := rfl
@[simp] theorem modRoom_flyNo (m : Fin 64) (f : Room → Room) : (r.modRoom m f).c.flyNo = r.c.flyNo := rfl
@[simp] theorem modRoom_lanes (m : Fin 64) (f : Room → Room) : (r.modRoom m f).c.lanes = r.c.lanes := rfl
@[simp] theorem modRoom_xings (m : Fin 64) (f : Room → Room) : (r.modRoom m f).c.xings = r.c.xings := rfl
@[simp] theorem modRoom_cdrainDone (m : Fin 64) (f : Room → Room) : (r.modRoom m f).c.cdrainDone = r.c.cdrainDone := rfl
@[simp] theorem modRoom_csweepBusy (m : Fin 64) (f : Room → Room) : (r.modRoom m f).c.csweepBusy = r.c.csweepBusy := rfl
@[simp] theorem modRoom_lapNo (m : Fin 64) (f : Room → Room) : (r.modRoom m f).c.lapNo = r.c.lapNo := rfl
@[simp] theorem modRoom_slots (m : Fin 64) (f : Room → Room) : (r.modRoom m f).c.slots = r.c.slots := rfl
@[simp] theorem modRoom_free (m : Fin 64) (f : Room → Room) : (r.modRoom m f).c.free = r.c.free := rfl
@[simp] theorem modRoom_rooms (m : Fin 64) (f : Room → Room) : (r.modRoom m f).c.rooms = r.c.rooms.set m.val (f r.c.rooms[m]) m.isLt := rfl
@[simp] theorem modRoom_porches (m : Fin 64) (f : Room → Room) : (r.modRoom m f).c.porches = r.c.porches := rfl
@[simp] theorem modRoom_chans (m : Fin 64) (f : Room → Room) : (r.modRoom m f).c.chans = r.c.chans := rfl
@[simp] theorem modRoom_doors (m : Fin 64) (f : Room → Room) : (r.modRoom m f).c.doors = r.c.doors := rfl
@[simp] theorem modRoom_hall (m : Fin 64) (f : Room → Room) : (r.modRoom m f).c.hall = r.c.hall := rfl
@[simp] theorem modRoom_fab (m : Fin 64) (f : Room → Room) : (r.modRoom m f).c.fab = r.c.fab := rfl
@[simp] theorem modRoom_time (m : Fin 64) (f : Room → Room) : (r.modRoom m f).c.time = r.c.time := rfl
@[simp] theorem modRoom_fbx (m : Fin 64) (f : Room → Room) : (r.modRoom m f).c.fbx = r.c.fbx := rfl
@[simp] theorem modRoom_tt (m : Fin 64) (f : Room → Room) : (r.modRoom m f).c.tt = r.c.tt := rfl
@[simp] theorem modRoom_mod (m : Fin 64) (f : Room → Room) : (r.modRoom m f).c.mod = r.c.mod := rfl
@[simp] theorem modRoom_img (m : Fin 64) (f : Room → Room) : (r.modRoom m f).c.img = r.c.img := rfl
@[simp] theorem modRoom_selft (m : Fin 64) (f : Room → Room) : (r.modRoom m f).c.selft = r.c.selft := rfl
@[simp] theorem modRoom_fuses (m : Fin 64) (f : Room → Room) : (r.modRoom m f).c.fuses = r.c.fuses := rfl
@[simp] theorem modRoom_cells (m : Fin 64) (f : Room → Room) : (r.modRoom m f).c.cells = r.c.cells := rfl
@[simp] theorem modRoom_crc (m : Fin 64) (f : Room → Room) : (r.modRoom m f).c.crc = r.c.crc := rfl
@[simp] theorem modRoom_lch (m : Fin 64) (f : Room → Room) : (r.modRoom m f).c.lch = r.c.lch := rfl
@[simp] theorem modRoom_mgA (m : Fin 64) (f : Room → Room) : (r.modRoom m f).c.mgA = r.c.mgA := rfl
@[simp] theorem modRoom_mgB (m : Fin 64) (f : Room → Room) : (r.modRoom m f).c.mgB = r.c.mgB := rfl
@[simp] theorem modRoom_clk (m : Fin 64) (f : Room → Room) : (r.modRoom m f).c.clk = r.c.clk := rfl
@[simp] theorem modRoom_thm (m : Fin 64) (f : Room → Room) : (r.modRoom m f).c.thm = r.c.thm := rfl
@[simp] theorem modRoom_mtr (m : Fin 64) (f : Room → Room) : (r.modRoom m f).c.mtr = r.c.mtr := rfl
@[simp] theorem modRoom_stage (m : Fin 64) (f : Room → Room) : (r.modRoom m f).c.stage = r.c.stage := rfl
@[simp] theorem modRoom_jtag (m : Fin 64) (f : Room → Room) : (r.modRoom m f).c.jtag = r.c.jtag := rfl
@[simp] theorem modRoom_win (m : Fin 64) (f : Room → Room) : (r.modRoom m f).c.win = r.c.win := rfl
@[simp] theorem modRoom_rjob (m : Fin 64) (f : Room → Room) : (r.modRoom m f).c.rjob = r.c.rjob := rfl
@[simp] theorem modRoom_rebuild (m : Fin 64) (f : Room → Room) : (r.modRoom m f).c.rebuild = r.c.rebuild := rfl
@[simp] theorem modRoom_cdrainBusy (m : Fin 64) (f : Room → Room) : (r.modRoom m f).c.cdrainBusy = r.c.cdrainBusy := rfl
@[simp] theorem modRoom_pwrGood (m : Fin 64) (f : Room → Room) : (r.modRoom m f).c.pwrGood = r.c.pwrGood := rfl
@[simp] theorem modRoom_vaux (m : Fin 64) (f : Room → Room) : (r.modRoom m f).c.vaux = r.c.vaux := rfl
@[simp] theorem modRoom_railLow (m : Fin 64) (f : Room → Room) : (r.modRoom m f).c.railLow = r.c.railLow := rfl
@[simp] theorem modRoom_winLockArmed (m : Fin 64) (f : Room → Room) : (r.modRoom m f).c.winLockArmed = r.c.winLockArmed := rfl
@[simp] theorem modRoom_used (m : Fin 64) (f : Room → Room) : (r.modRoom m f).c.used = r.c.used := rfl
@[simp] theorem modRoom_out (m : Fin 64) (f : Room → Room) : (r.modRoom m f).c.out = r.c.out := rfl

/-! ## `setPorch` -/

@[simp] theorem setPorch_m (p : Fin 8) (x : Porch) : (r.setPorch p x).m = r.m := rfl
@[simp] theorem setPorch_log (p : Fin 8) (x : Porch) : (r.setPorch p x).log = r.log := rfl
@[simp] theorem setPorch_now (p : Fin 8) (x : Porch) : (r.setPorch p x).c.now = r.c.now := rfl
@[simp] theorem setPorch_cc (p : Fin 8) (x : Porch) : (r.setPorch p x).c.cc = r.c.cc := rfl
@[simp] theorem setPorch_ft (p : Fin 8) (x : Porch) : (r.setPorch p x).c.ft = r.c.ft := rfl
@[simp] theorem setPorch_ftCore (p : Fin 8) (x : Porch) : (r.setPorch p x).c.ftCore = r.c.ftCore := rfl
@[simp] theorem setPorch_ftNext (p : Fin 8) (x : Porch) : (r.setPorch p x).c.ftNext = r.c.ftNext := rfl
@[simp] theorem setPorch_ftHand (p : Fin 8) (x : Porch) : (r.setPorch p x).c.ftHand = r.c.ftHand := rfl
@[simp] theorem setPorch_wait (p : Fin 8) (x : Porch) : (r.setPorch p x).c.wait = r.c.wait := rfl
@[simp] theorem setPorch_fly (p : Fin 8) (x : Porch) : (r.setPorch p x).c.fly = r.c.fly := rfl
@[simp] theorem setPorch_flyNo (p : Fin 8) (x : Porch) : (r.setPorch p x).c.flyNo = r.c.flyNo := rfl
@[simp] theorem setPorch_lanes (p : Fin 8) (x : Porch) : (r.setPorch p x).c.lanes = r.c.lanes := rfl
@[simp] theorem setPorch_xings (p : Fin 8) (x : Porch) : (r.setPorch p x).c.xings = r.c.xings := rfl
@[simp] theorem setPorch_cdrainDone (p : Fin 8) (x : Porch) : (r.setPorch p x).c.cdrainDone = r.c.cdrainDone := rfl
@[simp] theorem setPorch_csweepBusy (p : Fin 8) (x : Porch) : (r.setPorch p x).c.csweepBusy = r.c.csweepBusy := rfl
@[simp] theorem setPorch_lapNo (p : Fin 8) (x : Porch) : (r.setPorch p x).c.lapNo = r.c.lapNo := rfl
@[simp] theorem setPorch_slots (p : Fin 8) (x : Porch) : (r.setPorch p x).c.slots = r.c.slots := rfl
@[simp] theorem setPorch_free (p : Fin 8) (x : Porch) : (r.setPorch p x).c.free = r.c.free := rfl
@[simp] theorem setPorch_rooms (p : Fin 8) (x : Porch) : (r.setPorch p x).c.rooms = r.c.rooms := rfl
@[simp] theorem setPorch_porches (p : Fin 8) (x : Porch) : (r.setPorch p x).c.porches = r.c.porches.set p.val x p.isLt := rfl
@[simp] theorem setPorch_chans (p : Fin 8) (x : Porch) : (r.setPorch p x).c.chans = r.c.chans := rfl
@[simp] theorem setPorch_doors (p : Fin 8) (x : Porch) : (r.setPorch p x).c.doors = r.c.doors := rfl
@[simp] theorem setPorch_hall (p : Fin 8) (x : Porch) : (r.setPorch p x).c.hall = r.c.hall := rfl
@[simp] theorem setPorch_fab (p : Fin 8) (x : Porch) : (r.setPorch p x).c.fab = r.c.fab := rfl
@[simp] theorem setPorch_time (p : Fin 8) (x : Porch) : (r.setPorch p x).c.time = r.c.time := rfl
@[simp] theorem setPorch_fbx (p : Fin 8) (x : Porch) : (r.setPorch p x).c.fbx = r.c.fbx := rfl
@[simp] theorem setPorch_tt (p : Fin 8) (x : Porch) : (r.setPorch p x).c.tt = r.c.tt := rfl
@[simp] theorem setPorch_mod (p : Fin 8) (x : Porch) : (r.setPorch p x).c.mod = r.c.mod := rfl
@[simp] theorem setPorch_img (p : Fin 8) (x : Porch) : (r.setPorch p x).c.img = r.c.img := rfl
@[simp] theorem setPorch_selft (p : Fin 8) (x : Porch) : (r.setPorch p x).c.selft = r.c.selft := rfl
@[simp] theorem setPorch_fuses (p : Fin 8) (x : Porch) : (r.setPorch p x).c.fuses = r.c.fuses := rfl
@[simp] theorem setPorch_cells (p : Fin 8) (x : Porch) : (r.setPorch p x).c.cells = r.c.cells := rfl
@[simp] theorem setPorch_crc (p : Fin 8) (x : Porch) : (r.setPorch p x).c.crc = r.c.crc := rfl
@[simp] theorem setPorch_lch (p : Fin 8) (x : Porch) : (r.setPorch p x).c.lch = r.c.lch := rfl
@[simp] theorem setPorch_mgA (p : Fin 8) (x : Porch) : (r.setPorch p x).c.mgA = r.c.mgA := rfl
@[simp] theorem setPorch_mgB (p : Fin 8) (x : Porch) : (r.setPorch p x).c.mgB = r.c.mgB := rfl
@[simp] theorem setPorch_clk (p : Fin 8) (x : Porch) : (r.setPorch p x).c.clk = r.c.clk := rfl
@[simp] theorem setPorch_thm (p : Fin 8) (x : Porch) : (r.setPorch p x).c.thm = r.c.thm := rfl
@[simp] theorem setPorch_mtr (p : Fin 8) (x : Porch) : (r.setPorch p x).c.mtr = r.c.mtr := rfl
@[simp] theorem setPorch_stage (p : Fin 8) (x : Porch) : (r.setPorch p x).c.stage = r.c.stage := rfl
@[simp] theorem setPorch_jtag (p : Fin 8) (x : Porch) : (r.setPorch p x).c.jtag = r.c.jtag := rfl
@[simp] theorem setPorch_win (p : Fin 8) (x : Porch) : (r.setPorch p x).c.win = r.c.win := rfl
@[simp] theorem setPorch_rjob (p : Fin 8) (x : Porch) : (r.setPorch p x).c.rjob = r.c.rjob := rfl
@[simp] theorem setPorch_rebuild (p : Fin 8) (x : Porch) : (r.setPorch p x).c.rebuild = r.c.rebuild := rfl
@[simp] theorem setPorch_cdrainBusy (p : Fin 8) (x : Porch) : (r.setPorch p x).c.cdrainBusy = r.c.cdrainBusy := rfl
@[simp] theorem setPorch_pwrGood (p : Fin 8) (x : Porch) : (r.setPorch p x).c.pwrGood = r.c.pwrGood := rfl
@[simp] theorem setPorch_vaux (p : Fin 8) (x : Porch) : (r.setPorch p x).c.vaux = r.c.vaux := rfl
@[simp] theorem setPorch_railLow (p : Fin 8) (x : Porch) : (r.setPorch p x).c.railLow = r.c.railLow := rfl
@[simp] theorem setPorch_winLockArmed (p : Fin 8) (x : Porch) : (r.setPorch p x).c.winLockArmed = r.c.winLockArmed := rfl
@[simp] theorem setPorch_used (p : Fin 8) (x : Porch) : (r.setPorch p x).c.used = r.c.used := rfl
@[simp] theorem setPorch_out (p : Fin 8) (x : Porch) : (r.setPorch p x).c.out = r.c.out := rfl

/-! ## `modPorch` -/

@[simp] theorem modPorch_m (p : Fin 8) (f : Porch → Porch) : (r.modPorch p f).m = r.m := rfl
@[simp] theorem modPorch_log (p : Fin 8) (f : Porch → Porch) : (r.modPorch p f).log = r.log := rfl
@[simp] theorem modPorch_now (p : Fin 8) (f : Porch → Porch) : (r.modPorch p f).c.now = r.c.now := rfl
@[simp] theorem modPorch_cc (p : Fin 8) (f : Porch → Porch) : (r.modPorch p f).c.cc = r.c.cc := rfl
@[simp] theorem modPorch_ft (p : Fin 8) (f : Porch → Porch) : (r.modPorch p f).c.ft = r.c.ft := rfl
@[simp] theorem modPorch_ftCore (p : Fin 8) (f : Porch → Porch) : (r.modPorch p f).c.ftCore = r.c.ftCore := rfl
@[simp] theorem modPorch_ftNext (p : Fin 8) (f : Porch → Porch) : (r.modPorch p f).c.ftNext = r.c.ftNext := rfl
@[simp] theorem modPorch_ftHand (p : Fin 8) (f : Porch → Porch) : (r.modPorch p f).c.ftHand = r.c.ftHand := rfl
@[simp] theorem modPorch_wait (p : Fin 8) (f : Porch → Porch) : (r.modPorch p f).c.wait = r.c.wait := rfl
@[simp] theorem modPorch_fly (p : Fin 8) (f : Porch → Porch) : (r.modPorch p f).c.fly = r.c.fly := rfl
@[simp] theorem modPorch_flyNo (p : Fin 8) (f : Porch → Porch) : (r.modPorch p f).c.flyNo = r.c.flyNo := rfl
@[simp] theorem modPorch_lanes (p : Fin 8) (f : Porch → Porch) : (r.modPorch p f).c.lanes = r.c.lanes := rfl
@[simp] theorem modPorch_xings (p : Fin 8) (f : Porch → Porch) : (r.modPorch p f).c.xings = r.c.xings := rfl
@[simp] theorem modPorch_cdrainDone (p : Fin 8) (f : Porch → Porch) : (r.modPorch p f).c.cdrainDone = r.c.cdrainDone := rfl
@[simp] theorem modPorch_csweepBusy (p : Fin 8) (f : Porch → Porch) : (r.modPorch p f).c.csweepBusy = r.c.csweepBusy := rfl
@[simp] theorem modPorch_lapNo (p : Fin 8) (f : Porch → Porch) : (r.modPorch p f).c.lapNo = r.c.lapNo := rfl
@[simp] theorem modPorch_slots (p : Fin 8) (f : Porch → Porch) : (r.modPorch p f).c.slots = r.c.slots := rfl
@[simp] theorem modPorch_free (p : Fin 8) (f : Porch → Porch) : (r.modPorch p f).c.free = r.c.free := rfl
@[simp] theorem modPorch_rooms (p : Fin 8) (f : Porch → Porch) : (r.modPorch p f).c.rooms = r.c.rooms := rfl
@[simp] theorem modPorch_porches (p : Fin 8) (f : Porch → Porch) : (r.modPorch p f).c.porches = r.c.porches.set p.val (f r.c.porches[p]) p.isLt := rfl
@[simp] theorem modPorch_chans (p : Fin 8) (f : Porch → Porch) : (r.modPorch p f).c.chans = r.c.chans := rfl
@[simp] theorem modPorch_doors (p : Fin 8) (f : Porch → Porch) : (r.modPorch p f).c.doors = r.c.doors := rfl
@[simp] theorem modPorch_hall (p : Fin 8) (f : Porch → Porch) : (r.modPorch p f).c.hall = r.c.hall := rfl
@[simp] theorem modPorch_fab (p : Fin 8) (f : Porch → Porch) : (r.modPorch p f).c.fab = r.c.fab := rfl
@[simp] theorem modPorch_time (p : Fin 8) (f : Porch → Porch) : (r.modPorch p f).c.time = r.c.time := rfl
@[simp] theorem modPorch_fbx (p : Fin 8) (f : Porch → Porch) : (r.modPorch p f).c.fbx = r.c.fbx := rfl
@[simp] theorem modPorch_tt (p : Fin 8) (f : Porch → Porch) : (r.modPorch p f).c.tt = r.c.tt := rfl
@[simp] theorem modPorch_mod (p : Fin 8) (f : Porch → Porch) : (r.modPorch p f).c.mod = r.c.mod := rfl
@[simp] theorem modPorch_img (p : Fin 8) (f : Porch → Porch) : (r.modPorch p f).c.img = r.c.img := rfl
@[simp] theorem modPorch_selft (p : Fin 8) (f : Porch → Porch) : (r.modPorch p f).c.selft = r.c.selft := rfl
@[simp] theorem modPorch_fuses (p : Fin 8) (f : Porch → Porch) : (r.modPorch p f).c.fuses = r.c.fuses := rfl
@[simp] theorem modPorch_cells (p : Fin 8) (f : Porch → Porch) : (r.modPorch p f).c.cells = r.c.cells := rfl
@[simp] theorem modPorch_crc (p : Fin 8) (f : Porch → Porch) : (r.modPorch p f).c.crc = r.c.crc := rfl
@[simp] theorem modPorch_lch (p : Fin 8) (f : Porch → Porch) : (r.modPorch p f).c.lch = r.c.lch := rfl
@[simp] theorem modPorch_mgA (p : Fin 8) (f : Porch → Porch) : (r.modPorch p f).c.mgA = r.c.mgA := rfl
@[simp] theorem modPorch_mgB (p : Fin 8) (f : Porch → Porch) : (r.modPorch p f).c.mgB = r.c.mgB := rfl
@[simp] theorem modPorch_clk (p : Fin 8) (f : Porch → Porch) : (r.modPorch p f).c.clk = r.c.clk := rfl
@[simp] theorem modPorch_thm (p : Fin 8) (f : Porch → Porch) : (r.modPorch p f).c.thm = r.c.thm := rfl
@[simp] theorem modPorch_mtr (p : Fin 8) (f : Porch → Porch) : (r.modPorch p f).c.mtr = r.c.mtr := rfl
@[simp] theorem modPorch_stage (p : Fin 8) (f : Porch → Porch) : (r.modPorch p f).c.stage = r.c.stage := rfl
@[simp] theorem modPorch_jtag (p : Fin 8) (f : Porch → Porch) : (r.modPorch p f).c.jtag = r.c.jtag := rfl
@[simp] theorem modPorch_win (p : Fin 8) (f : Porch → Porch) : (r.modPorch p f).c.win = r.c.win := rfl
@[simp] theorem modPorch_rjob (p : Fin 8) (f : Porch → Porch) : (r.modPorch p f).c.rjob = r.c.rjob := rfl
@[simp] theorem modPorch_rebuild (p : Fin 8) (f : Porch → Porch) : (r.modPorch p f).c.rebuild = r.c.rebuild := rfl
@[simp] theorem modPorch_cdrainBusy (p : Fin 8) (f : Porch → Porch) : (r.modPorch p f).c.cdrainBusy = r.c.cdrainBusy := rfl
@[simp] theorem modPorch_pwrGood (p : Fin 8) (f : Porch → Porch) : (r.modPorch p f).c.pwrGood = r.c.pwrGood := rfl
@[simp] theorem modPorch_vaux (p : Fin 8) (f : Porch → Porch) : (r.modPorch p f).c.vaux = r.c.vaux := rfl
@[simp] theorem modPorch_railLow (p : Fin 8) (f : Porch → Porch) : (r.modPorch p f).c.railLow = r.c.railLow := rfl
@[simp] theorem modPorch_winLockArmed (p : Fin 8) (f : Porch → Porch) : (r.modPorch p f).c.winLockArmed = r.c.winLockArmed := rfl
@[simp] theorem modPorch_used (p : Fin 8) (f : Porch → Porch) : (r.modPorch p f).c.used = r.c.used := rfl
@[simp] theorem modPorch_out (p : Fin 8) (f : Porch → Porch) : (r.modPorch p f).c.out = r.c.out := rfl

/-! ## `modLink` -/

@[simp] theorem modLink_m (p : Fin 8) (k : Fin 2) (f : Link → Link) : (r.modLink p k f).m = r.m := rfl
@[simp] theorem modLink_log (p : Fin 8) (k : Fin 2) (f : Link → Link) : (r.modLink p k f).log = r.log := rfl
@[simp] theorem modLink_now (p : Fin 8) (k : Fin 2) (f : Link → Link) : (r.modLink p k f).c.now = r.c.now := rfl
@[simp] theorem modLink_cc (p : Fin 8) (k : Fin 2) (f : Link → Link) : (r.modLink p k f).c.cc = r.c.cc := rfl
@[simp] theorem modLink_ft (p : Fin 8) (k : Fin 2) (f : Link → Link) : (r.modLink p k f).c.ft = r.c.ft := rfl
@[simp] theorem modLink_ftCore (p : Fin 8) (k : Fin 2) (f : Link → Link) : (r.modLink p k f).c.ftCore = r.c.ftCore := rfl
@[simp] theorem modLink_ftNext (p : Fin 8) (k : Fin 2) (f : Link → Link) : (r.modLink p k f).c.ftNext = r.c.ftNext := rfl
@[simp] theorem modLink_ftHand (p : Fin 8) (k : Fin 2) (f : Link → Link) : (r.modLink p k f).c.ftHand = r.c.ftHand := rfl
@[simp] theorem modLink_wait (p : Fin 8) (k : Fin 2) (f : Link → Link) : (r.modLink p k f).c.wait = r.c.wait := rfl
@[simp] theorem modLink_fly (p : Fin 8) (k : Fin 2) (f : Link → Link) : (r.modLink p k f).c.fly = r.c.fly := rfl
@[simp] theorem modLink_flyNo (p : Fin 8) (k : Fin 2) (f : Link → Link) : (r.modLink p k f).c.flyNo = r.c.flyNo := rfl
@[simp] theorem modLink_lanes (p : Fin 8) (k : Fin 2) (f : Link → Link) : (r.modLink p k f).c.lanes = r.c.lanes := rfl
@[simp] theorem modLink_xings (p : Fin 8) (k : Fin 2) (f : Link → Link) : (r.modLink p k f).c.xings = r.c.xings := rfl
@[simp] theorem modLink_cdrainDone (p : Fin 8) (k : Fin 2) (f : Link → Link) : (r.modLink p k f).c.cdrainDone = r.c.cdrainDone := rfl
@[simp] theorem modLink_csweepBusy (p : Fin 8) (k : Fin 2) (f : Link → Link) : (r.modLink p k f).c.csweepBusy = r.c.csweepBusy := rfl
@[simp] theorem modLink_lapNo (p : Fin 8) (k : Fin 2) (f : Link → Link) : (r.modLink p k f).c.lapNo = r.c.lapNo := rfl
@[simp] theorem modLink_slots (p : Fin 8) (k : Fin 2) (f : Link → Link) : (r.modLink p k f).c.slots = r.c.slots := rfl
@[simp] theorem modLink_free (p : Fin 8) (k : Fin 2) (f : Link → Link) : (r.modLink p k f).c.free = r.c.free := rfl
@[simp] theorem modLink_rooms (p : Fin 8) (k : Fin 2) (f : Link → Link) : (r.modLink p k f).c.rooms = r.c.rooms := rfl
@[simp] theorem modLink_chans (p : Fin 8) (k : Fin 2) (f : Link → Link) : (r.modLink p k f).c.chans = r.c.chans := rfl
@[simp] theorem modLink_doors (p : Fin 8) (k : Fin 2) (f : Link → Link) : (r.modLink p k f).c.doors = r.c.doors := rfl
@[simp] theorem modLink_hall (p : Fin 8) (k : Fin 2) (f : Link → Link) : (r.modLink p k f).c.hall = r.c.hall := rfl
@[simp] theorem modLink_fab (p : Fin 8) (k : Fin 2) (f : Link → Link) : (r.modLink p k f).c.fab = r.c.fab := rfl
@[simp] theorem modLink_time (p : Fin 8) (k : Fin 2) (f : Link → Link) : (r.modLink p k f).c.time = r.c.time := rfl
@[simp] theorem modLink_fbx (p : Fin 8) (k : Fin 2) (f : Link → Link) : (r.modLink p k f).c.fbx = r.c.fbx := rfl
@[simp] theorem modLink_tt (p : Fin 8) (k : Fin 2) (f : Link → Link) : (r.modLink p k f).c.tt = r.c.tt := rfl
@[simp] theorem modLink_mod (p : Fin 8) (k : Fin 2) (f : Link → Link) : (r.modLink p k f).c.mod = r.c.mod := rfl
@[simp] theorem modLink_img (p : Fin 8) (k : Fin 2) (f : Link → Link) : (r.modLink p k f).c.img = r.c.img := rfl
@[simp] theorem modLink_selft (p : Fin 8) (k : Fin 2) (f : Link → Link) : (r.modLink p k f).c.selft = r.c.selft := rfl
@[simp] theorem modLink_fuses (p : Fin 8) (k : Fin 2) (f : Link → Link) : (r.modLink p k f).c.fuses = r.c.fuses := rfl
@[simp] theorem modLink_cells (p : Fin 8) (k : Fin 2) (f : Link → Link) : (r.modLink p k f).c.cells = r.c.cells := rfl
@[simp] theorem modLink_crc (p : Fin 8) (k : Fin 2) (f : Link → Link) : (r.modLink p k f).c.crc = r.c.crc := rfl
@[simp] theorem modLink_lch (p : Fin 8) (k : Fin 2) (f : Link → Link) : (r.modLink p k f).c.lch = r.c.lch := rfl
@[simp] theorem modLink_mgA (p : Fin 8) (k : Fin 2) (f : Link → Link) : (r.modLink p k f).c.mgA = r.c.mgA := rfl
@[simp] theorem modLink_mgB (p : Fin 8) (k : Fin 2) (f : Link → Link) : (r.modLink p k f).c.mgB = r.c.mgB := rfl
@[simp] theorem modLink_clk (p : Fin 8) (k : Fin 2) (f : Link → Link) : (r.modLink p k f).c.clk = r.c.clk := rfl
@[simp] theorem modLink_thm (p : Fin 8) (k : Fin 2) (f : Link → Link) : (r.modLink p k f).c.thm = r.c.thm := rfl
@[simp] theorem modLink_mtr (p : Fin 8) (k : Fin 2) (f : Link → Link) : (r.modLink p k f).c.mtr = r.c.mtr := rfl
@[simp] theorem modLink_stage (p : Fin 8) (k : Fin 2) (f : Link → Link) : (r.modLink p k f).c.stage = r.c.stage := rfl
@[simp] theorem modLink_jtag (p : Fin 8) (k : Fin 2) (f : Link → Link) : (r.modLink p k f).c.jtag = r.c.jtag := rfl
@[simp] theorem modLink_win (p : Fin 8) (k : Fin 2) (f : Link → Link) : (r.modLink p k f).c.win = r.c.win := rfl
@[simp] theorem modLink_rjob (p : Fin 8) (k : Fin 2) (f : Link → Link) : (r.modLink p k f).c.rjob = r.c.rjob := rfl
@[simp] theorem modLink_rebuild (p : Fin 8) (k : Fin 2) (f : Link → Link) : (r.modLink p k f).c.rebuild = r.c.rebuild := rfl
@[simp] theorem modLink_cdrainBusy (p : Fin 8) (k : Fin 2) (f : Link → Link) : (r.modLink p k f).c.cdrainBusy = r.c.cdrainBusy := rfl
@[simp] theorem modLink_pwrGood (p : Fin 8) (k : Fin 2) (f : Link → Link) : (r.modLink p k f).c.pwrGood = r.c.pwrGood := rfl
@[simp] theorem modLink_vaux (p : Fin 8) (k : Fin 2) (f : Link → Link) : (r.modLink p k f).c.vaux = r.c.vaux := rfl
@[simp] theorem modLink_railLow (p : Fin 8) (k : Fin 2) (f : Link → Link) : (r.modLink p k f).c.railLow = r.c.railLow := rfl
@[simp] theorem modLink_winLockArmed (p : Fin 8) (k : Fin 2) (f : Link → Link) : (r.modLink p k f).c.winLockArmed = r.c.winLockArmed := rfl
@[simp] theorem modLink_used (p : Fin 8) (k : Fin 2) (f : Link → Link) : (r.modLink p k f).c.used = r.c.used := rfl
@[simp] theorem modLink_out (p : Fin 8) (k : Fin 2) (f : Link → Link) : (r.modLink p k f).c.out = r.c.out := rfl

/-! ## `setChan` -/

@[simp] theorem setChan_m (c : Fin 16) (x : Chan) : (r.setChan c x).m = r.m := rfl
@[simp] theorem setChan_log (c : Fin 16) (x : Chan) : (r.setChan c x).log = r.log := rfl
@[simp] theorem setChan_now (c : Fin 16) (x : Chan) : (r.setChan c x).c.now = r.c.now := rfl
@[simp] theorem setChan_cc (c : Fin 16) (x : Chan) : (r.setChan c x).c.cc = r.c.cc := rfl
@[simp] theorem setChan_ft (c : Fin 16) (x : Chan) : (r.setChan c x).c.ft = r.c.ft := rfl
@[simp] theorem setChan_ftCore (c : Fin 16) (x : Chan) : (r.setChan c x).c.ftCore = r.c.ftCore := rfl
@[simp] theorem setChan_ftNext (c : Fin 16) (x : Chan) : (r.setChan c x).c.ftNext = r.c.ftNext := rfl
@[simp] theorem setChan_ftHand (c : Fin 16) (x : Chan) : (r.setChan c x).c.ftHand = r.c.ftHand := rfl
@[simp] theorem setChan_wait (c : Fin 16) (x : Chan) : (r.setChan c x).c.wait = r.c.wait := rfl
@[simp] theorem setChan_fly (c : Fin 16) (x : Chan) : (r.setChan c x).c.fly = r.c.fly := rfl
@[simp] theorem setChan_flyNo (c : Fin 16) (x : Chan) : (r.setChan c x).c.flyNo = r.c.flyNo := rfl
@[simp] theorem setChan_lanes (c : Fin 16) (x : Chan) : (r.setChan c x).c.lanes = r.c.lanes := rfl
@[simp] theorem setChan_xings (c : Fin 16) (x : Chan) : (r.setChan c x).c.xings = r.c.xings := rfl
@[simp] theorem setChan_cdrainDone (c : Fin 16) (x : Chan) : (r.setChan c x).c.cdrainDone = r.c.cdrainDone := rfl
@[simp] theorem setChan_csweepBusy (c : Fin 16) (x : Chan) : (r.setChan c x).c.csweepBusy = r.c.csweepBusy := rfl
@[simp] theorem setChan_lapNo (c : Fin 16) (x : Chan) : (r.setChan c x).c.lapNo = r.c.lapNo := rfl
@[simp] theorem setChan_slots (c : Fin 16) (x : Chan) : (r.setChan c x).c.slots = r.c.slots := rfl
@[simp] theorem setChan_free (c : Fin 16) (x : Chan) : (r.setChan c x).c.free = r.c.free := rfl
@[simp] theorem setChan_rooms (c : Fin 16) (x : Chan) : (r.setChan c x).c.rooms = r.c.rooms := rfl
@[simp] theorem setChan_porches (c : Fin 16) (x : Chan) : (r.setChan c x).c.porches = r.c.porches := rfl
@[simp] theorem setChan_chans (c : Fin 16) (x : Chan) : (r.setChan c x).c.chans = r.c.chans.set c.val x c.isLt := rfl
@[simp] theorem setChan_doors (c : Fin 16) (x : Chan) : (r.setChan c x).c.doors = r.c.doors := rfl
@[simp] theorem setChan_hall (c : Fin 16) (x : Chan) : (r.setChan c x).c.hall = r.c.hall := rfl
@[simp] theorem setChan_fab (c : Fin 16) (x : Chan) : (r.setChan c x).c.fab = r.c.fab := rfl
@[simp] theorem setChan_time (c : Fin 16) (x : Chan) : (r.setChan c x).c.time = r.c.time := rfl
@[simp] theorem setChan_fbx (c : Fin 16) (x : Chan) : (r.setChan c x).c.fbx = r.c.fbx := rfl
@[simp] theorem setChan_tt (c : Fin 16) (x : Chan) : (r.setChan c x).c.tt = r.c.tt := rfl
@[simp] theorem setChan_mod (c : Fin 16) (x : Chan) : (r.setChan c x).c.mod = r.c.mod := rfl
@[simp] theorem setChan_img (c : Fin 16) (x : Chan) : (r.setChan c x).c.img = r.c.img := rfl
@[simp] theorem setChan_selft (c : Fin 16) (x : Chan) : (r.setChan c x).c.selft = r.c.selft := rfl
@[simp] theorem setChan_fuses (c : Fin 16) (x : Chan) : (r.setChan c x).c.fuses = r.c.fuses := rfl
@[simp] theorem setChan_cells (c : Fin 16) (x : Chan) : (r.setChan c x).c.cells = r.c.cells := rfl
@[simp] theorem setChan_crc (c : Fin 16) (x : Chan) : (r.setChan c x).c.crc = r.c.crc := rfl
@[simp] theorem setChan_lch (c : Fin 16) (x : Chan) : (r.setChan c x).c.lch = r.c.lch := rfl
@[simp] theorem setChan_mgA (c : Fin 16) (x : Chan) : (r.setChan c x).c.mgA = r.c.mgA := rfl
@[simp] theorem setChan_mgB (c : Fin 16) (x : Chan) : (r.setChan c x).c.mgB = r.c.mgB := rfl
@[simp] theorem setChan_clk (c : Fin 16) (x : Chan) : (r.setChan c x).c.clk = r.c.clk := rfl
@[simp] theorem setChan_thm (c : Fin 16) (x : Chan) : (r.setChan c x).c.thm = r.c.thm := rfl
@[simp] theorem setChan_mtr (c : Fin 16) (x : Chan) : (r.setChan c x).c.mtr = r.c.mtr := rfl
@[simp] theorem setChan_stage (c : Fin 16) (x : Chan) : (r.setChan c x).c.stage = r.c.stage := rfl
@[simp] theorem setChan_jtag (c : Fin 16) (x : Chan) : (r.setChan c x).c.jtag = r.c.jtag := rfl
@[simp] theorem setChan_win (c : Fin 16) (x : Chan) : (r.setChan c x).c.win = r.c.win := rfl
@[simp] theorem setChan_rjob (c : Fin 16) (x : Chan) : (r.setChan c x).c.rjob = r.c.rjob := rfl
@[simp] theorem setChan_rebuild (c : Fin 16) (x : Chan) : (r.setChan c x).c.rebuild = r.c.rebuild := rfl
@[simp] theorem setChan_cdrainBusy (c : Fin 16) (x : Chan) : (r.setChan c x).c.cdrainBusy = r.c.cdrainBusy := rfl
@[simp] theorem setChan_pwrGood (c : Fin 16) (x : Chan) : (r.setChan c x).c.pwrGood = r.c.pwrGood := rfl
@[simp] theorem setChan_vaux (c : Fin 16) (x : Chan) : (r.setChan c x).c.vaux = r.c.vaux := rfl
@[simp] theorem setChan_railLow (c : Fin 16) (x : Chan) : (r.setChan c x).c.railLow = r.c.railLow := rfl
@[simp] theorem setChan_winLockArmed (c : Fin 16) (x : Chan) : (r.setChan c x).c.winLockArmed = r.c.winLockArmed := rfl
@[simp] theorem setChan_used (c : Fin 16) (x : Chan) : (r.setChan c x).c.used = r.c.used := rfl
@[simp] theorem setChan_out (c : Fin 16) (x : Chan) : (r.setChan c x).c.out = r.c.out := rfl

/-! ## `modChan` -/

@[simp] theorem modChan_m (c : Fin 16) (f : Chan → Chan) : (r.modChan c f).m = r.m := rfl
@[simp] theorem modChan_log (c : Fin 16) (f : Chan → Chan) : (r.modChan c f).log = r.log := rfl
@[simp] theorem modChan_now (c : Fin 16) (f : Chan → Chan) : (r.modChan c f).c.now = r.c.now := rfl
@[simp] theorem modChan_cc (c : Fin 16) (f : Chan → Chan) : (r.modChan c f).c.cc = r.c.cc := rfl
@[simp] theorem modChan_ft (c : Fin 16) (f : Chan → Chan) : (r.modChan c f).c.ft = r.c.ft := rfl
@[simp] theorem modChan_ftCore (c : Fin 16) (f : Chan → Chan) : (r.modChan c f).c.ftCore = r.c.ftCore := rfl
@[simp] theorem modChan_ftNext (c : Fin 16) (f : Chan → Chan) : (r.modChan c f).c.ftNext = r.c.ftNext := rfl
@[simp] theorem modChan_ftHand (c : Fin 16) (f : Chan → Chan) : (r.modChan c f).c.ftHand = r.c.ftHand := rfl
@[simp] theorem modChan_wait (c : Fin 16) (f : Chan → Chan) : (r.modChan c f).c.wait = r.c.wait := rfl
@[simp] theorem modChan_fly (c : Fin 16) (f : Chan → Chan) : (r.modChan c f).c.fly = r.c.fly := rfl
@[simp] theorem modChan_flyNo (c : Fin 16) (f : Chan → Chan) : (r.modChan c f).c.flyNo = r.c.flyNo := rfl
@[simp] theorem modChan_lanes (c : Fin 16) (f : Chan → Chan) : (r.modChan c f).c.lanes = r.c.lanes := rfl
@[simp] theorem modChan_xings (c : Fin 16) (f : Chan → Chan) : (r.modChan c f).c.xings = r.c.xings := rfl
@[simp] theorem modChan_cdrainDone (c : Fin 16) (f : Chan → Chan) : (r.modChan c f).c.cdrainDone = r.c.cdrainDone := rfl
@[simp] theorem modChan_csweepBusy (c : Fin 16) (f : Chan → Chan) : (r.modChan c f).c.csweepBusy = r.c.csweepBusy := rfl
@[simp] theorem modChan_lapNo (c : Fin 16) (f : Chan → Chan) : (r.modChan c f).c.lapNo = r.c.lapNo := rfl
@[simp] theorem modChan_slots (c : Fin 16) (f : Chan → Chan) : (r.modChan c f).c.slots = r.c.slots := rfl
@[simp] theorem modChan_free (c : Fin 16) (f : Chan → Chan) : (r.modChan c f).c.free = r.c.free := rfl
@[simp] theorem modChan_rooms (c : Fin 16) (f : Chan → Chan) : (r.modChan c f).c.rooms = r.c.rooms := rfl
@[simp] theorem modChan_porches (c : Fin 16) (f : Chan → Chan) : (r.modChan c f).c.porches = r.c.porches := rfl
@[simp] theorem modChan_chans (c : Fin 16) (f : Chan → Chan) : (r.modChan c f).c.chans = r.c.chans.set c.val (f r.c.chans[c]) c.isLt := rfl
@[simp] theorem modChan_doors (c : Fin 16) (f : Chan → Chan) : (r.modChan c f).c.doors = r.c.doors := rfl
@[simp] theorem modChan_hall (c : Fin 16) (f : Chan → Chan) : (r.modChan c f).c.hall = r.c.hall := rfl
@[simp] theorem modChan_fab (c : Fin 16) (f : Chan → Chan) : (r.modChan c f).c.fab = r.c.fab := rfl
@[simp] theorem modChan_time (c : Fin 16) (f : Chan → Chan) : (r.modChan c f).c.time = r.c.time := rfl
@[simp] theorem modChan_fbx (c : Fin 16) (f : Chan → Chan) : (r.modChan c f).c.fbx = r.c.fbx := rfl
@[simp] theorem modChan_tt (c : Fin 16) (f : Chan → Chan) : (r.modChan c f).c.tt = r.c.tt := rfl
@[simp] theorem modChan_mod (c : Fin 16) (f : Chan → Chan) : (r.modChan c f).c.mod = r.c.mod := rfl
@[simp] theorem modChan_img (c : Fin 16) (f : Chan → Chan) : (r.modChan c f).c.img = r.c.img := rfl
@[simp] theorem modChan_selft (c : Fin 16) (f : Chan → Chan) : (r.modChan c f).c.selft = r.c.selft := rfl
@[simp] theorem modChan_fuses (c : Fin 16) (f : Chan → Chan) : (r.modChan c f).c.fuses = r.c.fuses := rfl
@[simp] theorem modChan_cells (c : Fin 16) (f : Chan → Chan) : (r.modChan c f).c.cells = r.c.cells := rfl
@[simp] theorem modChan_crc (c : Fin 16) (f : Chan → Chan) : (r.modChan c f).c.crc = r.c.crc := rfl
@[simp] theorem modChan_lch (c : Fin 16) (f : Chan → Chan) : (r.modChan c f).c.lch = r.c.lch := rfl
@[simp] theorem modChan_mgA (c : Fin 16) (f : Chan → Chan) : (r.modChan c f).c.mgA = r.c.mgA := rfl
@[simp] theorem modChan_mgB (c : Fin 16) (f : Chan → Chan) : (r.modChan c f).c.mgB = r.c.mgB := rfl
@[simp] theorem modChan_clk (c : Fin 16) (f : Chan → Chan) : (r.modChan c f).c.clk = r.c.clk := rfl
@[simp] theorem modChan_thm (c : Fin 16) (f : Chan → Chan) : (r.modChan c f).c.thm = r.c.thm := rfl
@[simp] theorem modChan_mtr (c : Fin 16) (f : Chan → Chan) : (r.modChan c f).c.mtr = r.c.mtr := rfl
@[simp] theorem modChan_stage (c : Fin 16) (f : Chan → Chan) : (r.modChan c f).c.stage = r.c.stage := rfl
@[simp] theorem modChan_jtag (c : Fin 16) (f : Chan → Chan) : (r.modChan c f).c.jtag = r.c.jtag := rfl
@[simp] theorem modChan_win (c : Fin 16) (f : Chan → Chan) : (r.modChan c f).c.win = r.c.win := rfl
@[simp] theorem modChan_rjob (c : Fin 16) (f : Chan → Chan) : (r.modChan c f).c.rjob = r.c.rjob := rfl
@[simp] theorem modChan_rebuild (c : Fin 16) (f : Chan → Chan) : (r.modChan c f).c.rebuild = r.c.rebuild := rfl
@[simp] theorem modChan_cdrainBusy (c : Fin 16) (f : Chan → Chan) : (r.modChan c f).c.cdrainBusy = r.c.cdrainBusy := rfl
@[simp] theorem modChan_pwrGood (c : Fin 16) (f : Chan → Chan) : (r.modChan c f).c.pwrGood = r.c.pwrGood := rfl
@[simp] theorem modChan_vaux (c : Fin 16) (f : Chan → Chan) : (r.modChan c f).c.vaux = r.c.vaux := rfl
@[simp] theorem modChan_railLow (c : Fin 16) (f : Chan → Chan) : (r.modChan c f).c.railLow = r.c.railLow := rfl
@[simp] theorem modChan_winLockArmed (c : Fin 16) (f : Chan → Chan) : (r.modChan c f).c.winLockArmed = r.c.winLockArmed := rfl
@[simp] theorem modChan_used (c : Fin 16) (f : Chan → Chan) : (r.modChan c f).c.used = r.c.used := rfl
@[simp] theorem modChan_out (c : Fin 16) (f : Chan → Chan) : (r.modChan c f).c.out = r.c.out := rfl

/-! ## `setDoor` -/

@[simp] theorem setDoor_m (d : Fin 8) (x : Door) : (r.setDoor d x).m = r.m := rfl
@[simp] theorem setDoor_log (d : Fin 8) (x : Door) : (r.setDoor d x).log = r.log := rfl
@[simp] theorem setDoor_now (d : Fin 8) (x : Door) : (r.setDoor d x).c.now = r.c.now := rfl
@[simp] theorem setDoor_cc (d : Fin 8) (x : Door) : (r.setDoor d x).c.cc = r.c.cc := rfl
@[simp] theorem setDoor_ft (d : Fin 8) (x : Door) : (r.setDoor d x).c.ft = r.c.ft := rfl
@[simp] theorem setDoor_ftCore (d : Fin 8) (x : Door) : (r.setDoor d x).c.ftCore = r.c.ftCore := rfl
@[simp] theorem setDoor_ftNext (d : Fin 8) (x : Door) : (r.setDoor d x).c.ftNext = r.c.ftNext := rfl
@[simp] theorem setDoor_ftHand (d : Fin 8) (x : Door) : (r.setDoor d x).c.ftHand = r.c.ftHand := rfl
@[simp] theorem setDoor_wait (d : Fin 8) (x : Door) : (r.setDoor d x).c.wait = r.c.wait := rfl
@[simp] theorem setDoor_fly (d : Fin 8) (x : Door) : (r.setDoor d x).c.fly = r.c.fly := rfl
@[simp] theorem setDoor_flyNo (d : Fin 8) (x : Door) : (r.setDoor d x).c.flyNo = r.c.flyNo := rfl
@[simp] theorem setDoor_lanes (d : Fin 8) (x : Door) : (r.setDoor d x).c.lanes = r.c.lanes := rfl
@[simp] theorem setDoor_xings (d : Fin 8) (x : Door) : (r.setDoor d x).c.xings = r.c.xings := rfl
@[simp] theorem setDoor_cdrainDone (d : Fin 8) (x : Door) : (r.setDoor d x).c.cdrainDone = r.c.cdrainDone := rfl
@[simp] theorem setDoor_csweepBusy (d : Fin 8) (x : Door) : (r.setDoor d x).c.csweepBusy = r.c.csweepBusy := rfl
@[simp] theorem setDoor_lapNo (d : Fin 8) (x : Door) : (r.setDoor d x).c.lapNo = r.c.lapNo := rfl
@[simp] theorem setDoor_slots (d : Fin 8) (x : Door) : (r.setDoor d x).c.slots = r.c.slots := rfl
@[simp] theorem setDoor_free (d : Fin 8) (x : Door) : (r.setDoor d x).c.free = r.c.free := rfl
@[simp] theorem setDoor_rooms (d : Fin 8) (x : Door) : (r.setDoor d x).c.rooms = r.c.rooms := rfl
@[simp] theorem setDoor_porches (d : Fin 8) (x : Door) : (r.setDoor d x).c.porches = r.c.porches := rfl
@[simp] theorem setDoor_chans (d : Fin 8) (x : Door) : (r.setDoor d x).c.chans = r.c.chans := rfl
@[simp] theorem setDoor_doors (d : Fin 8) (x : Door) : (r.setDoor d x).c.doors = r.c.doors.set d.val x d.isLt := rfl
@[simp] theorem setDoor_hall (d : Fin 8) (x : Door) : (r.setDoor d x).c.hall = r.c.hall := rfl
@[simp] theorem setDoor_fab (d : Fin 8) (x : Door) : (r.setDoor d x).c.fab = r.c.fab := rfl
@[simp] theorem setDoor_time (d : Fin 8) (x : Door) : (r.setDoor d x).c.time = r.c.time := rfl
@[simp] theorem setDoor_fbx (d : Fin 8) (x : Door) : (r.setDoor d x).c.fbx = r.c.fbx := rfl
@[simp] theorem setDoor_tt (d : Fin 8) (x : Door) : (r.setDoor d x).c.tt = r.c.tt := rfl
@[simp] theorem setDoor_mod (d : Fin 8) (x : Door) : (r.setDoor d x).c.mod = r.c.mod := rfl
@[simp] theorem setDoor_img (d : Fin 8) (x : Door) : (r.setDoor d x).c.img = r.c.img := rfl
@[simp] theorem setDoor_selft (d : Fin 8) (x : Door) : (r.setDoor d x).c.selft = r.c.selft := rfl
@[simp] theorem setDoor_fuses (d : Fin 8) (x : Door) : (r.setDoor d x).c.fuses = r.c.fuses := rfl
@[simp] theorem setDoor_cells (d : Fin 8) (x : Door) : (r.setDoor d x).c.cells = r.c.cells := rfl
@[simp] theorem setDoor_crc (d : Fin 8) (x : Door) : (r.setDoor d x).c.crc = r.c.crc := rfl
@[simp] theorem setDoor_lch (d : Fin 8) (x : Door) : (r.setDoor d x).c.lch = r.c.lch := rfl
@[simp] theorem setDoor_mgA (d : Fin 8) (x : Door) : (r.setDoor d x).c.mgA = r.c.mgA := rfl
@[simp] theorem setDoor_mgB (d : Fin 8) (x : Door) : (r.setDoor d x).c.mgB = r.c.mgB := rfl
@[simp] theorem setDoor_clk (d : Fin 8) (x : Door) : (r.setDoor d x).c.clk = r.c.clk := rfl
@[simp] theorem setDoor_thm (d : Fin 8) (x : Door) : (r.setDoor d x).c.thm = r.c.thm := rfl
@[simp] theorem setDoor_mtr (d : Fin 8) (x : Door) : (r.setDoor d x).c.mtr = r.c.mtr := rfl
@[simp] theorem setDoor_stage (d : Fin 8) (x : Door) : (r.setDoor d x).c.stage = r.c.stage := rfl
@[simp] theorem setDoor_jtag (d : Fin 8) (x : Door) : (r.setDoor d x).c.jtag = r.c.jtag := rfl
@[simp] theorem setDoor_win (d : Fin 8) (x : Door) : (r.setDoor d x).c.win = r.c.win := rfl
@[simp] theorem setDoor_rjob (d : Fin 8) (x : Door) : (r.setDoor d x).c.rjob = r.c.rjob := rfl
@[simp] theorem setDoor_rebuild (d : Fin 8) (x : Door) : (r.setDoor d x).c.rebuild = r.c.rebuild := rfl
@[simp] theorem setDoor_cdrainBusy (d : Fin 8) (x : Door) : (r.setDoor d x).c.cdrainBusy = r.c.cdrainBusy := rfl
@[simp] theorem setDoor_pwrGood (d : Fin 8) (x : Door) : (r.setDoor d x).c.pwrGood = r.c.pwrGood := rfl
@[simp] theorem setDoor_vaux (d : Fin 8) (x : Door) : (r.setDoor d x).c.vaux = r.c.vaux := rfl
@[simp] theorem setDoor_railLow (d : Fin 8) (x : Door) : (r.setDoor d x).c.railLow = r.c.railLow := rfl
@[simp] theorem setDoor_winLockArmed (d : Fin 8) (x : Door) : (r.setDoor d x).c.winLockArmed = r.c.winLockArmed := rfl
@[simp] theorem setDoor_used (d : Fin 8) (x : Door) : (r.setDoor d x).c.used = r.c.used := rfl
@[simp] theorem setDoor_out (d : Fin 8) (x : Door) : (r.setDoor d x).c.out = r.c.out := rfl

/-! ## `modDoor` -/

@[simp] theorem modDoor_m (d : Fin 8) (f : Door → Door) : (r.modDoor d f).m = r.m := rfl
@[simp] theorem modDoor_log (d : Fin 8) (f : Door → Door) : (r.modDoor d f).log = r.log := rfl
@[simp] theorem modDoor_now (d : Fin 8) (f : Door → Door) : (r.modDoor d f).c.now = r.c.now := rfl
@[simp] theorem modDoor_cc (d : Fin 8) (f : Door → Door) : (r.modDoor d f).c.cc = r.c.cc := rfl
@[simp] theorem modDoor_ft (d : Fin 8) (f : Door → Door) : (r.modDoor d f).c.ft = r.c.ft := rfl
@[simp] theorem modDoor_ftCore (d : Fin 8) (f : Door → Door) : (r.modDoor d f).c.ftCore = r.c.ftCore := rfl
@[simp] theorem modDoor_ftNext (d : Fin 8) (f : Door → Door) : (r.modDoor d f).c.ftNext = r.c.ftNext := rfl
@[simp] theorem modDoor_ftHand (d : Fin 8) (f : Door → Door) : (r.modDoor d f).c.ftHand = r.c.ftHand := rfl
@[simp] theorem modDoor_wait (d : Fin 8) (f : Door → Door) : (r.modDoor d f).c.wait = r.c.wait := rfl
@[simp] theorem modDoor_fly (d : Fin 8) (f : Door → Door) : (r.modDoor d f).c.fly = r.c.fly := rfl
@[simp] theorem modDoor_flyNo (d : Fin 8) (f : Door → Door) : (r.modDoor d f).c.flyNo = r.c.flyNo := rfl
@[simp] theorem modDoor_lanes (d : Fin 8) (f : Door → Door) : (r.modDoor d f).c.lanes = r.c.lanes := rfl
@[simp] theorem modDoor_xings (d : Fin 8) (f : Door → Door) : (r.modDoor d f).c.xings = r.c.xings := rfl
@[simp] theorem modDoor_cdrainDone (d : Fin 8) (f : Door → Door) : (r.modDoor d f).c.cdrainDone = r.c.cdrainDone := rfl
@[simp] theorem modDoor_csweepBusy (d : Fin 8) (f : Door → Door) : (r.modDoor d f).c.csweepBusy = r.c.csweepBusy := rfl
@[simp] theorem modDoor_lapNo (d : Fin 8) (f : Door → Door) : (r.modDoor d f).c.lapNo = r.c.lapNo := rfl
@[simp] theorem modDoor_slots (d : Fin 8) (f : Door → Door) : (r.modDoor d f).c.slots = r.c.slots := rfl
@[simp] theorem modDoor_free (d : Fin 8) (f : Door → Door) : (r.modDoor d f).c.free = r.c.free := rfl
@[simp] theorem modDoor_rooms (d : Fin 8) (f : Door → Door) : (r.modDoor d f).c.rooms = r.c.rooms := rfl
@[simp] theorem modDoor_porches (d : Fin 8) (f : Door → Door) : (r.modDoor d f).c.porches = r.c.porches := rfl
@[simp] theorem modDoor_chans (d : Fin 8) (f : Door → Door) : (r.modDoor d f).c.chans = r.c.chans := rfl
@[simp] theorem modDoor_doors (d : Fin 8) (f : Door → Door) : (r.modDoor d f).c.doors = r.c.doors.set d.val (f r.c.doors[d]) d.isLt := rfl
@[simp] theorem modDoor_hall (d : Fin 8) (f : Door → Door) : (r.modDoor d f).c.hall = r.c.hall := rfl
@[simp] theorem modDoor_fab (d : Fin 8) (f : Door → Door) : (r.modDoor d f).c.fab = r.c.fab := rfl
@[simp] theorem modDoor_time (d : Fin 8) (f : Door → Door) : (r.modDoor d f).c.time = r.c.time := rfl
@[simp] theorem modDoor_fbx (d : Fin 8) (f : Door → Door) : (r.modDoor d f).c.fbx = r.c.fbx := rfl
@[simp] theorem modDoor_tt (d : Fin 8) (f : Door → Door) : (r.modDoor d f).c.tt = r.c.tt := rfl
@[simp] theorem modDoor_mod (d : Fin 8) (f : Door → Door) : (r.modDoor d f).c.mod = r.c.mod := rfl
@[simp] theorem modDoor_img (d : Fin 8) (f : Door → Door) : (r.modDoor d f).c.img = r.c.img := rfl
@[simp] theorem modDoor_selft (d : Fin 8) (f : Door → Door) : (r.modDoor d f).c.selft = r.c.selft := rfl
@[simp] theorem modDoor_fuses (d : Fin 8) (f : Door → Door) : (r.modDoor d f).c.fuses = r.c.fuses := rfl
@[simp] theorem modDoor_cells (d : Fin 8) (f : Door → Door) : (r.modDoor d f).c.cells = r.c.cells := rfl
@[simp] theorem modDoor_crc (d : Fin 8) (f : Door → Door) : (r.modDoor d f).c.crc = r.c.crc := rfl
@[simp] theorem modDoor_lch (d : Fin 8) (f : Door → Door) : (r.modDoor d f).c.lch = r.c.lch := rfl
@[simp] theorem modDoor_mgA (d : Fin 8) (f : Door → Door) : (r.modDoor d f).c.mgA = r.c.mgA := rfl
@[simp] theorem modDoor_mgB (d : Fin 8) (f : Door → Door) : (r.modDoor d f).c.mgB = r.c.mgB := rfl
@[simp] theorem modDoor_clk (d : Fin 8) (f : Door → Door) : (r.modDoor d f).c.clk = r.c.clk := rfl
@[simp] theorem modDoor_thm (d : Fin 8) (f : Door → Door) : (r.modDoor d f).c.thm = r.c.thm := rfl
@[simp] theorem modDoor_mtr (d : Fin 8) (f : Door → Door) : (r.modDoor d f).c.mtr = r.c.mtr := rfl
@[simp] theorem modDoor_stage (d : Fin 8) (f : Door → Door) : (r.modDoor d f).c.stage = r.c.stage := rfl
@[simp] theorem modDoor_jtag (d : Fin 8) (f : Door → Door) : (r.modDoor d f).c.jtag = r.c.jtag := rfl
@[simp] theorem modDoor_win (d : Fin 8) (f : Door → Door) : (r.modDoor d f).c.win = r.c.win := rfl
@[simp] theorem modDoor_rjob (d : Fin 8) (f : Door → Door) : (r.modDoor d f).c.rjob = r.c.rjob := rfl
@[simp] theorem modDoor_rebuild (d : Fin 8) (f : Door → Door) : (r.modDoor d f).c.rebuild = r.c.rebuild := rfl
@[simp] theorem modDoor_cdrainBusy (d : Fin 8) (f : Door → Door) : (r.modDoor d f).c.cdrainBusy = r.c.cdrainBusy := rfl
@[simp] theorem modDoor_pwrGood (d : Fin 8) (f : Door → Door) : (r.modDoor d f).c.pwrGood = r.c.pwrGood := rfl
@[simp] theorem modDoor_vaux (d : Fin 8) (f : Door → Door) : (r.modDoor d f).c.vaux = r.c.vaux := rfl
@[simp] theorem modDoor_railLow (d : Fin 8) (f : Door → Door) : (r.modDoor d f).c.railLow = r.c.railLow := rfl
@[simp] theorem modDoor_winLockArmed (d : Fin 8) (f : Door → Door) : (r.modDoor d f).c.winLockArmed = r.c.winLockArmed := rfl
@[simp] theorem modDoor_used (d : Fin 8) (f : Door → Door) : (r.modDoor d f).c.used = r.c.used := rfl
@[simp] theorem modDoor_out (d : Fin 8) (f : Door → Door) : (r.modDoor d f).c.out = r.c.out := rfl

/-! ## `modFab` -/

@[simp] theorem modFab_m (f : Fabric → Fabric) : (r.modFab f).m = r.m := rfl
@[simp] theorem modFab_log (f : Fabric → Fabric) : (r.modFab f).log = r.log := rfl
@[simp] theorem modFab_now (f : Fabric → Fabric) : (r.modFab f).c.now = r.c.now := rfl
@[simp] theorem modFab_cc (f : Fabric → Fabric) : (r.modFab f).c.cc = r.c.cc := rfl
@[simp] theorem modFab_ft (f : Fabric → Fabric) : (r.modFab f).c.ft = r.c.ft := rfl
@[simp] theorem modFab_ftCore (f : Fabric → Fabric) : (r.modFab f).c.ftCore = r.c.ftCore := rfl
@[simp] theorem modFab_ftNext (f : Fabric → Fabric) : (r.modFab f).c.ftNext = r.c.ftNext := rfl
@[simp] theorem modFab_ftHand (f : Fabric → Fabric) : (r.modFab f).c.ftHand = r.c.ftHand := rfl
@[simp] theorem modFab_wait (f : Fabric → Fabric) : (r.modFab f).c.wait = r.c.wait := rfl
@[simp] theorem modFab_fly (f : Fabric → Fabric) : (r.modFab f).c.fly = r.c.fly := rfl
@[simp] theorem modFab_flyNo (f : Fabric → Fabric) : (r.modFab f).c.flyNo = r.c.flyNo := rfl
@[simp] theorem modFab_lanes (f : Fabric → Fabric) : (r.modFab f).c.lanes = r.c.lanes := rfl
@[simp] theorem modFab_xings (f : Fabric → Fabric) : (r.modFab f).c.xings = r.c.xings := rfl
@[simp] theorem modFab_cdrainDone (f : Fabric → Fabric) : (r.modFab f).c.cdrainDone = r.c.cdrainDone := rfl
@[simp] theorem modFab_csweepBusy (f : Fabric → Fabric) : (r.modFab f).c.csweepBusy = r.c.csweepBusy := rfl
@[simp] theorem modFab_lapNo (f : Fabric → Fabric) : (r.modFab f).c.lapNo = r.c.lapNo := rfl
@[simp] theorem modFab_slots (f : Fabric → Fabric) : (r.modFab f).c.slots = r.c.slots := rfl
@[simp] theorem modFab_free (f : Fabric → Fabric) : (r.modFab f).c.free = r.c.free := rfl
@[simp] theorem modFab_rooms (f : Fabric → Fabric) : (r.modFab f).c.rooms = r.c.rooms := rfl
@[simp] theorem modFab_porches (f : Fabric → Fabric) : (r.modFab f).c.porches = r.c.porches := rfl
@[simp] theorem modFab_chans (f : Fabric → Fabric) : (r.modFab f).c.chans = r.c.chans := rfl
@[simp] theorem modFab_doors (f : Fabric → Fabric) : (r.modFab f).c.doors = r.c.doors := rfl
@[simp] theorem modFab_hall (f : Fabric → Fabric) : (r.modFab f).c.hall = r.c.hall := rfl
@[simp] theorem modFab_fab (f : Fabric → Fabric) : (r.modFab f).c.fab = f r.c.fab := rfl
@[simp] theorem modFab_time (f : Fabric → Fabric) : (r.modFab f).c.time = r.c.time := rfl
@[simp] theorem modFab_fbx (f : Fabric → Fabric) : (r.modFab f).c.fbx = r.c.fbx := rfl
@[simp] theorem modFab_tt (f : Fabric → Fabric) : (r.modFab f).c.tt = r.c.tt := rfl
@[simp] theorem modFab_mod (f : Fabric → Fabric) : (r.modFab f).c.mod = r.c.mod := rfl
@[simp] theorem modFab_img (f : Fabric → Fabric) : (r.modFab f).c.img = r.c.img := rfl
@[simp] theorem modFab_selft (f : Fabric → Fabric) : (r.modFab f).c.selft = r.c.selft := rfl
@[simp] theorem modFab_fuses (f : Fabric → Fabric) : (r.modFab f).c.fuses = r.c.fuses := rfl
@[simp] theorem modFab_cells (f : Fabric → Fabric) : (r.modFab f).c.cells = r.c.cells := rfl
@[simp] theorem modFab_crc (f : Fabric → Fabric) : (r.modFab f).c.crc = r.c.crc := rfl
@[simp] theorem modFab_lch (f : Fabric → Fabric) : (r.modFab f).c.lch = r.c.lch := rfl
@[simp] theorem modFab_mgA (f : Fabric → Fabric) : (r.modFab f).c.mgA = r.c.mgA := rfl
@[simp] theorem modFab_mgB (f : Fabric → Fabric) : (r.modFab f).c.mgB = r.c.mgB := rfl
@[simp] theorem modFab_clk (f : Fabric → Fabric) : (r.modFab f).c.clk = r.c.clk := rfl
@[simp] theorem modFab_thm (f : Fabric → Fabric) : (r.modFab f).c.thm = r.c.thm := rfl
@[simp] theorem modFab_mtr (f : Fabric → Fabric) : (r.modFab f).c.mtr = r.c.mtr := rfl
@[simp] theorem modFab_stage (f : Fabric → Fabric) : (r.modFab f).c.stage = r.c.stage := rfl
@[simp] theorem modFab_jtag (f : Fabric → Fabric) : (r.modFab f).c.jtag = r.c.jtag := rfl
@[simp] theorem modFab_win (f : Fabric → Fabric) : (r.modFab f).c.win = r.c.win := rfl
@[simp] theorem modFab_rjob (f : Fabric → Fabric) : (r.modFab f).c.rjob = r.c.rjob := rfl
@[simp] theorem modFab_rebuild (f : Fabric → Fabric) : (r.modFab f).c.rebuild = r.c.rebuild := rfl
@[simp] theorem modFab_cdrainBusy (f : Fabric → Fabric) : (r.modFab f).c.cdrainBusy = r.c.cdrainBusy := rfl
@[simp] theorem modFab_pwrGood (f : Fabric → Fabric) : (r.modFab f).c.pwrGood = r.c.pwrGood := rfl
@[simp] theorem modFab_vaux (f : Fabric → Fabric) : (r.modFab f).c.vaux = r.c.vaux := rfl
@[simp] theorem modFab_railLow (f : Fabric → Fabric) : (r.modFab f).c.railLow = r.c.railLow := rfl
@[simp] theorem modFab_winLockArmed (f : Fabric → Fabric) : (r.modFab f).c.winLockArmed = r.c.winLockArmed := rfl
@[simp] theorem modFab_used (f : Fabric → Fabric) : (r.modFab f).c.used = r.c.used := rfl
@[simp] theorem modFab_out (f : Fabric → Fabric) : (r.modFab f).c.out = r.c.out := rfl

/-! ## `modFbx` -/

@[simp] theorem modFbx_m (f : Fbx → Fbx) : (r.modFbx f).m = r.m := rfl
@[simp] theorem modFbx_log (f : Fbx → Fbx) : (r.modFbx f).log = r.log := rfl
@[simp] theorem modFbx_now (f : Fbx → Fbx) : (r.modFbx f).c.now = r.c.now := rfl
@[simp] theorem modFbx_cc (f : Fbx → Fbx) : (r.modFbx f).c.cc = r.c.cc := rfl
@[simp] theorem modFbx_ft (f : Fbx → Fbx) : (r.modFbx f).c.ft = r.c.ft := rfl
@[simp] theorem modFbx_ftCore (f : Fbx → Fbx) : (r.modFbx f).c.ftCore = r.c.ftCore := rfl
@[simp] theorem modFbx_ftNext (f : Fbx → Fbx) : (r.modFbx f).c.ftNext = r.c.ftNext := rfl
@[simp] theorem modFbx_ftHand (f : Fbx → Fbx) : (r.modFbx f).c.ftHand = r.c.ftHand := rfl
@[simp] theorem modFbx_wait (f : Fbx → Fbx) : (r.modFbx f).c.wait = r.c.wait := rfl
@[simp] theorem modFbx_fly (f : Fbx → Fbx) : (r.modFbx f).c.fly = r.c.fly := rfl
@[simp] theorem modFbx_flyNo (f : Fbx → Fbx) : (r.modFbx f).c.flyNo = r.c.flyNo := rfl
@[simp] theorem modFbx_lanes (f : Fbx → Fbx) : (r.modFbx f).c.lanes = r.c.lanes := rfl
@[simp] theorem modFbx_xings (f : Fbx → Fbx) : (r.modFbx f).c.xings = r.c.xings := rfl
@[simp] theorem modFbx_cdrainDone (f : Fbx → Fbx) : (r.modFbx f).c.cdrainDone = r.c.cdrainDone := rfl
@[simp] theorem modFbx_csweepBusy (f : Fbx → Fbx) : (r.modFbx f).c.csweepBusy = r.c.csweepBusy := rfl
@[simp] theorem modFbx_lapNo (f : Fbx → Fbx) : (r.modFbx f).c.lapNo = r.c.lapNo := rfl
@[simp] theorem modFbx_slots (f : Fbx → Fbx) : (r.modFbx f).c.slots = r.c.slots := rfl
@[simp] theorem modFbx_free (f : Fbx → Fbx) : (r.modFbx f).c.free = r.c.free := rfl
@[simp] theorem modFbx_rooms (f : Fbx → Fbx) : (r.modFbx f).c.rooms = r.c.rooms := rfl
@[simp] theorem modFbx_porches (f : Fbx → Fbx) : (r.modFbx f).c.porches = r.c.porches := rfl
@[simp] theorem modFbx_chans (f : Fbx → Fbx) : (r.modFbx f).c.chans = r.c.chans := rfl
@[simp] theorem modFbx_doors (f : Fbx → Fbx) : (r.modFbx f).c.doors = r.c.doors := rfl
@[simp] theorem modFbx_hall (f : Fbx → Fbx) : (r.modFbx f).c.hall = r.c.hall := rfl
@[simp] theorem modFbx_fab (f : Fbx → Fbx) : (r.modFbx f).c.fab = r.c.fab := rfl
@[simp] theorem modFbx_time (f : Fbx → Fbx) : (r.modFbx f).c.time = r.c.time := rfl
@[simp] theorem modFbx_fbx (f : Fbx → Fbx) : (r.modFbx f).c.fbx = f r.c.fbx := rfl
@[simp] theorem modFbx_tt (f : Fbx → Fbx) : (r.modFbx f).c.tt = r.c.tt := rfl
@[simp] theorem modFbx_mod (f : Fbx → Fbx) : (r.modFbx f).c.mod = r.c.mod := rfl
@[simp] theorem modFbx_img (f : Fbx → Fbx) : (r.modFbx f).c.img = r.c.img := rfl
@[simp] theorem modFbx_selft (f : Fbx → Fbx) : (r.modFbx f).c.selft = r.c.selft := rfl
@[simp] theorem modFbx_fuses (f : Fbx → Fbx) : (r.modFbx f).c.fuses = r.c.fuses := rfl
@[simp] theorem modFbx_cells (f : Fbx → Fbx) : (r.modFbx f).c.cells = r.c.cells := rfl
@[simp] theorem modFbx_crc (f : Fbx → Fbx) : (r.modFbx f).c.crc = r.c.crc := rfl
@[simp] theorem modFbx_lch (f : Fbx → Fbx) : (r.modFbx f).c.lch = r.c.lch := rfl
@[simp] theorem modFbx_mgA (f : Fbx → Fbx) : (r.modFbx f).c.mgA = r.c.mgA := rfl
@[simp] theorem modFbx_mgB (f : Fbx → Fbx) : (r.modFbx f).c.mgB = r.c.mgB := rfl
@[simp] theorem modFbx_clk (f : Fbx → Fbx) : (r.modFbx f).c.clk = r.c.clk := rfl
@[simp] theorem modFbx_thm (f : Fbx → Fbx) : (r.modFbx f).c.thm = r.c.thm := rfl
@[simp] theorem modFbx_mtr (f : Fbx → Fbx) : (r.modFbx f).c.mtr = r.c.mtr := rfl
@[simp] theorem modFbx_stage (f : Fbx → Fbx) : (r.modFbx f).c.stage = r.c.stage := rfl
@[simp] theorem modFbx_jtag (f : Fbx → Fbx) : (r.modFbx f).c.jtag = r.c.jtag := rfl
@[simp] theorem modFbx_win (f : Fbx → Fbx) : (r.modFbx f).c.win = r.c.win := rfl
@[simp] theorem modFbx_rjob (f : Fbx → Fbx) : (r.modFbx f).c.rjob = r.c.rjob := rfl
@[simp] theorem modFbx_rebuild (f : Fbx → Fbx) : (r.modFbx f).c.rebuild = r.c.rebuild := rfl
@[simp] theorem modFbx_cdrainBusy (f : Fbx → Fbx) : (r.modFbx f).c.cdrainBusy = r.c.cdrainBusy := rfl
@[simp] theorem modFbx_pwrGood (f : Fbx → Fbx) : (r.modFbx f).c.pwrGood = r.c.pwrGood := rfl
@[simp] theorem modFbx_vaux (f : Fbx → Fbx) : (r.modFbx f).c.vaux = r.c.vaux := rfl
@[simp] theorem modFbx_railLow (f : Fbx → Fbx) : (r.modFbx f).c.railLow = r.c.railLow := rfl
@[simp] theorem modFbx_winLockArmed (f : Fbx → Fbx) : (r.modFbx f).c.winLockArmed = r.c.winLockArmed := rfl
@[simp] theorem modFbx_used (f : Fbx → Fbx) : (r.modFbx f).c.used = r.c.used := rfl
@[simp] theorem modFbx_out (f : Fbx → Fbx) : (r.modFbx f).c.out = r.c.out := rfl

/-! ## `modTt` -/

@[simp] theorem modTt_m (f : Tt → Tt) : (r.modTt f).m = r.m := rfl
@[simp] theorem modTt_log (f : Tt → Tt) : (r.modTt f).log = r.log := rfl
@[simp] theorem modTt_now (f : Tt → Tt) : (r.modTt f).c.now = r.c.now := rfl
@[simp] theorem modTt_cc (f : Tt → Tt) : (r.modTt f).c.cc = r.c.cc := rfl
@[simp] theorem modTt_ft (f : Tt → Tt) : (r.modTt f).c.ft = r.c.ft := rfl
@[simp] theorem modTt_ftCore (f : Tt → Tt) : (r.modTt f).c.ftCore = r.c.ftCore := rfl
@[simp] theorem modTt_ftNext (f : Tt → Tt) : (r.modTt f).c.ftNext = r.c.ftNext := rfl
@[simp] theorem modTt_ftHand (f : Tt → Tt) : (r.modTt f).c.ftHand = r.c.ftHand := rfl
@[simp] theorem modTt_wait (f : Tt → Tt) : (r.modTt f).c.wait = r.c.wait := rfl
@[simp] theorem modTt_fly (f : Tt → Tt) : (r.modTt f).c.fly = r.c.fly := rfl
@[simp] theorem modTt_flyNo (f : Tt → Tt) : (r.modTt f).c.flyNo = r.c.flyNo := rfl
@[simp] theorem modTt_lanes (f : Tt → Tt) : (r.modTt f).c.lanes = r.c.lanes := rfl
@[simp] theorem modTt_xings (f : Tt → Tt) : (r.modTt f).c.xings = r.c.xings := rfl
@[simp] theorem modTt_cdrainDone (f : Tt → Tt) : (r.modTt f).c.cdrainDone = r.c.cdrainDone := rfl
@[simp] theorem modTt_csweepBusy (f : Tt → Tt) : (r.modTt f).c.csweepBusy = r.c.csweepBusy := rfl
@[simp] theorem modTt_lapNo (f : Tt → Tt) : (r.modTt f).c.lapNo = r.c.lapNo := rfl
@[simp] theorem modTt_slots (f : Tt → Tt) : (r.modTt f).c.slots = r.c.slots := rfl
@[simp] theorem modTt_free (f : Tt → Tt) : (r.modTt f).c.free = r.c.free := rfl
@[simp] theorem modTt_rooms (f : Tt → Tt) : (r.modTt f).c.rooms = r.c.rooms := rfl
@[simp] theorem modTt_porches (f : Tt → Tt) : (r.modTt f).c.porches = r.c.porches := rfl
@[simp] theorem modTt_chans (f : Tt → Tt) : (r.modTt f).c.chans = r.c.chans := rfl
@[simp] theorem modTt_doors (f : Tt → Tt) : (r.modTt f).c.doors = r.c.doors := rfl
@[simp] theorem modTt_hall (f : Tt → Tt) : (r.modTt f).c.hall = r.c.hall := rfl
@[simp] theorem modTt_fab (f : Tt → Tt) : (r.modTt f).c.fab = r.c.fab := rfl
@[simp] theorem modTt_time (f : Tt → Tt) : (r.modTt f).c.time = r.c.time := rfl
@[simp] theorem modTt_fbx (f : Tt → Tt) : (r.modTt f).c.fbx = r.c.fbx := rfl
@[simp] theorem modTt_tt (f : Tt → Tt) : (r.modTt f).c.tt = f r.c.tt := rfl
@[simp] theorem modTt_mod (f : Tt → Tt) : (r.modTt f).c.mod = r.c.mod := rfl
@[simp] theorem modTt_img (f : Tt → Tt) : (r.modTt f).c.img = r.c.img := rfl
@[simp] theorem modTt_selft (f : Tt → Tt) : (r.modTt f).c.selft = r.c.selft := rfl
@[simp] theorem modTt_fuses (f : Tt → Tt) : (r.modTt f).c.fuses = r.c.fuses := rfl
@[simp] theorem modTt_cells (f : Tt → Tt) : (r.modTt f).c.cells = r.c.cells := rfl
@[simp] theorem modTt_crc (f : Tt → Tt) : (r.modTt f).c.crc = r.c.crc := rfl
@[simp] theorem modTt_lch (f : Tt → Tt) : (r.modTt f).c.lch = r.c.lch := rfl
@[simp] theorem modTt_mgA (f : Tt → Tt) : (r.modTt f).c.mgA = r.c.mgA := rfl
@[simp] theorem modTt_mgB (f : Tt → Tt) : (r.modTt f).c.mgB = r.c.mgB := rfl
@[simp] theorem modTt_clk (f : Tt → Tt) : (r.modTt f).c.clk = r.c.clk := rfl
@[simp] theorem modTt_thm (f : Tt → Tt) : (r.modTt f).c.thm = r.c.thm := rfl
@[simp] theorem modTt_mtr (f : Tt → Tt) : (r.modTt f).c.mtr = r.c.mtr := rfl
@[simp] theorem modTt_stage (f : Tt → Tt) : (r.modTt f).c.stage = r.c.stage := rfl
@[simp] theorem modTt_jtag (f : Tt → Tt) : (r.modTt f).c.jtag = r.c.jtag := rfl
@[simp] theorem modTt_win (f : Tt → Tt) : (r.modTt f).c.win = r.c.win := rfl
@[simp] theorem modTt_rjob (f : Tt → Tt) : (r.modTt f).c.rjob = r.c.rjob := rfl
@[simp] theorem modTt_rebuild (f : Tt → Tt) : (r.modTt f).c.rebuild = r.c.rebuild := rfl
@[simp] theorem modTt_cdrainBusy (f : Tt → Tt) : (r.modTt f).c.cdrainBusy = r.c.cdrainBusy := rfl
@[simp] theorem modTt_pwrGood (f : Tt → Tt) : (r.modTt f).c.pwrGood = r.c.pwrGood := rfl
@[simp] theorem modTt_vaux (f : Tt → Tt) : (r.modTt f).c.vaux = r.c.vaux := rfl
@[simp] theorem modTt_railLow (f : Tt → Tt) : (r.modTt f).c.railLow = r.c.railLow := rfl
@[simp] theorem modTt_winLockArmed (f : Tt → Tt) : (r.modTt f).c.winLockArmed = r.c.winLockArmed := rfl
@[simp] theorem modTt_used (f : Tt → Tt) : (r.modTt f).c.used = r.c.used := rfl
@[simp] theorem modTt_out (f : Tt → Tt) : (r.modTt f).c.out = r.c.out := rfl

/-! ## `modMod` -/

@[simp] theorem modMod_m (f : Mod → Mod) : (r.modMod f).m = r.m := rfl
@[simp] theorem modMod_log (f : Mod → Mod) : (r.modMod f).log = r.log := rfl
@[simp] theorem modMod_now (f : Mod → Mod) : (r.modMod f).c.now = r.c.now := rfl
@[simp] theorem modMod_cc (f : Mod → Mod) : (r.modMod f).c.cc = r.c.cc := rfl
@[simp] theorem modMod_ft (f : Mod → Mod) : (r.modMod f).c.ft = r.c.ft := rfl
@[simp] theorem modMod_ftCore (f : Mod → Mod) : (r.modMod f).c.ftCore = r.c.ftCore := rfl
@[simp] theorem modMod_ftNext (f : Mod → Mod) : (r.modMod f).c.ftNext = r.c.ftNext := rfl
@[simp] theorem modMod_ftHand (f : Mod → Mod) : (r.modMod f).c.ftHand = r.c.ftHand := rfl
@[simp] theorem modMod_wait (f : Mod → Mod) : (r.modMod f).c.wait = r.c.wait := rfl
@[simp] theorem modMod_fly (f : Mod → Mod) : (r.modMod f).c.fly = r.c.fly := rfl
@[simp] theorem modMod_flyNo (f : Mod → Mod) : (r.modMod f).c.flyNo = r.c.flyNo := rfl
@[simp] theorem modMod_lanes (f : Mod → Mod) : (r.modMod f).c.lanes = r.c.lanes := rfl
@[simp] theorem modMod_xings (f : Mod → Mod) : (r.modMod f).c.xings = r.c.xings := rfl
@[simp] theorem modMod_cdrainDone (f : Mod → Mod) : (r.modMod f).c.cdrainDone = r.c.cdrainDone := rfl
@[simp] theorem modMod_csweepBusy (f : Mod → Mod) : (r.modMod f).c.csweepBusy = r.c.csweepBusy := rfl
@[simp] theorem modMod_lapNo (f : Mod → Mod) : (r.modMod f).c.lapNo = r.c.lapNo := rfl
@[simp] theorem modMod_slots (f : Mod → Mod) : (r.modMod f).c.slots = r.c.slots := rfl
@[simp] theorem modMod_free (f : Mod → Mod) : (r.modMod f).c.free = r.c.free := rfl
@[simp] theorem modMod_rooms (f : Mod → Mod) : (r.modMod f).c.rooms = r.c.rooms := rfl
@[simp] theorem modMod_porches (f : Mod → Mod) : (r.modMod f).c.porches = r.c.porches := rfl
@[simp] theorem modMod_chans (f : Mod → Mod) : (r.modMod f).c.chans = r.c.chans := rfl
@[simp] theorem modMod_doors (f : Mod → Mod) : (r.modMod f).c.doors = r.c.doors := rfl
@[simp] theorem modMod_hall (f : Mod → Mod) : (r.modMod f).c.hall = r.c.hall := rfl
@[simp] theorem modMod_fab (f : Mod → Mod) : (r.modMod f).c.fab = r.c.fab := rfl
@[simp] theorem modMod_time (f : Mod → Mod) : (r.modMod f).c.time = r.c.time := rfl
@[simp] theorem modMod_fbx (f : Mod → Mod) : (r.modMod f).c.fbx = r.c.fbx := rfl
@[simp] theorem modMod_tt (f : Mod → Mod) : (r.modMod f).c.tt = r.c.tt := rfl
@[simp] theorem modMod_mod (f : Mod → Mod) : (r.modMod f).c.mod = f r.c.mod := rfl
@[simp] theorem modMod_img (f : Mod → Mod) : (r.modMod f).c.img = r.c.img := rfl
@[simp] theorem modMod_selft (f : Mod → Mod) : (r.modMod f).c.selft = r.c.selft := rfl
@[simp] theorem modMod_fuses (f : Mod → Mod) : (r.modMod f).c.fuses = r.c.fuses := rfl
@[simp] theorem modMod_cells (f : Mod → Mod) : (r.modMod f).c.cells = r.c.cells := rfl
@[simp] theorem modMod_crc (f : Mod → Mod) : (r.modMod f).c.crc = r.c.crc := rfl
@[simp] theorem modMod_lch (f : Mod → Mod) : (r.modMod f).c.lch = r.c.lch := rfl
@[simp] theorem modMod_mgA (f : Mod → Mod) : (r.modMod f).c.mgA = r.c.mgA := rfl
@[simp] theorem modMod_mgB (f : Mod → Mod) : (r.modMod f).c.mgB = r.c.mgB := rfl
@[simp] theorem modMod_clk (f : Mod → Mod) : (r.modMod f).c.clk = r.c.clk := rfl
@[simp] theorem modMod_thm (f : Mod → Mod) : (r.modMod f).c.thm = r.c.thm := rfl
@[simp] theorem modMod_mtr (f : Mod → Mod) : (r.modMod f).c.mtr = r.c.mtr := rfl
@[simp] theorem modMod_stage (f : Mod → Mod) : (r.modMod f).c.stage = r.c.stage := rfl
@[simp] theorem modMod_jtag (f : Mod → Mod) : (r.modMod f).c.jtag = r.c.jtag := rfl
@[simp] theorem modMod_win (f : Mod → Mod) : (r.modMod f).c.win = r.c.win := rfl
@[simp] theorem modMod_rjob (f : Mod → Mod) : (r.modMod f).c.rjob = r.c.rjob := rfl
@[simp] theorem modMod_rebuild (f : Mod → Mod) : (r.modMod f).c.rebuild = r.c.rebuild := rfl
@[simp] theorem modMod_cdrainBusy (f : Mod → Mod) : (r.modMod f).c.cdrainBusy = r.c.cdrainBusy := rfl
@[simp] theorem modMod_pwrGood (f : Mod → Mod) : (r.modMod f).c.pwrGood = r.c.pwrGood := rfl
@[simp] theorem modMod_vaux (f : Mod → Mod) : (r.modMod f).c.vaux = r.c.vaux := rfl
@[simp] theorem modMod_railLow (f : Mod → Mod) : (r.modMod f).c.railLow = r.c.railLow := rfl
@[simp] theorem modMod_winLockArmed (f : Mod → Mod) : (r.modMod f).c.winLockArmed = r.c.winLockArmed := rfl
@[simp] theorem modMod_used (f : Mod → Mod) : (r.modMod f).c.used = r.c.used := rfl
@[simp] theorem modMod_out (f : Mod → Mod) : (r.modMod f).c.out = r.c.out := rfl

/-! ## `modImg` -/

@[simp] theorem modImg_m (f : Img → Img) : (r.modImg f).m = r.m := rfl
@[simp] theorem modImg_log (f : Img → Img) : (r.modImg f).log = r.log := rfl
@[simp] theorem modImg_now (f : Img → Img) : (r.modImg f).c.now = r.c.now := rfl
@[simp] theorem modImg_cc (f : Img → Img) : (r.modImg f).c.cc = r.c.cc := rfl
@[simp] theorem modImg_ft (f : Img → Img) : (r.modImg f).c.ft = r.c.ft := rfl
@[simp] theorem modImg_ftCore (f : Img → Img) : (r.modImg f).c.ftCore = r.c.ftCore := rfl
@[simp] theorem modImg_ftNext (f : Img → Img) : (r.modImg f).c.ftNext = r.c.ftNext := rfl
@[simp] theorem modImg_ftHand (f : Img → Img) : (r.modImg f).c.ftHand = r.c.ftHand := rfl
@[simp] theorem modImg_wait (f : Img → Img) : (r.modImg f).c.wait = r.c.wait := rfl
@[simp] theorem modImg_fly (f : Img → Img) : (r.modImg f).c.fly = r.c.fly := rfl
@[simp] theorem modImg_flyNo (f : Img → Img) : (r.modImg f).c.flyNo = r.c.flyNo := rfl
@[simp] theorem modImg_lanes (f : Img → Img) : (r.modImg f).c.lanes = r.c.lanes := rfl
@[simp] theorem modImg_xings (f : Img → Img) : (r.modImg f).c.xings = r.c.xings := rfl
@[simp] theorem modImg_cdrainDone (f : Img → Img) : (r.modImg f).c.cdrainDone = r.c.cdrainDone := rfl
@[simp] theorem modImg_csweepBusy (f : Img → Img) : (r.modImg f).c.csweepBusy = r.c.csweepBusy := rfl
@[simp] theorem modImg_lapNo (f : Img → Img) : (r.modImg f).c.lapNo = r.c.lapNo := rfl
@[simp] theorem modImg_slots (f : Img → Img) : (r.modImg f).c.slots = r.c.slots := rfl
@[simp] theorem modImg_free (f : Img → Img) : (r.modImg f).c.free = r.c.free := rfl
@[simp] theorem modImg_rooms (f : Img → Img) : (r.modImg f).c.rooms = r.c.rooms := rfl
@[simp] theorem modImg_porches (f : Img → Img) : (r.modImg f).c.porches = r.c.porches := rfl
@[simp] theorem modImg_chans (f : Img → Img) : (r.modImg f).c.chans = r.c.chans := rfl
@[simp] theorem modImg_doors (f : Img → Img) : (r.modImg f).c.doors = r.c.doors := rfl
@[simp] theorem modImg_hall (f : Img → Img) : (r.modImg f).c.hall = r.c.hall := rfl
@[simp] theorem modImg_fab (f : Img → Img) : (r.modImg f).c.fab = r.c.fab := rfl
@[simp] theorem modImg_time (f : Img → Img) : (r.modImg f).c.time = r.c.time := rfl
@[simp] theorem modImg_fbx (f : Img → Img) : (r.modImg f).c.fbx = r.c.fbx := rfl
@[simp] theorem modImg_tt (f : Img → Img) : (r.modImg f).c.tt = r.c.tt := rfl
@[simp] theorem modImg_mod (f : Img → Img) : (r.modImg f).c.mod = r.c.mod := rfl
@[simp] theorem modImg_img (f : Img → Img) : (r.modImg f).c.img = f r.c.img := rfl
@[simp] theorem modImg_selft (f : Img → Img) : (r.modImg f).c.selft = r.c.selft := rfl
@[simp] theorem modImg_fuses (f : Img → Img) : (r.modImg f).c.fuses = r.c.fuses := rfl
@[simp] theorem modImg_cells (f : Img → Img) : (r.modImg f).c.cells = r.c.cells := rfl
@[simp] theorem modImg_crc (f : Img → Img) : (r.modImg f).c.crc = r.c.crc := rfl
@[simp] theorem modImg_lch (f : Img → Img) : (r.modImg f).c.lch = r.c.lch := rfl
@[simp] theorem modImg_mgA (f : Img → Img) : (r.modImg f).c.mgA = r.c.mgA := rfl
@[simp] theorem modImg_mgB (f : Img → Img) : (r.modImg f).c.mgB = r.c.mgB := rfl
@[simp] theorem modImg_clk (f : Img → Img) : (r.modImg f).c.clk = r.c.clk := rfl
@[simp] theorem modImg_thm (f : Img → Img) : (r.modImg f).c.thm = r.c.thm := rfl
@[simp] theorem modImg_mtr (f : Img → Img) : (r.modImg f).c.mtr = r.c.mtr := rfl
@[simp] theorem modImg_stage (f : Img → Img) : (r.modImg f).c.stage = r.c.stage := rfl
@[simp] theorem modImg_jtag (f : Img → Img) : (r.modImg f).c.jtag = r.c.jtag := rfl
@[simp] theorem modImg_win (f : Img → Img) : (r.modImg f).c.win = r.c.win := rfl
@[simp] theorem modImg_rjob (f : Img → Img) : (r.modImg f).c.rjob = r.c.rjob := rfl
@[simp] theorem modImg_rebuild (f : Img → Img) : (r.modImg f).c.rebuild = r.c.rebuild := rfl
@[simp] theorem modImg_cdrainBusy (f : Img → Img) : (r.modImg f).c.cdrainBusy = r.c.cdrainBusy := rfl
@[simp] theorem modImg_pwrGood (f : Img → Img) : (r.modImg f).c.pwrGood = r.c.pwrGood := rfl
@[simp] theorem modImg_vaux (f : Img → Img) : (r.modImg f).c.vaux = r.c.vaux := rfl
@[simp] theorem modImg_railLow (f : Img → Img) : (r.modImg f).c.railLow = r.c.railLow := rfl
@[simp] theorem modImg_winLockArmed (f : Img → Img) : (r.modImg f).c.winLockArmed = r.c.winLockArmed := rfl
@[simp] theorem modImg_used (f : Img → Img) : (r.modImg f).c.used = r.c.used := rfl
@[simp] theorem modImg_out (f : Img → Img) : (r.modImg f).c.out = r.c.out := rfl

/-! ## `modTime` -/

@[simp] theorem modTime_m (f : Time → Time) : (r.modTime f).m = r.m := rfl
@[simp] theorem modTime_log (f : Time → Time) : (r.modTime f).log = r.log := rfl
@[simp] theorem modTime_now (f : Time → Time) : (r.modTime f).c.now = r.c.now := rfl
@[simp] theorem modTime_cc (f : Time → Time) : (r.modTime f).c.cc = r.c.cc := rfl
@[simp] theorem modTime_ft (f : Time → Time) : (r.modTime f).c.ft = r.c.ft := rfl
@[simp] theorem modTime_ftCore (f : Time → Time) : (r.modTime f).c.ftCore = r.c.ftCore := rfl
@[simp] theorem modTime_ftNext (f : Time → Time) : (r.modTime f).c.ftNext = r.c.ftNext := rfl
@[simp] theorem modTime_ftHand (f : Time → Time) : (r.modTime f).c.ftHand = r.c.ftHand := rfl
@[simp] theorem modTime_wait (f : Time → Time) : (r.modTime f).c.wait = r.c.wait := rfl
@[simp] theorem modTime_fly (f : Time → Time) : (r.modTime f).c.fly = r.c.fly := rfl
@[simp] theorem modTime_flyNo (f : Time → Time) : (r.modTime f).c.flyNo = r.c.flyNo := rfl
@[simp] theorem modTime_lanes (f : Time → Time) : (r.modTime f).c.lanes = r.c.lanes := rfl
@[simp] theorem modTime_xings (f : Time → Time) : (r.modTime f).c.xings = r.c.xings := rfl
@[simp] theorem modTime_cdrainDone (f : Time → Time) : (r.modTime f).c.cdrainDone = r.c.cdrainDone := rfl
@[simp] theorem modTime_csweepBusy (f : Time → Time) : (r.modTime f).c.csweepBusy = r.c.csweepBusy := rfl
@[simp] theorem modTime_lapNo (f : Time → Time) : (r.modTime f).c.lapNo = r.c.lapNo := rfl
@[simp] theorem modTime_slots (f : Time → Time) : (r.modTime f).c.slots = r.c.slots := rfl
@[simp] theorem modTime_free (f : Time → Time) : (r.modTime f).c.free = r.c.free := rfl
@[simp] theorem modTime_rooms (f : Time → Time) : (r.modTime f).c.rooms = r.c.rooms := rfl
@[simp] theorem modTime_porches (f : Time → Time) : (r.modTime f).c.porches = r.c.porches := rfl
@[simp] theorem modTime_chans (f : Time → Time) : (r.modTime f).c.chans = r.c.chans := rfl
@[simp] theorem modTime_doors (f : Time → Time) : (r.modTime f).c.doors = r.c.doors := rfl
@[simp] theorem modTime_hall (f : Time → Time) : (r.modTime f).c.hall = r.c.hall := rfl
@[simp] theorem modTime_fab (f : Time → Time) : (r.modTime f).c.fab = r.c.fab := rfl
@[simp] theorem modTime_time (f : Time → Time) : (r.modTime f).c.time = f r.c.time := rfl
@[simp] theorem modTime_fbx (f : Time → Time) : (r.modTime f).c.fbx = r.c.fbx := rfl
@[simp] theorem modTime_tt (f : Time → Time) : (r.modTime f).c.tt = r.c.tt := rfl
@[simp] theorem modTime_mod (f : Time → Time) : (r.modTime f).c.mod = r.c.mod := rfl
@[simp] theorem modTime_img (f : Time → Time) : (r.modTime f).c.img = r.c.img := rfl
@[simp] theorem modTime_selft (f : Time → Time) : (r.modTime f).c.selft = r.c.selft := rfl
@[simp] theorem modTime_fuses (f : Time → Time) : (r.modTime f).c.fuses = r.c.fuses := rfl
@[simp] theorem modTime_cells (f : Time → Time) : (r.modTime f).c.cells = r.c.cells := rfl
@[simp] theorem modTime_crc (f : Time → Time) : (r.modTime f).c.crc = r.c.crc := rfl
@[simp] theorem modTime_lch (f : Time → Time) : (r.modTime f).c.lch = r.c.lch := rfl
@[simp] theorem modTime_mgA (f : Time → Time) : (r.modTime f).c.mgA = r.c.mgA := rfl
@[simp] theorem modTime_mgB (f : Time → Time) : (r.modTime f).c.mgB = r.c.mgB := rfl
@[simp] theorem modTime_clk (f : Time → Time) : (r.modTime f).c.clk = r.c.clk := rfl
@[simp] theorem modTime_thm (f : Time → Time) : (r.modTime f).c.thm = r.c.thm := rfl
@[simp] theorem modTime_mtr (f : Time → Time) : (r.modTime f).c.mtr = r.c.mtr := rfl
@[simp] theorem modTime_stage (f : Time → Time) : (r.modTime f).c.stage = r.c.stage := rfl
@[simp] theorem modTime_jtag (f : Time → Time) : (r.modTime f).c.jtag = r.c.jtag := rfl
@[simp] theorem modTime_win (f : Time → Time) : (r.modTime f).c.win = r.c.win := rfl
@[simp] theorem modTime_rjob (f : Time → Time) : (r.modTime f).c.rjob = r.c.rjob := rfl
@[simp] theorem modTime_rebuild (f : Time → Time) : (r.modTime f).c.rebuild = r.c.rebuild := rfl
@[simp] theorem modTime_cdrainBusy (f : Time → Time) : (r.modTime f).c.cdrainBusy = r.c.cdrainBusy := rfl
@[simp] theorem modTime_pwrGood (f : Time → Time) : (r.modTime f).c.pwrGood = r.c.pwrGood := rfl
@[simp] theorem modTime_vaux (f : Time → Time) : (r.modTime f).c.vaux = r.c.vaux := rfl
@[simp] theorem modTime_railLow (f : Time → Time) : (r.modTime f).c.railLow = r.c.railLow := rfl
@[simp] theorem modTime_winLockArmed (f : Time → Time) : (r.modTime f).c.winLockArmed = r.c.winLockArmed := rfl
@[simp] theorem modTime_used (f : Time → Time) : (r.modTime f).c.used = r.c.used := rfl
@[simp] theorem modTime_out (f : Time → Time) : (r.modTime f).c.out = r.c.out := rfl

/-! ## `modThm` -/

@[simp] theorem modThm_m (f : Thm → Thm) : (r.modThm f).m = r.m := rfl
@[simp] theorem modThm_log (f : Thm → Thm) : (r.modThm f).log = r.log := rfl
@[simp] theorem modThm_now (f : Thm → Thm) : (r.modThm f).c.now = r.c.now := rfl
@[simp] theorem modThm_cc (f : Thm → Thm) : (r.modThm f).c.cc = r.c.cc := rfl
@[simp] theorem modThm_ft (f : Thm → Thm) : (r.modThm f).c.ft = r.c.ft := rfl
@[simp] theorem modThm_ftCore (f : Thm → Thm) : (r.modThm f).c.ftCore = r.c.ftCore := rfl
@[simp] theorem modThm_ftNext (f : Thm → Thm) : (r.modThm f).c.ftNext = r.c.ftNext := rfl
@[simp] theorem modThm_ftHand (f : Thm → Thm) : (r.modThm f).c.ftHand = r.c.ftHand := rfl
@[simp] theorem modThm_wait (f : Thm → Thm) : (r.modThm f).c.wait = r.c.wait := rfl
@[simp] theorem modThm_fly (f : Thm → Thm) : (r.modThm f).c.fly = r.c.fly := rfl
@[simp] theorem modThm_flyNo (f : Thm → Thm) : (r.modThm f).c.flyNo = r.c.flyNo := rfl
@[simp] theorem modThm_lanes (f : Thm → Thm) : (r.modThm f).c.lanes = r.c.lanes := rfl
@[simp] theorem modThm_xings (f : Thm → Thm) : (r.modThm f).c.xings = r.c.xings := rfl
@[simp] theorem modThm_cdrainDone (f : Thm → Thm) : (r.modThm f).c.cdrainDone = r.c.cdrainDone := rfl
@[simp] theorem modThm_csweepBusy (f : Thm → Thm) : (r.modThm f).c.csweepBusy = r.c.csweepBusy := rfl
@[simp] theorem modThm_lapNo (f : Thm → Thm) : (r.modThm f).c.lapNo = r.c.lapNo := rfl
@[simp] theorem modThm_slots (f : Thm → Thm) : (r.modThm f).c.slots = r.c.slots := rfl
@[simp] theorem modThm_free (f : Thm → Thm) : (r.modThm f).c.free = r.c.free := rfl
@[simp] theorem modThm_rooms (f : Thm → Thm) : (r.modThm f).c.rooms = r.c.rooms := rfl
@[simp] theorem modThm_porches (f : Thm → Thm) : (r.modThm f).c.porches = r.c.porches := rfl
@[simp] theorem modThm_chans (f : Thm → Thm) : (r.modThm f).c.chans = r.c.chans := rfl
@[simp] theorem modThm_doors (f : Thm → Thm) : (r.modThm f).c.doors = r.c.doors := rfl
@[simp] theorem modThm_hall (f : Thm → Thm) : (r.modThm f).c.hall = r.c.hall := rfl
@[simp] theorem modThm_fab (f : Thm → Thm) : (r.modThm f).c.fab = r.c.fab := rfl
@[simp] theorem modThm_time (f : Thm → Thm) : (r.modThm f).c.time = r.c.time := rfl
@[simp] theorem modThm_fbx (f : Thm → Thm) : (r.modThm f).c.fbx = r.c.fbx := rfl
@[simp] theorem modThm_tt (f : Thm → Thm) : (r.modThm f).c.tt = r.c.tt := rfl
@[simp] theorem modThm_mod (f : Thm → Thm) : (r.modThm f).c.mod = r.c.mod := rfl
@[simp] theorem modThm_img (f : Thm → Thm) : (r.modThm f).c.img = r.c.img := rfl
@[simp] theorem modThm_selft (f : Thm → Thm) : (r.modThm f).c.selft = r.c.selft := rfl
@[simp] theorem modThm_fuses (f : Thm → Thm) : (r.modThm f).c.fuses = r.c.fuses := rfl
@[simp] theorem modThm_cells (f : Thm → Thm) : (r.modThm f).c.cells = r.c.cells := rfl
@[simp] theorem modThm_crc (f : Thm → Thm) : (r.modThm f).c.crc = r.c.crc := rfl
@[simp] theorem modThm_lch (f : Thm → Thm) : (r.modThm f).c.lch = r.c.lch := rfl
@[simp] theorem modThm_mgA (f : Thm → Thm) : (r.modThm f).c.mgA = r.c.mgA := rfl
@[simp] theorem modThm_mgB (f : Thm → Thm) : (r.modThm f).c.mgB = r.c.mgB := rfl
@[simp] theorem modThm_clk (f : Thm → Thm) : (r.modThm f).c.clk = r.c.clk := rfl
@[simp] theorem modThm_thm (f : Thm → Thm) : (r.modThm f).c.thm = f r.c.thm := rfl
@[simp] theorem modThm_mtr (f : Thm → Thm) : (r.modThm f).c.mtr = r.c.mtr := rfl
@[simp] theorem modThm_stage (f : Thm → Thm) : (r.modThm f).c.stage = r.c.stage := rfl
@[simp] theorem modThm_jtag (f : Thm → Thm) : (r.modThm f).c.jtag = r.c.jtag := rfl
@[simp] theorem modThm_win (f : Thm → Thm) : (r.modThm f).c.win = r.c.win := rfl
@[simp] theorem modThm_rjob (f : Thm → Thm) : (r.modThm f).c.rjob = r.c.rjob := rfl
@[simp] theorem modThm_rebuild (f : Thm → Thm) : (r.modThm f).c.rebuild = r.c.rebuild := rfl
@[simp] theorem modThm_cdrainBusy (f : Thm → Thm) : (r.modThm f).c.cdrainBusy = r.c.cdrainBusy := rfl
@[simp] theorem modThm_pwrGood (f : Thm → Thm) : (r.modThm f).c.pwrGood = r.c.pwrGood := rfl
@[simp] theorem modThm_vaux (f : Thm → Thm) : (r.modThm f).c.vaux = r.c.vaux := rfl
@[simp] theorem modThm_railLow (f : Thm → Thm) : (r.modThm f).c.railLow = r.c.railLow := rfl
@[simp] theorem modThm_winLockArmed (f : Thm → Thm) : (r.modThm f).c.winLockArmed = r.c.winLockArmed := rfl
@[simp] theorem modThm_used (f : Thm → Thm) : (r.modThm f).c.used = r.c.used := rfl
@[simp] theorem modThm_out (f : Thm → Thm) : (r.modThm f).c.out = r.c.out := rfl

/-! ## `modMtr` -/

@[simp] theorem modMtr_m (f : Mtr → Mtr) : (r.modMtr f).m = r.m := rfl
@[simp] theorem modMtr_log (f : Mtr → Mtr) : (r.modMtr f).log = r.log := rfl
@[simp] theorem modMtr_now (f : Mtr → Mtr) : (r.modMtr f).c.now = r.c.now := rfl
@[simp] theorem modMtr_cc (f : Mtr → Mtr) : (r.modMtr f).c.cc = r.c.cc := rfl
@[simp] theorem modMtr_ft (f : Mtr → Mtr) : (r.modMtr f).c.ft = r.c.ft := rfl
@[simp] theorem modMtr_ftCore (f : Mtr → Mtr) : (r.modMtr f).c.ftCore = r.c.ftCore := rfl
@[simp] theorem modMtr_ftNext (f : Mtr → Mtr) : (r.modMtr f).c.ftNext = r.c.ftNext := rfl
@[simp] theorem modMtr_ftHand (f : Mtr → Mtr) : (r.modMtr f).c.ftHand = r.c.ftHand := rfl
@[simp] theorem modMtr_wait (f : Mtr → Mtr) : (r.modMtr f).c.wait = r.c.wait := rfl
@[simp] theorem modMtr_fly (f : Mtr → Mtr) : (r.modMtr f).c.fly = r.c.fly := rfl
@[simp] theorem modMtr_flyNo (f : Mtr → Mtr) : (r.modMtr f).c.flyNo = r.c.flyNo := rfl
@[simp] theorem modMtr_lanes (f : Mtr → Mtr) : (r.modMtr f).c.lanes = r.c.lanes := rfl
@[simp] theorem modMtr_xings (f : Mtr → Mtr) : (r.modMtr f).c.xings = r.c.xings := rfl
@[simp] theorem modMtr_cdrainDone (f : Mtr → Mtr) : (r.modMtr f).c.cdrainDone = r.c.cdrainDone := rfl
@[simp] theorem modMtr_csweepBusy (f : Mtr → Mtr) : (r.modMtr f).c.csweepBusy = r.c.csweepBusy := rfl
@[simp] theorem modMtr_lapNo (f : Mtr → Mtr) : (r.modMtr f).c.lapNo = r.c.lapNo := rfl
@[simp] theorem modMtr_slots (f : Mtr → Mtr) : (r.modMtr f).c.slots = r.c.slots := rfl
@[simp] theorem modMtr_free (f : Mtr → Mtr) : (r.modMtr f).c.free = r.c.free := rfl
@[simp] theorem modMtr_rooms (f : Mtr → Mtr) : (r.modMtr f).c.rooms = r.c.rooms := rfl
@[simp] theorem modMtr_porches (f : Mtr → Mtr) : (r.modMtr f).c.porches = r.c.porches := rfl
@[simp] theorem modMtr_chans (f : Mtr → Mtr) : (r.modMtr f).c.chans = r.c.chans := rfl
@[simp] theorem modMtr_doors (f : Mtr → Mtr) : (r.modMtr f).c.doors = r.c.doors := rfl
@[simp] theorem modMtr_hall (f : Mtr → Mtr) : (r.modMtr f).c.hall = r.c.hall := rfl
@[simp] theorem modMtr_fab (f : Mtr → Mtr) : (r.modMtr f).c.fab = r.c.fab := rfl
@[simp] theorem modMtr_time (f : Mtr → Mtr) : (r.modMtr f).c.time = r.c.time := rfl
@[simp] theorem modMtr_fbx (f : Mtr → Mtr) : (r.modMtr f).c.fbx = r.c.fbx := rfl
@[simp] theorem modMtr_tt (f : Mtr → Mtr) : (r.modMtr f).c.tt = r.c.tt := rfl
@[simp] theorem modMtr_mod (f : Mtr → Mtr) : (r.modMtr f).c.mod = r.c.mod := rfl
@[simp] theorem modMtr_img (f : Mtr → Mtr) : (r.modMtr f).c.img = r.c.img := rfl
@[simp] theorem modMtr_selft (f : Mtr → Mtr) : (r.modMtr f).c.selft = r.c.selft := rfl
@[simp] theorem modMtr_fuses (f : Mtr → Mtr) : (r.modMtr f).c.fuses = r.c.fuses := rfl
@[simp] theorem modMtr_cells (f : Mtr → Mtr) : (r.modMtr f).c.cells = r.c.cells := rfl
@[simp] theorem modMtr_crc (f : Mtr → Mtr) : (r.modMtr f).c.crc = r.c.crc := rfl
@[simp] theorem modMtr_lch (f : Mtr → Mtr) : (r.modMtr f).c.lch = r.c.lch := rfl
@[simp] theorem modMtr_mgA (f : Mtr → Mtr) : (r.modMtr f).c.mgA = r.c.mgA := rfl
@[simp] theorem modMtr_mgB (f : Mtr → Mtr) : (r.modMtr f).c.mgB = r.c.mgB := rfl
@[simp] theorem modMtr_clk (f : Mtr → Mtr) : (r.modMtr f).c.clk = r.c.clk := rfl
@[simp] theorem modMtr_thm (f : Mtr → Mtr) : (r.modMtr f).c.thm = r.c.thm := rfl
@[simp] theorem modMtr_mtr (f : Mtr → Mtr) : (r.modMtr f).c.mtr = f r.c.mtr := rfl
@[simp] theorem modMtr_stage (f : Mtr → Mtr) : (r.modMtr f).c.stage = r.c.stage := rfl
@[simp] theorem modMtr_jtag (f : Mtr → Mtr) : (r.modMtr f).c.jtag = r.c.jtag := rfl
@[simp] theorem modMtr_win (f : Mtr → Mtr) : (r.modMtr f).c.win = r.c.win := rfl
@[simp] theorem modMtr_rjob (f : Mtr → Mtr) : (r.modMtr f).c.rjob = r.c.rjob := rfl
@[simp] theorem modMtr_rebuild (f : Mtr → Mtr) : (r.modMtr f).c.rebuild = r.c.rebuild := rfl
@[simp] theorem modMtr_cdrainBusy (f : Mtr → Mtr) : (r.modMtr f).c.cdrainBusy = r.c.cdrainBusy := rfl
@[simp] theorem modMtr_pwrGood (f : Mtr → Mtr) : (r.modMtr f).c.pwrGood = r.c.pwrGood := rfl
@[simp] theorem modMtr_vaux (f : Mtr → Mtr) : (r.modMtr f).c.vaux = r.c.vaux := rfl
@[simp] theorem modMtr_railLow (f : Mtr → Mtr) : (r.modMtr f).c.railLow = r.c.railLow := rfl
@[simp] theorem modMtr_winLockArmed (f : Mtr → Mtr) : (r.modMtr f).c.winLockArmed = r.c.winLockArmed := rfl
@[simp] theorem modMtr_used (f : Mtr → Mtr) : (r.modMtr f).c.used = r.c.used := rfl
@[simp] theorem modMtr_out (f : Mtr → Mtr) : (r.modMtr f).c.out = r.c.out := rfl

/-! ## `modCrc` -/

@[simp] theorem modCrc_m (f : CrcEng → CrcEng) : (r.modCrc f).m = r.m := rfl
@[simp] theorem modCrc_log (f : CrcEng → CrcEng) : (r.modCrc f).log = r.log := rfl
@[simp] theorem modCrc_now (f : CrcEng → CrcEng) : (r.modCrc f).c.now = r.c.now := rfl
@[simp] theorem modCrc_cc (f : CrcEng → CrcEng) : (r.modCrc f).c.cc = r.c.cc := rfl
@[simp] theorem modCrc_ft (f : CrcEng → CrcEng) : (r.modCrc f).c.ft = r.c.ft := rfl
@[simp] theorem modCrc_ftCore (f : CrcEng → CrcEng) : (r.modCrc f).c.ftCore = r.c.ftCore := rfl
@[simp] theorem modCrc_ftNext (f : CrcEng → CrcEng) : (r.modCrc f).c.ftNext = r.c.ftNext := rfl
@[simp] theorem modCrc_ftHand (f : CrcEng → CrcEng) : (r.modCrc f).c.ftHand = r.c.ftHand := rfl
@[simp] theorem modCrc_wait (f : CrcEng → CrcEng) : (r.modCrc f).c.wait = r.c.wait := rfl
@[simp] theorem modCrc_fly (f : CrcEng → CrcEng) : (r.modCrc f).c.fly = r.c.fly := rfl
@[simp] theorem modCrc_flyNo (f : CrcEng → CrcEng) : (r.modCrc f).c.flyNo = r.c.flyNo := rfl
@[simp] theorem modCrc_lanes (f : CrcEng → CrcEng) : (r.modCrc f).c.lanes = r.c.lanes := rfl
@[simp] theorem modCrc_xings (f : CrcEng → CrcEng) : (r.modCrc f).c.xings = r.c.xings := rfl
@[simp] theorem modCrc_cdrainDone (f : CrcEng → CrcEng) : (r.modCrc f).c.cdrainDone = r.c.cdrainDone := rfl
@[simp] theorem modCrc_csweepBusy (f : CrcEng → CrcEng) : (r.modCrc f).c.csweepBusy = r.c.csweepBusy := rfl
@[simp] theorem modCrc_lapNo (f : CrcEng → CrcEng) : (r.modCrc f).c.lapNo = r.c.lapNo := rfl
@[simp] theorem modCrc_slots (f : CrcEng → CrcEng) : (r.modCrc f).c.slots = r.c.slots := rfl
@[simp] theorem modCrc_free (f : CrcEng → CrcEng) : (r.modCrc f).c.free = r.c.free := rfl
@[simp] theorem modCrc_rooms (f : CrcEng → CrcEng) : (r.modCrc f).c.rooms = r.c.rooms := rfl
@[simp] theorem modCrc_porches (f : CrcEng → CrcEng) : (r.modCrc f).c.porches = r.c.porches := rfl
@[simp] theorem modCrc_chans (f : CrcEng → CrcEng) : (r.modCrc f).c.chans = r.c.chans := rfl
@[simp] theorem modCrc_doors (f : CrcEng → CrcEng) : (r.modCrc f).c.doors = r.c.doors := rfl
@[simp] theorem modCrc_hall (f : CrcEng → CrcEng) : (r.modCrc f).c.hall = r.c.hall := rfl
@[simp] theorem modCrc_fab (f : CrcEng → CrcEng) : (r.modCrc f).c.fab = r.c.fab := rfl
@[simp] theorem modCrc_time (f : CrcEng → CrcEng) : (r.modCrc f).c.time = r.c.time := rfl
@[simp] theorem modCrc_fbx (f : CrcEng → CrcEng) : (r.modCrc f).c.fbx = r.c.fbx := rfl
@[simp] theorem modCrc_tt (f : CrcEng → CrcEng) : (r.modCrc f).c.tt = r.c.tt := rfl
@[simp] theorem modCrc_mod (f : CrcEng → CrcEng) : (r.modCrc f).c.mod = r.c.mod := rfl
@[simp] theorem modCrc_img (f : CrcEng → CrcEng) : (r.modCrc f).c.img = r.c.img := rfl
@[simp] theorem modCrc_selft (f : CrcEng → CrcEng) : (r.modCrc f).c.selft = r.c.selft := rfl
@[simp] theorem modCrc_fuses (f : CrcEng → CrcEng) : (r.modCrc f).c.fuses = r.c.fuses := rfl
@[simp] theorem modCrc_cells (f : CrcEng → CrcEng) : (r.modCrc f).c.cells = r.c.cells := rfl
@[simp] theorem modCrc_crc (f : CrcEng → CrcEng) : (r.modCrc f).c.crc = f r.c.crc := rfl
@[simp] theorem modCrc_lch (f : CrcEng → CrcEng) : (r.modCrc f).c.lch = r.c.lch := rfl
@[simp] theorem modCrc_mgA (f : CrcEng → CrcEng) : (r.modCrc f).c.mgA = r.c.mgA := rfl
@[simp] theorem modCrc_mgB (f : CrcEng → CrcEng) : (r.modCrc f).c.mgB = r.c.mgB := rfl
@[simp] theorem modCrc_clk (f : CrcEng → CrcEng) : (r.modCrc f).c.clk = r.c.clk := rfl
@[simp] theorem modCrc_thm (f : CrcEng → CrcEng) : (r.modCrc f).c.thm = r.c.thm := rfl
@[simp] theorem modCrc_mtr (f : CrcEng → CrcEng) : (r.modCrc f).c.mtr = r.c.mtr := rfl
@[simp] theorem modCrc_stage (f : CrcEng → CrcEng) : (r.modCrc f).c.stage = r.c.stage := rfl
@[simp] theorem modCrc_jtag (f : CrcEng → CrcEng) : (r.modCrc f).c.jtag = r.c.jtag := rfl
@[simp] theorem modCrc_win (f : CrcEng → CrcEng) : (r.modCrc f).c.win = r.c.win := rfl
@[simp] theorem modCrc_rjob (f : CrcEng → CrcEng) : (r.modCrc f).c.rjob = r.c.rjob := rfl
@[simp] theorem modCrc_rebuild (f : CrcEng → CrcEng) : (r.modCrc f).c.rebuild = r.c.rebuild := rfl
@[simp] theorem modCrc_cdrainBusy (f : CrcEng → CrcEng) : (r.modCrc f).c.cdrainBusy = r.c.cdrainBusy := rfl
@[simp] theorem modCrc_pwrGood (f : CrcEng → CrcEng) : (r.modCrc f).c.pwrGood = r.c.pwrGood := rfl
@[simp] theorem modCrc_vaux (f : CrcEng → CrcEng) : (r.modCrc f).c.vaux = r.c.vaux := rfl
@[simp] theorem modCrc_railLow (f : CrcEng → CrcEng) : (r.modCrc f).c.railLow = r.c.railLow := rfl
@[simp] theorem modCrc_winLockArmed (f : CrcEng → CrcEng) : (r.modCrc f).c.winLockArmed = r.c.winLockArmed := rfl
@[simp] theorem modCrc_used (f : CrcEng → CrcEng) : (r.modCrc f).c.used = r.c.used := rfl
@[simp] theorem modCrc_out (f : CrcEng → CrcEng) : (r.modCrc f).c.out = r.c.out := rfl

/-! ## `modOut` -/

@[simp] theorem modOut_m (f : Out → Out) : (r.modOut f).m = r.m := rfl
@[simp] theorem modOut_log (f : Out → Out) : (r.modOut f).log = r.log := rfl
@[simp] theorem modOut_now (f : Out → Out) : (r.modOut f).c.now = r.c.now := rfl
@[simp] theorem modOut_cc (f : Out → Out) : (r.modOut f).c.cc = r.c.cc := rfl
@[simp] theorem modOut_ft (f : Out → Out) : (r.modOut f).c.ft = r.c.ft := rfl
@[simp] theorem modOut_ftCore (f : Out → Out) : (r.modOut f).c.ftCore = r.c.ftCore := rfl
@[simp] theorem modOut_ftNext (f : Out → Out) : (r.modOut f).c.ftNext = r.c.ftNext := rfl
@[simp] theorem modOut_ftHand (f : Out → Out) : (r.modOut f).c.ftHand = r.c.ftHand := rfl
@[simp] theorem modOut_wait (f : Out → Out) : (r.modOut f).c.wait = r.c.wait := rfl
@[simp] theorem modOut_fly (f : Out → Out) : (r.modOut f).c.fly = r.c.fly := rfl
@[simp] theorem modOut_flyNo (f : Out → Out) : (r.modOut f).c.flyNo = r.c.flyNo := rfl
@[simp] theorem modOut_lanes (f : Out → Out) : (r.modOut f).c.lanes = r.c.lanes := rfl
@[simp] theorem modOut_xings (f : Out → Out) : (r.modOut f).c.xings = r.c.xings := rfl
@[simp] theorem modOut_cdrainDone (f : Out → Out) : (r.modOut f).c.cdrainDone = r.c.cdrainDone := rfl
@[simp] theorem modOut_csweepBusy (f : Out → Out) : (r.modOut f).c.csweepBusy = r.c.csweepBusy := rfl
@[simp] theorem modOut_lapNo (f : Out → Out) : (r.modOut f).c.lapNo = r.c.lapNo := rfl
@[simp] theorem modOut_slots (f : Out → Out) : (r.modOut f).c.slots = r.c.slots := rfl
@[simp] theorem modOut_free (f : Out → Out) : (r.modOut f).c.free = r.c.free := rfl
@[simp] theorem modOut_rooms (f : Out → Out) : (r.modOut f).c.rooms = r.c.rooms := rfl
@[simp] theorem modOut_porches (f : Out → Out) : (r.modOut f).c.porches = r.c.porches := rfl
@[simp] theorem modOut_chans (f : Out → Out) : (r.modOut f).c.chans = r.c.chans := rfl
@[simp] theorem modOut_doors (f : Out → Out) : (r.modOut f).c.doors = r.c.doors := rfl
@[simp] theorem modOut_hall (f : Out → Out) : (r.modOut f).c.hall = r.c.hall := rfl
@[simp] theorem modOut_fab (f : Out → Out) : (r.modOut f).c.fab = r.c.fab := rfl
@[simp] theorem modOut_time (f : Out → Out) : (r.modOut f).c.time = r.c.time := rfl
@[simp] theorem modOut_fbx (f : Out → Out) : (r.modOut f).c.fbx = r.c.fbx := rfl
@[simp] theorem modOut_tt (f : Out → Out) : (r.modOut f).c.tt = r.c.tt := rfl
@[simp] theorem modOut_mod (f : Out → Out) : (r.modOut f).c.mod = r.c.mod := rfl
@[simp] theorem modOut_img (f : Out → Out) : (r.modOut f).c.img = r.c.img := rfl
@[simp] theorem modOut_selft (f : Out → Out) : (r.modOut f).c.selft = r.c.selft := rfl
@[simp] theorem modOut_fuses (f : Out → Out) : (r.modOut f).c.fuses = r.c.fuses := rfl
@[simp] theorem modOut_cells (f : Out → Out) : (r.modOut f).c.cells = r.c.cells := rfl
@[simp] theorem modOut_crc (f : Out → Out) : (r.modOut f).c.crc = r.c.crc := rfl
@[simp] theorem modOut_lch (f : Out → Out) : (r.modOut f).c.lch = r.c.lch := rfl
@[simp] theorem modOut_mgA (f : Out → Out) : (r.modOut f).c.mgA = r.c.mgA := rfl
@[simp] theorem modOut_mgB (f : Out → Out) : (r.modOut f).c.mgB = r.c.mgB := rfl
@[simp] theorem modOut_clk (f : Out → Out) : (r.modOut f).c.clk = r.c.clk := rfl
@[simp] theorem modOut_thm (f : Out → Out) : (r.modOut f).c.thm = r.c.thm := rfl
@[simp] theorem modOut_mtr (f : Out → Out) : (r.modOut f).c.mtr = r.c.mtr := rfl
@[simp] theorem modOut_stage (f : Out → Out) : (r.modOut f).c.stage = r.c.stage := rfl
@[simp] theorem modOut_jtag (f : Out → Out) : (r.modOut f).c.jtag = r.c.jtag := rfl
@[simp] theorem modOut_win (f : Out → Out) : (r.modOut f).c.win = r.c.win := rfl
@[simp] theorem modOut_rjob (f : Out → Out) : (r.modOut f).c.rjob = r.c.rjob := rfl
@[simp] theorem modOut_rebuild (f : Out → Out) : (r.modOut f).c.rebuild = r.c.rebuild := rfl
@[simp] theorem modOut_cdrainBusy (f : Out → Out) : (r.modOut f).c.cdrainBusy = r.c.cdrainBusy := rfl
@[simp] theorem modOut_pwrGood (f : Out → Out) : (r.modOut f).c.pwrGood = r.c.pwrGood := rfl
@[simp] theorem modOut_vaux (f : Out → Out) : (r.modOut f).c.vaux = r.c.vaux := rfl
@[simp] theorem modOut_railLow (f : Out → Out) : (r.modOut f).c.railLow = r.c.railLow := rfl
@[simp] theorem modOut_winLockArmed (f : Out → Out) : (r.modOut f).c.winLockArmed = r.c.winLockArmed := rfl
@[simp] theorem modOut_used (f : Out → Out) : (r.modOut f).c.used = r.c.used := rfl
@[simp] theorem modOut_out (f : Out → Out) : (r.modOut f).c.out = f r.c.out := rfl

/-! ## `toHost` -/

@[simp] theorem toHost_m (h : HostMsg) : (r.toHost h).m = r.m := rfl
@[simp] theorem toHost_log (h : HostMsg) : (r.toHost h).log = r.log := rfl
@[simp] theorem toHost_now (h : HostMsg) : (r.toHost h).c.now = r.c.now := rfl
@[simp] theorem toHost_cc (h : HostMsg) : (r.toHost h).c.cc = r.c.cc := rfl
@[simp] theorem toHost_ft (h : HostMsg) : (r.toHost h).c.ft = r.c.ft := rfl
@[simp] theorem toHost_ftCore (h : HostMsg) : (r.toHost h).c.ftCore = r.c.ftCore := rfl
@[simp] theorem toHost_ftNext (h : HostMsg) : (r.toHost h).c.ftNext = r.c.ftNext := rfl
@[simp] theorem toHost_ftHand (h : HostMsg) : (r.toHost h).c.ftHand = r.c.ftHand := rfl
@[simp] theorem toHost_wait (h : HostMsg) : (r.toHost h).c.wait = r.c.wait := rfl
@[simp] theorem toHost_fly (h : HostMsg) : (r.toHost h).c.fly = r.c.fly := rfl
@[simp] theorem toHost_flyNo (h : HostMsg) : (r.toHost h).c.flyNo = r.c.flyNo := rfl
@[simp] theorem toHost_lanes (h : HostMsg) : (r.toHost h).c.lanes = r.c.lanes := rfl
@[simp] theorem toHost_xings (h : HostMsg) : (r.toHost h).c.xings = r.c.xings.out h := rfl
@[simp] theorem toHost_cdrainDone (h : HostMsg) : (r.toHost h).c.cdrainDone = r.c.cdrainDone := rfl
@[simp] theorem toHost_csweepBusy (h : HostMsg) : (r.toHost h).c.csweepBusy = r.c.csweepBusy := rfl
@[simp] theorem toHost_lapNo (h : HostMsg) : (r.toHost h).c.lapNo = r.c.lapNo := rfl
@[simp] theorem toHost_slots (h : HostMsg) : (r.toHost h).c.slots = r.c.slots := rfl
@[simp] theorem toHost_free (h : HostMsg) : (r.toHost h).c.free = r.c.free := rfl
@[simp] theorem toHost_rooms (h : HostMsg) : (r.toHost h).c.rooms = r.c.rooms := rfl
@[simp] theorem toHost_porches (h : HostMsg) : (r.toHost h).c.porches = r.c.porches := rfl
@[simp] theorem toHost_chans (h : HostMsg) : (r.toHost h).c.chans = r.c.chans := rfl
@[simp] theorem toHost_doors (h : HostMsg) : (r.toHost h).c.doors = r.c.doors := rfl
@[simp] theorem toHost_hall (h : HostMsg) : (r.toHost h).c.hall = r.c.hall := rfl
@[simp] theorem toHost_fab (h : HostMsg) : (r.toHost h).c.fab = r.c.fab := rfl
@[simp] theorem toHost_time (h : HostMsg) : (r.toHost h).c.time = r.c.time := rfl
@[simp] theorem toHost_fbx (h : HostMsg) : (r.toHost h).c.fbx = r.c.fbx := rfl
@[simp] theorem toHost_tt (h : HostMsg) : (r.toHost h).c.tt = r.c.tt := rfl
@[simp] theorem toHost_mod (h : HostMsg) : (r.toHost h).c.mod = r.c.mod := rfl
@[simp] theorem toHost_img (h : HostMsg) : (r.toHost h).c.img = r.c.img := rfl
@[simp] theorem toHost_selft (h : HostMsg) : (r.toHost h).c.selft = r.c.selft := rfl
@[simp] theorem toHost_fuses (h : HostMsg) : (r.toHost h).c.fuses = r.c.fuses := rfl
@[simp] theorem toHost_cells (h : HostMsg) : (r.toHost h).c.cells = r.c.cells := rfl
@[simp] theorem toHost_crc (h : HostMsg) : (r.toHost h).c.crc = r.c.crc := rfl
@[simp] theorem toHost_lch (h : HostMsg) : (r.toHost h).c.lch = r.c.lch := rfl
@[simp] theorem toHost_mgA (h : HostMsg) : (r.toHost h).c.mgA = r.c.mgA := rfl
@[simp] theorem toHost_mgB (h : HostMsg) : (r.toHost h).c.mgB = r.c.mgB := rfl
@[simp] theorem toHost_clk (h : HostMsg) : (r.toHost h).c.clk = r.c.clk := rfl
@[simp] theorem toHost_thm (h : HostMsg) : (r.toHost h).c.thm = r.c.thm := rfl
@[simp] theorem toHost_mtr (h : HostMsg) : (r.toHost h).c.mtr = r.c.mtr := rfl
@[simp] theorem toHost_stage (h : HostMsg) : (r.toHost h).c.stage = r.c.stage := rfl
@[simp] theorem toHost_jtag (h : HostMsg) : (r.toHost h).c.jtag = r.c.jtag := rfl
@[simp] theorem toHost_win (h : HostMsg) : (r.toHost h).c.win = r.c.win := rfl
@[simp] theorem toHost_rjob (h : HostMsg) : (r.toHost h).c.rjob = r.c.rjob := rfl
@[simp] theorem toHost_rebuild (h : HostMsg) : (r.toHost h).c.rebuild = r.c.rebuild := rfl
@[simp] theorem toHost_cdrainBusy (h : HostMsg) : (r.toHost h).c.cdrainBusy = r.c.cdrainBusy := rfl
@[simp] theorem toHost_pwrGood (h : HostMsg) : (r.toHost h).c.pwrGood = r.c.pwrGood := rfl
@[simp] theorem toHost_vaux (h : HostMsg) : (r.toHost h).c.vaux = r.c.vaux := rfl
@[simp] theorem toHost_railLow (h : HostMsg) : (r.toHost h).c.railLow = r.c.railLow := rfl
@[simp] theorem toHost_winLockArmed (h : HostMsg) : (r.toHost h).c.winLockArmed = r.c.winLockArmed := rfl
@[simp] theorem toHost_used (h : HostMsg) : (r.toHost h).c.used = r.c.used := rfl
@[simp] theorem toHost_out (h : HostMsg) : (r.toHost h).c.out = { r.c.out with host := r.c.out.host ++ [h] } := rfl

/-! ## `grant` -/

@[simp] theorem grant_m (k code : Nat) : (r.grant k code).m = r.m := rfl
@[simp] theorem grant_log (k code : Nat) : (r.grant k code).log = r.log := rfl
@[simp] theorem grant_now (k code : Nat) : (r.grant k code).c.now = r.c.now := rfl
@[simp] theorem grant_cc (k code : Nat) : (r.grant k code).c.cc = r.c.cc := rfl
@[simp] theorem grant_ft (k code : Nat) : (r.grant k code).c.ft = r.c.ft := rfl
@[simp] theorem grant_ftCore (k code : Nat) : (r.grant k code).c.ftCore = r.c.ftCore := rfl
@[simp] theorem grant_ftNext (k code : Nat) : (r.grant k code).c.ftNext = r.c.ftNext := rfl
@[simp] theorem grant_ftHand (k code : Nat) : (r.grant k code).c.ftHand = r.c.ftHand := rfl
@[simp] theorem grant_wait (k code : Nat) : (r.grant k code).c.wait = r.c.wait := rfl
@[simp] theorem grant_fly (k code : Nat) : (r.grant k code).c.fly = r.c.fly := rfl
@[simp] theorem grant_flyNo (k code : Nat) : (r.grant k code).c.flyNo = r.c.flyNo := rfl
@[simp] theorem grant_lanes (k code : Nat) : (r.grant k code).c.lanes = r.c.lanes := rfl
@[simp] theorem grant_xings (k code : Nat) : (r.grant k code).c.xings = r.c.xings := rfl
@[simp] theorem grant_cdrainDone (k code : Nat) : (r.grant k code).c.cdrainDone = r.c.cdrainDone := rfl
@[simp] theorem grant_csweepBusy (k code : Nat) : (r.grant k code).c.csweepBusy = r.c.csweepBusy := rfl
@[simp] theorem grant_lapNo (k code : Nat) : (r.grant k code).c.lapNo = r.c.lapNo := rfl
@[simp] theorem grant_slots (k code : Nat) : (r.grant k code).c.slots = r.c.slots := rfl
@[simp] theorem grant_free (k code : Nat) : (r.grant k code).c.free = r.c.free := rfl
@[simp] theorem grant_rooms (k code : Nat) : (r.grant k code).c.rooms = r.c.rooms := rfl
@[simp] theorem grant_porches (k code : Nat) : (r.grant k code).c.porches = r.c.porches := rfl
@[simp] theorem grant_chans (k code : Nat) : (r.grant k code).c.chans = r.c.chans := rfl
@[simp] theorem grant_doors (k code : Nat) : (r.grant k code).c.doors = r.c.doors := rfl
@[simp] theorem grant_hall (k code : Nat) : (r.grant k code).c.hall = r.c.hall := rfl
@[simp] theorem grant_fab (k code : Nat) : (r.grant k code).c.fab = r.c.fab := rfl
@[simp] theorem grant_time (k code : Nat) : (r.grant k code).c.time = r.c.time := rfl
@[simp] theorem grant_fbx (k code : Nat) : (r.grant k code).c.fbx = r.c.fbx := rfl
@[simp] theorem grant_tt (k code : Nat) : (r.grant k code).c.tt = r.c.tt := rfl
@[simp] theorem grant_mod (k code : Nat) : (r.grant k code).c.mod = r.c.mod := rfl
@[simp] theorem grant_img (k code : Nat) : (r.grant k code).c.img = r.c.img := rfl
@[simp] theorem grant_selft (k code : Nat) : (r.grant k code).c.selft = r.c.selft := rfl
@[simp] theorem grant_fuses (k code : Nat) : (r.grant k code).c.fuses = r.c.fuses := rfl
@[simp] theorem grant_cells (k code : Nat) : (r.grant k code).c.cells = r.c.cells := rfl
@[simp] theorem grant_crc (k code : Nat) : (r.grant k code).c.crc = r.c.crc := rfl
@[simp] theorem grant_lch (k code : Nat) : (r.grant k code).c.lch = r.c.lch := rfl
@[simp] theorem grant_mgA (k code : Nat) : (r.grant k code).c.mgA = r.c.mgA := rfl
@[simp] theorem grant_mgB (k code : Nat) : (r.grant k code).c.mgB = r.c.mgB := rfl
@[simp] theorem grant_clk (k code : Nat) : (r.grant k code).c.clk = r.c.clk := rfl
@[simp] theorem grant_thm (k code : Nat) : (r.grant k code).c.thm = r.c.thm := rfl
@[simp] theorem grant_mtr (k code : Nat) : (r.grant k code).c.mtr = r.c.mtr := rfl
@[simp] theorem grant_stage (k code : Nat) : (r.grant k code).c.stage = r.c.stage := rfl
@[simp] theorem grant_jtag (k code : Nat) : (r.grant k code).c.jtag = r.c.jtag := rfl
@[simp] theorem grant_win (k code : Nat) : (r.grant k code).c.win = r.c.win := rfl
@[simp] theorem grant_rjob (k code : Nat) : (r.grant k code).c.rjob = r.c.rjob := rfl
@[simp] theorem grant_rebuild (k code : Nat) : (r.grant k code).c.rebuild = r.c.rebuild := rfl
@[simp] theorem grant_cdrainBusy (k code : Nat) : (r.grant k code).c.cdrainBusy = r.c.cdrainBusy := rfl
@[simp] theorem grant_pwrGood (k code : Nat) : (r.grant k code).c.pwrGood = r.c.pwrGood := rfl
@[simp] theorem grant_vaux (k code : Nat) : (r.grant k code).c.vaux = r.c.vaux := rfl
@[simp] theorem grant_railLow (k code : Nat) : (r.grant k code).c.railLow = r.c.railLow := rfl
@[simp] theorem grant_winLockArmed (k code : Nat) : (r.grant k code).c.winLockArmed = r.c.winLockArmed := rfl
@[simp] theorem grant_used (k code : Nat) : (r.grant k code).c.used = (k, code) :: r.c.used := rfl
@[simp] theorem grant_out (k code : Nat) : (r.grant k code).c.out = r.c.out := rfl

/-! ## `vector` -/

@[simp] theorem vector_m (v : Nat) : (r.vector v).m = r.m := rfl
@[simp] theorem vector_log (v : Nat) : (r.vector v).log = r.log := rfl
@[simp] theorem vector_now (v : Nat) : (r.vector v).c.now = r.c.now := rfl
@[simp] theorem vector_cc (v : Nat) : (r.vector v).c.cc = r.c.cc := rfl
@[simp] theorem vector_ft (v : Nat) : (r.vector v).c.ft = r.c.ft := rfl
@[simp] theorem vector_ftCore (v : Nat) : (r.vector v).c.ftCore = r.c.ftCore := rfl
@[simp] theorem vector_ftNext (v : Nat) : (r.vector v).c.ftNext = r.c.ftNext := rfl
@[simp] theorem vector_ftHand (v : Nat) : (r.vector v).c.ftHand = r.c.ftHand := rfl
@[simp] theorem vector_wait (v : Nat) : (r.vector v).c.wait = r.c.wait := rfl
@[simp] theorem vector_fly (v : Nat) : (r.vector v).c.fly = r.c.fly := rfl
@[simp] theorem vector_flyNo (v : Nat) : (r.vector v).c.flyNo = r.c.flyNo := rfl
@[simp] theorem vector_lanes (v : Nat) : (r.vector v).c.lanes = r.c.lanes := rfl
@[simp] theorem vector_xings (v : Nat) : (r.vector v).c.xings = r.c.xings := rfl
@[simp] theorem vector_cdrainDone (v : Nat) : (r.vector v).c.cdrainDone = r.c.cdrainDone := rfl
@[simp] theorem vector_csweepBusy (v : Nat) : (r.vector v).c.csweepBusy = r.c.csweepBusy := rfl
@[simp] theorem vector_lapNo (v : Nat) : (r.vector v).c.lapNo = r.c.lapNo := rfl
@[simp] theorem vector_slots (v : Nat) : (r.vector v).c.slots = r.c.slots := rfl
@[simp] theorem vector_free (v : Nat) : (r.vector v).c.free = r.c.free := rfl
@[simp] theorem vector_rooms (v : Nat) : (r.vector v).c.rooms = r.c.rooms := rfl
@[simp] theorem vector_porches (v : Nat) : (r.vector v).c.porches = r.c.porches := rfl
@[simp] theorem vector_chans (v : Nat) : (r.vector v).c.chans = r.c.chans := rfl
@[simp] theorem vector_doors (v : Nat) : (r.vector v).c.doors = r.c.doors := rfl
@[simp] theorem vector_hall (v : Nat) : (r.vector v).c.hall = r.c.hall := rfl
@[simp] theorem vector_fab (v : Nat) : (r.vector v).c.fab = r.c.fab := rfl
@[simp] theorem vector_time (v : Nat) : (r.vector v).c.time = r.c.time := rfl
@[simp] theorem vector_fbx (v : Nat) : (r.vector v).c.fbx = r.c.fbx := rfl
@[simp] theorem vector_tt (v : Nat) : (r.vector v).c.tt = r.c.tt := rfl
@[simp] theorem vector_mod (v : Nat) : (r.vector v).c.mod = r.c.mod := rfl
@[simp] theorem vector_img (v : Nat) : (r.vector v).c.img = r.c.img := rfl
@[simp] theorem vector_selft (v : Nat) : (r.vector v).c.selft = r.c.selft := rfl
@[simp] theorem vector_fuses (v : Nat) : (r.vector v).c.fuses = r.c.fuses := rfl
@[simp] theorem vector_cells (v : Nat) : (r.vector v).c.cells = r.c.cells := rfl
@[simp] theorem vector_crc (v : Nat) : (r.vector v).c.crc = r.c.crc := rfl
@[simp] theorem vector_lch (v : Nat) : (r.vector v).c.lch = r.c.lch := rfl
@[simp] theorem vector_mgA (v : Nat) : (r.vector v).c.mgA = r.c.mgA.raise v := rfl
@[simp] theorem vector_mgB (v : Nat) : (r.vector v).c.mgB = r.c.mgB.raise v := rfl
@[simp] theorem vector_clk (v : Nat) : (r.vector v).c.clk = r.c.clk := rfl
@[simp] theorem vector_thm (v : Nat) : (r.vector v).c.thm = r.c.thm := rfl
@[simp] theorem vector_mtr (v : Nat) : (r.vector v).c.mtr = r.c.mtr := rfl
@[simp] theorem vector_stage (v : Nat) : (r.vector v).c.stage = r.c.stage := rfl
@[simp] theorem vector_jtag (v : Nat) : (r.vector v).c.jtag = r.c.jtag := rfl
@[simp] theorem vector_win (v : Nat) : (r.vector v).c.win = r.c.win := rfl
@[simp] theorem vector_rjob (v : Nat) : (r.vector v).c.rjob = r.c.rjob := rfl
@[simp] theorem vector_rebuild (v : Nat) : (r.vector v).c.rebuild = r.c.rebuild := rfl
@[simp] theorem vector_cdrainBusy (v : Nat) : (r.vector v).c.cdrainBusy = r.c.cdrainBusy := rfl
@[simp] theorem vector_pwrGood (v : Nat) : (r.vector v).c.pwrGood = r.c.pwrGood := rfl
@[simp] theorem vector_vaux (v : Nat) : (r.vector v).c.vaux = r.c.vaux := rfl
@[simp] theorem vector_railLow (v : Nat) : (r.vector v).c.railLow = r.c.railLow := rfl
@[simp] theorem vector_winLockArmed (v : Nat) : (r.vector v).c.winLockArmed = r.c.winLockArmed := rfl
@[simp] theorem vector_used (v : Nat) : (r.vector v).c.used = r.c.used := rfl
@[simp] theorem vector_out (v : Nat) : (r.vector v).c.out = r.c.out := rfl

/-! ## Transfers and crossings: what each changes is one field -/

@[simp] theorem post_c (k code : Nat) (x : Load) (q : Option Src) :
    (r.post k code x q).c = { r.c with wait := r.c.wait ++ [{ k := k, code := code, load := x, retire := q }] } := rfl
@[simp] theorem post_m (k code : Nat) (x : Load) (q : Option Src) : (r.post k code x q).m = r.m := rfl
@[simp] theorem post_log (k code : Nat) (x : Load) (q : Option Src) : (r.post k code x q).log = r.log := rfl
@[simp] theorem cross_c (i : XingId) (n : Nat) :
    (r.cross i n).c = { r.c with xings := r.c.xings.mod i fun x => x.send n } := rfl
@[simp] theorem cross_m (i : XingId) (n : Nat) : (r.cross i n).m = r.m := rfl
@[simp] theorem cross_log (i : XingId) (n : Nat) : (r.cross i n).log = r.log := rfl
@[simp] theorem took_c (i : XingId) (n : Nat) :
    (r.took i n).c = { r.c with xings := r.c.xings.mod i fun x => x.took n } := rfl
@[simp] theorem took_m (i : XingId) (n : Nat) : (r.took i n).m = r.m := rfl
@[simp] theorem took_log (i : XingId) (n : Nat) : (r.took i n).log = r.log := rfl

end Sys2Proof.Laws
end

