-- ==== Sys2Proof/Laws/Ops.lean ====
section
/-! SUPPORT. What the shared operations do, each said once: store operations and the canonical form, registers and
counts, events, interrupts, slots, table switches, and what a command that touches no line leaves. -/
namespace Sys2Proof.Laws
open Sys2Proof Sys2Proof.Machine Sys2Proof.Safety

/-! ## Store operations keep the canonical form -/

/-- Every store operation keeps the canonical form of every table. -/
theorem apply_wf (m : Stores) (o : StoreOp) (h : Memory.wf m) : Memory.wf (m.apply o) := by
  unfold Memory.wf at h
  casesm* _ ∧ _
  cases o with
  | drop t lo hi => cases t <;> and_intros <;> first | assumption | exact mwf_mdrop (by assumption)
  | _ =>
    and_intros <;>
      first | assumption | exact mwf_mset (f := regReset) (by assumption) | exact mwf_mset (f := fun _ => _) (by assumption)

theorem applyAll_wf (os : List StoreOp) : ∀ m : Stores, Memory.wf m → Memory.wf (m.applyAll os) := by
  induction os with
  | nil => intro m h; exact h
  | cons o os ih => intro m h; exact ih _ (apply_wf m o h)

/-- The stores of a command's next state are canonical when those it began with are. -/
theorem finish_wf (s : State) (r : Run) (h : storesWf s) : storesWf (Run.finish s r) := applyAll_wf _ _ h

/-- The stores after reset are canonical. -/
theorem reset_wf : storesWf State.reset := by decide

/-- The stores of a command at work are its operations carried out on the stores it began with. -/
def faithful (s : State) (r : Run) : Prop := r.m = s.m.applyAll r.log.reverse

theorem faithful_start (s : State) : faithful s (Run.start s) := rfl

theorem faithful_st (s : State) (r : Run) (o : StoreOp) (h : faithful s r) : faithful s (r.st o) := by
  simp only [faithful, st_m, st_log, List.reverse_cons, Stores.applyAll, List.foldl_append, List.foldl_cons,
    List.foldl_nil] at h ⊢
  rw [h]

/-- Then the next state's stores are those the command saw last. -/
theorem finish_m_of_faithful (s : State) (r : Run) (h : faithful s r) : (Run.finish s r).m = r.m := h.symm

/-- A command that logs no store operation leaves the stores alone. -/
theorem finish_m_nil (s : State) (r : Run) (h : r.log = []) : (Run.finish s r).m = s.m := by
  simp [h, Stores.applyAll]

/-! ## Registers keep their implemented bits -/

theorem mem_merase {α : Type} {t : SMap α} {k : Nat} {e : Nat × α} (h : e ∈ merase t k) : e ∈ t := by
  induction t with
  | nil => exact h
  | cons x r ih =>
    obtain ⟨i, u⟩ := x
    unfold merase at h
    split at h
    · exact List.mem_cons_of_mem _ h
    · rcases List.mem_cons.mp h with rfl | h
      · simp
      · exact List.mem_cons_of_mem _ (ih h)

theorem mem_minsert {α : Type} {t : SMap α} {k : Nat} {v : α} {e : Nat × α} (h : e ∈ minsert t k v) : e = (k, v) ∨ e ∈ t := by
  induction t with
  | nil => left; simpa [minsert] using h
  | cons x r ih =>
    obtain ⟨i, u⟩ := x
    unfold minsert at h
    split at h
    · rcases List.mem_cons.mp h with rfl | h
      · exact Or.inl rfl
      · exact Or.inr h
    · split at h
      · rcases List.mem_cons.mp h with rfl | h
        · exact Or.inl rfl
        · exact Or.inr (List.mem_cons_of_mem _ h)
      · rcases List.mem_cons.mp h with rfl | h
        · exact Or.inr (by simp)
        · rcases ih h with h | h
          · exact Or.inl h
          · exact Or.inr (List.mem_cons_of_mem _ h)

/-- Every store operation keeps each register within its implemented bits (R452). -/
theorem apply_masked (m : Stores) (o : StoreOp) (h : ∀ e ∈ m.regs, e.2 &&& regMask e.1 = e.2) :
    ∀ e ∈ (m.apply o).regs, e.2 &&& regMask e.1 = e.2 := by
  cases o with
  | reg a v =>
    intro e he
    have he : e ∈ mset (regReset a) m.regs a (v &&& regMask a) := he
    unfold mset at he
    split at he
    · exact h e (mem_merase he)
    · rcases mem_minsert he with rfl | he
      · simp [BitVec.and_assoc]
      · exact h e he
  | drop t lo hi =>
    cases t with
    | regs => intro e he; exact h e (List.mem_of_mem_filter he)
    | _ => exact h
  | _ => exact h

theorem applyAll_masked (os : List StoreOp) : ∀ m : Stores, (∀ e ∈ m.regs, e.2 &&& regMask e.1 = e.2) →
    ∀ e ∈ (m.applyAll os).regs, e.2 &&& regMask e.1 = e.2 := by
  induction os with
  | nil => intro m h; exact h
  | cons o os ih => intro m h; exact ih _ (apply_masked m o h)

/-! ## Registers and counts -/

/-- A register write leaves every other register alone. -/
theorem reg_setReg_ne (r : Run) {a b v : Nat} (h : b ≠ a) : (r.setReg a v).reg b = r.reg b := by
  have e : (r.setReg a v).m.reg b = r.m.reg b := mget_mset_ne h
  exact congrArg BitVec.toNat e

/-- A register write stores the implemented bits. -/
theorem reg_setReg_self (r : Run) {a v : Nat} (h : mwf regReset r.m.regs = true) :
    (r.setReg a v).m.reg a = w32 v &&& regMask a := mget_mset_self h

/-- Tables other than the registers are not touched by a register write. -/
theorem setReg_tables (r : Run) (a v : Nat) : (r.setReg a v).m = { r.m with regs := (r.setReg a v).m.regs } := rfl

theorem count32_m (r : Run) (a n : Nat) : r.count32 a n = r.setReg a (min 0xFFFFFFFF (r.reg a + n)) := rfl
theorem count16_m (r : Run) (a n : Nat) : r.count16 a n = r.setReg a (min 0xFFFF (r.reg a + n)) := rfl
@[simp] theorem peak_c (r : Run) (a v : Nat) : (r.peak a v).c = r.c := by unfold Run.peak; split <;> rfl

/-! ## Commands that touch no line, tag or key -/

/-- Operations on registers, counts, meters and histograms. -/
def cellFree : StoreOp → Bool
  | .reg _ _ | .mtr _ _ | .hist _ _ | .pmc _ _ | .occ _ _ | .occFt _ _ | .pmcPrev _ _ => true
  | _ => false

/-- The tables that hold lines, tags, Screen and directory entries, keys and frames, as one value. -/
def cellTables (m : Stores) :=
  ((m.dram, m.remap), (m.tags, m.plru, m.pan), (m.scn, m.dir), m.keys, m.frames)

theorem apply_cells (m : Stores) (o : StoreOp) (h : cellFree o = true) : cellTables (m.apply o) = cellTables m := by
  cases o <;> first | rfl | simp [cellFree] at h

theorem applyAll_cells (os : List StoreOp) :
    ∀ m : Stores, (∀ o ∈ os, cellFree o = true) → cellTables (m.applyAll os) = cellTables m := by
  induction os with
  | nil => intro m _; rfl
  | cons o os ih =>
    intro m h
    exact (ih _ fun x hx => h x (List.mem_cons_of_mem _ hx)).trans (apply_cells m o (h o List.mem_cons_self))

/-- A command whose log holds such operations only keeps every line, tag, key and directory entry. -/
theorem keepsCells_of_log (s : State) (r : Run) (h : ∀ o ∈ r.log, cellFree o = true) : keepsCells s (Run.finish s r) := by
  have e := applyAll_cells r.log.reverse s.m (by simpa using h)
  simp only [cellTables, Prod.mk.injEq] at e
  unfold keepsCells
  simp only [finish_m]
  tauto

/-! ## Events and interrupts -/

/-- An event of a unit that is not fenced is reported, with the time and FT of its detection, and nothing else
changes. -/
theorem report_open (r : Run) (e : Event) (h : ∀ u, evUnit e.src e.sub = some u → r.fenced u = false) :
    r.report e = r.modFbx fun f => { f with reported := f.reported ++ [r.stamped e] } := by
  unfold Run.report
  cases hu : evUnit e.src e.sub with
  | none => simp
  | some u => simp [h u hu]

/-- Whatever the event, a report changes only the Fuse box, or counts the masked event. -/
theorem report_cases (r : Run) (e : Event) :
    r.report e = r.count32 0x10020 1 ∨
      r.report e = r.modFbx fun f => { f with reported := f.reported ++ [r.stamped e] } := by
  unfold Run.report
  by_cases h : (e.code ≠ Code.wgFail && e.code ≠ Code.lineLost && e.code ≠ Code.twinDegraded && match evUnit e.src e.sub with
    | some u => r.fenced u
    | none => false) = true
  · exact Or.inl (if_pos h)
  · exact Or.inr (if_neg h)

/-- A source that no fence covers always reports. -/
theorem sysEvent_open (r : Run) {src code cause : Nat} {addr : Option PoolAddr} {path : List UnitNo} {mKind mId : Nat}
    (h : 36 ≤ src) : r.sysEvent src code cause addr path mKind mId = r.modFbx fun f =>
      { f with reported := f.reported ++ [r.stamped { code := code, src := src, cause := cause, addr := addr,
                                                       path := path, mKind := mKind, mId := mId }] } := by
  apply report_open
  intro u hu
  have : evUnit src 0 = none := by
    unfold evUnit
    rw [if_neg (by omega), if_neg (by omega), if_neg (by omega), if_neg (by omega)]
  rw [show evUnit _ _ = evUnit src 0 from rfl, this] at hu
  exact absurd hu (by simp)

theorem mg_vector (r : Run) (v : Nat) (g : MgPort) : (r.vector v).mg g = (r.mg g).raise v := by cases g <;> rfl
theorem mg_modMg_self (r : Run) (g : MgPort) (f : Mg → Mg) : (r.modMg g f).mg g = f (r.mg g) := by cases g <;> rfl

/-! ## Slots -/

/-- In a slot that names the code, `inSlot` grants and runs; in any other it does nothing. -/
theorem inSlot_of_grant (r : Run) {k code : Nat} (f : Run → Run) (h : r.canGrant k code = true) :
    r.inSlot k code f = f (r.grant k code) := by unfold Run.inSlot; rw [if_pos h]
theorem inSlot_of_not (r : Run) {k code : Nat} (f : Run → Run) (h : r.canGrant k code = false) : r.inSlot k code f = r := by
  unfold Run.inSlot; rw [if_neg (by simp [h])]
/-- A calendar grants once in a cc. -/
theorem canGrant_grant (r : Run) (k code code' : Nat) : (r.grant k code).canGrant k code' = false := by
  simp [Run.canGrant, Run.unused, Run.grant]

/-! ## Vectors of like units -/

theorem setRoom_self (r : Run) (m : Fin 64) : r.setRoom m r.c.rooms[m] = r := by
  unfold Run.setRoom
  rw [show r.c.rooms.set m.val r.c.rooms[m] m.isLt = r.c.rooms from Vector.set_getElem_self m.isLt]
theorem setPorch_self (r : Run) (p : Fin 8) : r.setPorch p r.c.porches[p] = r := by
  unfold Run.setPorch
  rw [show r.c.porches.set p.val r.c.porches[p] p.isLt = r.c.porches from Vector.set_getElem_self p.isLt]
theorem setChan_self (r : Run) (c : Fin 16) : r.setChan c r.c.chans[c] = r := by
  unfold Run.setChan
  rw [show r.c.chans.set c.val r.c.chans[c] c.isLt = r.c.chans from Vector.set_getElem_self c.isLt]
theorem setDoor_self (r : Run) (d : Fin 8) : r.setDoor d r.c.doors[d] = r := by
  unfold Run.setDoor
  rw [show r.c.doors.set d.val r.c.doors[d] d.isLt = r.c.doors from Vector.set_getElem_self d.isLt]

@[simp] theorem room_modRoom_self (r : Run) (m : Fin 64) (f : Room → Room) : (r.modRoom m f).c.rooms[m] = f r.c.rooms[m] := by
  simp
@[simp] theorem porch_modPorch_self (r : Run) (p : Fin 8) (f : Porch → Porch) :
    (r.modPorch p f).c.porches[p] = f r.c.porches[p] := by simp
@[simp] theorem chan_modChan_self (r : Run) (c : Fin 16) (f : Chan → Chan) : (r.modChan c f).c.chans[c] = f r.c.chans[c] := by
  simp
@[simp] theorem door_modDoor_self (r : Run) (d : Fin 8) (f : Door → Door) : (r.modDoor d f).c.doors[d] = f r.c.doors[d] := by
  simp
theorem room_modRoom_ne (r : Run) {m n : Fin 64} (f : Room → Room) (h : n ≠ m) : (r.modRoom m f).c.rooms[n] = r.c.rooms[n] := by
  have : m.val ≠ n.val := fun e => h (Fin.ext e.symm)
  simp [this]
theorem porch_modPorch_ne (r : Run) {m n : Fin 8} (f : Porch → Porch) (h : n ≠ m) :
    (r.modPorch m f).c.porches[n] = r.c.porches[n] := by
  have : m.val ≠ n.val := fun e => h (Fin.ext e.symm)
  simp [this]
theorem chan_modChan_ne (r : Run) {m n : Fin 16} (f : Chan → Chan) (h : n ≠ m) : (r.modChan m f).c.chans[n] = r.c.chans[n] := by
  have : m.val ≠ n.val := fun e => h (Fin.ext e.symm)
  simp [this]
theorem door_modDoor_ne (r : Run) {m n : Fin 8} (f : Door → Door) (h : n ≠ m) : (r.modDoor m f).c.doors[n] = r.c.doors[n] := by
  have : m.val ≠ n.val := fun e => h (Fin.ext e.symm)
  simp [this]

end Sys2Proof.Laws
end

