-- ==== Sys2Proof/Laws/Porch.lean ====
section
/-! SUPPORT. What a completion at a Porch sets going: nothing, when the Porch is quiet. -/
namespace Sys2Proof.Laws
open Sys2Proof Sys2Proof.Machine Sys2Proof.Safety

/-- With no request buffered, there is nothing to let in. -/
theorem pump_quiet (r : Run) (p) (h : ∀ k : Fin 2, (r.c.porches[p]).links[k].buf = []) : r.pump p = r := by
  have h0 := h 0; have h1 := h 1
  have key : ∀ (r : Run) (k : Fin 2), (r.c.porches[p]).links[k].buf = [] → r.modLink p k (fun l => { l with buf := [] }) = r := by
    intro r k hk
    have hl : ∀ l : Link, l.buf = [] → { l with buf := [] } = l := by intro l h; cases l; simp_all
    unfold Run.modLink Run.modPorch
    show r.setPorch p { r.c.porches[p] with links := r.c.porches[p].links.set k.val { r.c.porches[p].links[k] with buf := [] } k.isLt } = r
    rw [hl _ hk, show r.c.porches[p].links.set k.val r.c.porches[p].links[k] k.isLt = r.c.porches[p].links from Vector.set_getElem_self k.isLt]
    exact setPorch_self r p
  unfold Run.pump
  split
  · simp only [Run.forEach, allLinks, List.foldl_cons, List.foldl_nil, Run.link, Run.porch]
    rw [h0, List.foldl_nil, key r 0 h0, h1, List.foldl_nil, key r 1 h1]
  · rfl

/-- A Porch that an update leaves as it was is the same Porch. -/
theorem modPorch_fix (r : Run) (p) (f : Porch → Porch) (h : f r.c.porches[p] = r.c.porches[p]) : r.modPorch p f = r := by
  show r.setPorch p (f r.c.porches[p]) = r
  rw [h]; exact setPorch_self r p

/-- With no barrier, none ends. -/
theorem barCheck_quiet (r : Run) (p) (h : (r.c.porches[p]).bars = []) : r.barCheck p = r := by
  have e1 : r.barSweep p = r := modPorch_fix r p _ (by rw [h, List.map_nil, ← h])
  have e2 : r.barMet p = r := modPorch_fix r p _ (by rw [h, List.map_nil, ← h])
  unfold Run.barCheck
  rw [e1, e2]
  show Run.forEach r (r.c.porches[p]).bars _ = r
  rw [h]; rfl

/-- With every waiting request counted already, none is newly held. -/
theorem ordHolds_quiet (r : Run) (p) (h : ∀ e ∈ (r.c.porches[p]).store, Ent.mayBeHeld e = false) : r.ordHolds p = r := by
  unfold Run.ordHolds
  refine if_pos ?_
  rw [List.length_eq_zero_iff, List.filter_eq_nil_iff]
  intro e he
  have := h e he
  unfold Ent.mayBeHeld at this
  simp only [Bool.and_eq_true, this, false_and, Bool.false_eq_true, not_false_eq_true]

/-- With no reservation operation in the store, none is finished. -/
theorem rsvFlush_quiet (r : Run) (p) (h : ∀ e ∈ (r.c.porches[p]).store, ∀ uid p' k slot, e.item.src ≠ .rsv uid p' k slot) : r.rsvFlush p = r := by
  unfold Run.rsvFlush Run.forEach
  have : ∀ (es : List Ent) (r0 : Run), (∀ e ∈ es, ∀ uid p' k slot, e.item.src ≠ .rsv uid p' k slot) → es.foldl (fun r e => match e.ans, e.item.src with
    | some a, .rsv _ _ k slot =>
      if !e.sent && (r.porch p).inTurn e then
        let r := r.modEnt p e.uid fun e => { e with sent := true }
        r.rsvFinish p k slot e.item.op a e.gone
      else r
    | _, _ => r) r0 = r0 := by
    intro es; induction es with
    | nil => intro r0 _; rfl
    | cons e es ih =>
      intro r0 he
      rw [List.foldl_cons]
      have h1 := he e (by simp)
      have : (match e.ans, e.item.src with
        | some a, .rsv _ _ k slot =>
          if !e.sent && (r0.porch p).inTurn e then
            let r := r0.modEnt p e.uid fun e => { e with sent := true }
            r.rsvFinish p k slot e.item.op a e.gone
          else r0
        | _, _ => r0) = r0 := by
        split
        · next a _ _ k slot _ h2 => exact absurd h2 (h1 _ _ _ _)
        · rfl
      rw [this]
      exact ih r0 (fun e he' => he e (by simp [he']))
  exact this _ r h

/-- At a quiet Porch a completion sets nothing else going. -/
theorem settle_quiet (r : Run) (p) (h1 : ∀ k : Fin 2, (r.c.porches[p]).links[k].buf = []) (h2 : (r.c.porches[p]).bars = [])
  (h3 : ∀ e ∈ (r.c.porches[p]).store, ∀ uid p' k slot, e.item.src ≠ .rsv uid p' k slot)
  (h4 : ∀ e ∈ (r.c.porches[p]).store, Ent.mayBeHeld e = false) : r.porchSettle p = r := by
  rw [Run.porchSettle, rsvFlush_quiet r p h3, ordHolds_quiet r p h4, barCheck_quiet r p h2, pump_quiet r p h1]

end Sys2Proof.Laws
end

