-- ==== Sys2Proof/WellFormed.lean ====
section
/-! DEFINITION. What the operands of a command must meet, as one decidable check. -/
namespace Sys2Proof

/-- A host request names a 64-byte chunk (R332). -/
def HostReq.wf (q : HostReq) : Bool := q.hpa.toNat % 64 == 0

/-- A line has 160 symbols (R246). -/
def ErrPat.wf (e : ErrPat) : Bool := e.syms.all fun s => decide (s.1 < 160)

/-- A command that names a register names its word, in the window of 64 MB (R441); a plain write may name any byte
(R451). -/
def wordAddr (a : BitVec 26) : Bool := a.toNat % 4 == 0

/-- The command's operands are ones that the outside world can send. -/
def Instr.wf : Instr → Bool
  | .memRd q | .memRdData q | .memWr q | .memWrPtl q | .memInv q | .memClnEvct q | .memSpecRd q => q.wf
  | .biRsp _ _ h blk _ => h.toNat % (if blk then 256 else 64) == 0
  | .biConflict _ _ h => h.toNat % 64 == 0
  | .tagRebuild _ es => es.toList.all ErrPat.wf
  | .cellarReadDone _ _ e | .scrubRead _ _ _ e | .resilverRead e | .sweepRead _ _ _ e => e.wf
  | .frameStart _ c => decide (c < 5)
  | .seqGap _ c => decide (c < 3)
  | .thermostatWake kind n => decide (n.val < kind.count)
  | .hostViewWrite _ _ o _ => o.toNat % 4 == 0
  | .mailboxCommand _ _ c => decide (c.payload.length ≤ 512)
  | .windowSegmentWrite _ a _ _ =>
    wordAddr a && decide (0x80000 ≤ a.toNat ∧ a.toNat < 0x88000 ∧ 0x800 ≤ a.toNat % 0x1000 ∧ a.toNat % 0x1000 < 0xC00)
  | .regionEntryWrite _ a _ _ => wordAddr a && decide (0x1000000 ≤ a.toNat ∧ a.toNat < 0x2000000)
  | .classEntryWrite _ a _ _ => wordAddr a && decide (0xC00000 ≤ a.toNat ∧ a.toNat < 0xC01000)
  | .waydisWrite _ a _ _ => wordAddr a && decide (0x400000 ≤ a.toNat ∧ a.toNat < 0x800000)
  | .modeRequest _ a _ | .unfenceRequest _ a _ | .devReset _ a _ | .imgLoadGo _ a _ | .spiCommand _ a _
  | .selftestGo _ a _ | .classDrainGo _ a _ | .flush _ a _ | .resilver _ a _ | .rebuildGo _ a _
  | .ttForceGo _ a _ | .fbxInject _ a _ | .recheckGo _ a _ | .rearm _ a _ | .commitGo _ a _
  | .pmcFreezeWrite _ a _ | .histogramSnapshot _ a _ | .winLockWrite _ a _ | .thmSelWrite _ a _ => wordAddr a
  | .smbSetPointer _ a _ | .smbWrite _ a _ _ => decide (a.toNat < 2 ^ 26) && a.toNat % 4 == 0
  | _ => true

end Sys2Proof
end

