-- ==== Sys2Proof/Tests/Slice0.lean ====
section
/-! SUPPORT. Tests: for every statement with hypotheses a state that meets them (`wit_…`), the spec's worked examples, the
WellFormed smoke tests, and reset. Every test is one step or less, on a small state. -/
namespace Sys2Proof.Tests
open Sys2Proof Sys2Proof.Machine Sys2Proof.Safety Sys2Proof.Claim
set_option Elab.async false

/-! ## Small states -/

/-- A state with these registers and this control state. -/
def stt (rs : SMap Word) (c : Ctl) : State := { c := c, m := { regs := rs } }
/-- A House in RUN whose Timetable runs. -/
def inRun : Ctl := { mod := { mode := .run }, tt := { run := true } }
def inMode (m : Mode) : Ctl := { mod := { mode := m } }
/-- Calendar k has a slot for code in this cc. -/
def slot (k code : Nat) (c : Ctl) : Ctl := { c with slots := [(k, code)] }
/-- Calendar k of the running table names code in slot 0, with this second word. -/
def names (k code : Nat) (w2 : Nat := 0) : SMap Word :=
  [(0x801000 + 4 * k, 0x80000000), (0x820000, w32 (0xFFFFFF00 + code)), (0x820004, w32 w2)]
def inPorch (c : Ctl) (x : Porch) (p : Fin 8 := 0) : Ctl := { c with porches := c.porches.set p.val x p.isLt }
def inRoom (c : Ctl) (x : Room) (m : Fin 64 := 0) : Ctl := { c with rooms := c.rooms.set m.val x m.isLt }
def inChan (c : Ctl) (x : Chan) (n : Fin 16 := 0) : Ctl := { c with chans := c.chans.set n.val x n.isLt }
def inDoor (c : Ctl) (x : Door) (d : Fin 8 := 0) : Ctl := { c with doors := c.doors.set d.val x d.isLt }
def inPeer (c : Ctl) (x : Peer) (e : Fin 64 := 1) : Ctl :=
  { c with fab := { c.fab with peers := c.fab.peers.set e.val x e.isLt } }
/-- A link that is up, with one decoder that maps host address 0 on. -/
def link1 : Link :=
  { up := true, decs := (Vector.replicate 8 {}).set 0 { committed := true, hpaBase := 0, size := 0x1000000000, iw := 1, ig := 256, dpaBase := 0 } }
def porch1 (store : List Ent := []) : Porch := { opened := true, links := (Vector.replicate 2 {}).set 0 link1, store := store }
/-- Window segment 0 of Porch 0, and region 0 of the given attribute word, with this House its home. -/
def seg0 : SMap Word := [(0x80800, 0x80000000), (0x80804, 16), (0x80808, 0)]
def rgn0 (attr : Word) (more : Word := 0) (place : Word := 0) : SMap Word := [(0x1000000, attr), (0x1000004, more), (0x1000008, place)]
def req0 : HostReq :=
  { p := 0, k := 0, tag := 7, hpa := 0x40, meta' := .noOp, data := 5, be := 3, poison := false, tee := false, rsvd := false }

/-! ## Witnesses: Porch -/

def tn5 : SMap Word := [(0xC10050, 0xFF01)]
def wAdmit (attr : Word) : State := stt (seg0 ++ rgn0 attr 5 ++ tn5) (inPorch inRun porch1)
def attr5 (stream : Bool) : Attr := { kind := 1, stream := stream, tenant := 5 }
def it0 : Item := { src := .host 0 0 0, op := .memRd, pa := 0x40, attr := { kind := 1 } }
def itWr : Item := { it0 with op := .memWr, data := 9, mask := 0xFF }
def ent0 : Ent := { uid := 0, k := 0, tag := 7, hpa := 0x40, item := it0, room := 0, admitAt := 0 }
def land0 : Land := { seq := 4, line := 0, attr := attr5 true, oid := 0, mask := fullMask, room := 0 }

theorem wit_checked_request : ∀ op ∈ [ROp.memRd, .memRdData, .memInv, .memClnEvct, .memWr, .memWrPtl],
    let r := Run.start (wAdmit 1)
    (r.link 0 0).up = true ∧ r.mode ≠ .drain ∧ r.check req0 = .ok 0x40 (attr5 false) ∧ (r.porch 0).store.length < 2048 ∧
    r.oidWaits 0 (r.ordId 0 5 (paBlock 0x40)) = false ∧ toLanding op .noOp (attr5 false) = false ∧
    (r.porch 0).hasLand (paLine 0x40) = false ∧ req0.be ≠ 0 := by decide +kernel
theorem wit_spec_read : let s := wAdmit 1
    ((Run.start s).link req0.p req0.k).up = true ∧ (s.c.porches[req0.p]).opened = true ∧ s.c.mod.mode ≠ .safe ∧ req0.tee = false ∧
    req0.rsvd = false ∧ ((Run.start (stt [] inRun)).link req0.p req0.k).up = false := by decide +kernel
theorem wit_refused_read : let r := Run.start (wAdmit 1)
    (r.link 0 0).up = true ∧ r.mode ≠ .drain ∧ r.check { req0 with hpa := 0x2000000000 } = .fail 2 none := by decide +kernel
theorem wit_streaming_write : let r := Run.start (wAdmit 9)
    (r.link 0 0).up = true ∧ r.mode ≠ .drain ∧ r.check req0 = .ok 0x40 (attr5 true) ∧ (r.porch 0).store.length < 2048 ∧
    (r.porch 0).lands = [] ∧ takenIn (r.porch 0).lndFreed 0 0 < 128 ∧ ((r.porch 0).store.any fun e => e.landWait) = false ∧
    r.oidWaits 0 (r.ordId 0 5 (paBlock 0x40)) = false ∧ toLanding .memWr .noOp (attr5 true) = true := by decide +kernel
def entAgain : Ent := { ent0 with reissue := true }
def wInject (e : Ent) (code : Nat) : State := stt [] (slot 64 code (inPorch inRun (porch1 [e])))
theorem wit_injection : ∀ x ∈ [(ent0, 0), (entAgain, 0x55)], let r := Run.start (wInject x.1 x.2)
    ((r.porch 0).store.find? fun e => (if x.2 = 0x55 then e.reissue else e.item.attr.cls.toNat = x.2) && r.canInject 0 e) = some x.1 ∧
    ((r.porch 0).landSent.any fun d => r.canResend 0 d) = false ∧ slotFor (wInject x.1 x.2) 64 x.2 ∧ noBuffer (wInject x.1 x.2) 0 := by
  decide +kernel
def wDrain : State := stt [] { slot 64 0x54 (inPorch inRun { porch1 with lands := [land0] }) with cc := 5 }
theorem wit_landing_drain : let r := Run.start wDrain
    ((r.porch 0).landSent.any fun d => r.canResend 0 d) = false ∧ (r.porch 0).lands.find? (fun e => r.landEligible 0 e) = some land0 ∧
    slotFor wDrain 64 0x54 := by decide +kernel
def wAccept : State := stt [] (inPorch inRun { porch1 with lands := [{ land0 with draining := true }], lndAcks := [4] })
theorem wit_acceptance : (wAccept.c.porches[(0 : Fin 8)]).lndAcks = 4 :: [] ∧ quietPorch wAccept 0 := by
  refine ⟨by decide +kernel, by decide +kernel, by decide +kernel, by decide +kernel⟩
def entData : Ent := { ent0 with ans := some (.data 9 false), stage := .atPorch }
def entDone : Ent := { ent0 with ans := some .done, stage := .atPorch }
def wResponse (e : Ent) : State := stt [] (slot 184 0 (inPorch inRun (porch1 [e])))
theorem wit_response : (Run.start (wResponse entData)).nextResponse 0 0 = some (entData, .data 9 false) ∧
    (Run.start (wResponse entDone)).nextResponse 0 0 = some (entDone, .done) ∧ slotFor (wResponse entData) 184 0 ∧
    quietPorch (wResponse entData) 0 ∧ quietPorch (wResponse entDone) 0 := by decide +kernel
/-- A transfer that waits at Room 0's stop for a slot of code 0x56. -/
def xfer0 : Xfer := { k := 72, code := 0x56, load := .ans (.host 0 0 0) .done }
def wWait : State := stt [] { slot 72 0x56 inRun with wait := [xfer0] }
theorem wit_waiting_transfer : (Run.start wWait).nextXfer 72 0x56 = some xfer0 ∧
    (wWait.c.slots.find? fun y => y.1 = 72) = some (72, 0x56) ∧ xfer0.k = 72 ∧ xfer0.load = .ans (.host 0 0 0) .done ∧
    xfer0.retire = none := by decide +kernel
def flyOf (x : Load) (bad : Bool) : Fly := { no := 0, queued := false, k := 0, dst := 0, due := 0, load := x, bad := bad }
def wSent : State := stt [] (inPorch inRun (porch1 [{ ent0 with stage := .injected }]))
theorem wit_arrivals : (flyOf (.item 0 0 it0) false).bad = false ∧ (wSent.c.porches[(0 : Fin 8)]).store = [{ ent0 with stage := .injected }] ∧
    ent0.uid = 0 ∧ ent0.ans = none ∧ ent0.gone = false ∧ ent0.sent = false := by decide +kernel

/-! ## Witnesses: Rooms and the Cellar -/

def wHome (it : Item) : State := stt [] { slot 0 0x40 inRun with hall := [⟨0, 0, it⟩] }
theorem wit_home_entry : ∀ it ∈ [it0, itWr], let s := wHome it
    let r := Run.start s
    idleRoom s 0 ∧ (s.c.hall.find? fun h => h.p = (0 : Fin 8) && h.m = (0 : Fin 64)) = some ⟨0, 0, it⟩ ∧ slotFor s 0 0x40 ∧ it.meta' = .noOp ∧
    it.bcast = false ∧ it.attr.kind = kindDirect ∧ it.attr.mirror = false ∧ r.isHome (paBlock it.pa) = true ∧
    r.scnFind 0 (paGran it.pa) = none ∧ r.lostChan (r.homePlace (paBlock it.pa) (paLineNo it.pa)).1 = false := by
  decide +kernel
theorem wit_home_plain : ∀ it ∈ [it0, itWr], plainBlock (wHome it) 0 (paBlock it.pa) it.attr := by
  decide +kernel
def waiter0 : Waiter := { item := it0, why := .ready, ans := some (3, false) }
def wWaiter : State := stt [] (slot 0 0x51 (inRoom (inPorch inRun (porch1 [ent0])) { waiters := [waiter0] }))
theorem wit_answered_waiter : let r := Run.start wWaiter
    (wWaiter.c.rooms[(0 : Fin 64)]).waiters = [waiter0] ∧ quietRoom wWaiter 0 ∧ (wWaiter.c.rooms[(0 : Fin 64)]).trks = [] ∧
    r.ready 0 waiter0 = true ∧ slotFor wWaiter 0 0x51 ∧ waiter0.ans = some (3, false) := by decide +kernel
def mud0 : MudEnt := { idx := 0, line := 5, attr := { kind := 2 }, set := 0, way := 0, wmask := 1, data := 7 }
def wVictim : State := stt [] (slot 0 0x53 (inRoom inRun { mud := [mud0], returns := [.mud 0 0x100 false] }))
theorem wit_victim_line : let y := wVictim.c.rooms[(0 : Fin 64)]
    y.returns = .mud 0 0x100 false :: [] ∧ quietRoom wVictim 0 ∧ slotFor wVictim 0 0x53 ∧
    (y.mud.find? fun e => e.idx = 0 && e.st = .loading) = some mud0 ∧ y.trks = [] := by decide +kernel
def wRebuildTag : State := { stt [] (inRoom inRun { rebuilds := [{ set := 3, way := 2 }] }) with
  m := { tags := [(tagKey 0 3 2, { tag := 9, state := 2 })] } }
theorem wit_tag_rebuild : let r := Run.start wRebuildTag
    (wRebuildTag.c.rooms[(0 : Fin 64)]).rebuilds = { set := 3, way := 2 } :: [] ∧ r.fenced (unitRoom 0) = false ∧
    r.wayBusy 0 3 2 = false ∧ ∀ l : Fin 16, (r.shadowAt 0 3 2 l {}).all fun y => decide (y.1.state ≠ 2) := by decide +kernel
def celWr : CelCmd := { m := 0, idx := 16, write := true, pa := 0x40, tenant := 0, data := 6, md := { state := 1 } }
def celRd : CelCmd := { m := 0, idx := 16, write := false, pa := 0x40, tenant := 0, purpose := some (.item 0 it0 true) }
def wCel (x : CelCmd) (w2 : Nat) : State :=
  stt (names 160 0x80 w2) (slot 160 0x80 (inChan inRun { queue := [x], trained := true, ready := true }))
theorem wit_cellar_issue : ∀ x ∈ [(celWr, 128), (celRd, 0)], let s := wCel x.1 x.2
    let r := Run.start s
    r.fenced (unitChan 0) = false ∧ r.fenced 0 = false ∧ r.nextCmd 0 0 = some (0, x.1) ∧ slotFor s 160 0x80 := by decide +kernel
def lineOk : Line := { data := 11, md := { state := 1 } }
def celBack : CelCmd := { celRd with got := some lineOk }
def wCelBack : State := stt [] (inChan inRun { flight := [celBack] })
theorem wit_clean_read : let r := Run.start wCelBack
    (wCelBack.c.chans[(0 : Fin 16)]).flight = [celBack] ∧ r.fenced (unitChan 0) = false ∧ r.fenced (unitRoom 0) = false ∧
    wCelBack.c.tt.run = true ∧ celBack.got = some lineOk ∧ celBack.purpose = some (.item 0 it0 true) ∧ celBack.near = none ∧
    r.decode 0 ((wCelBack.c.chans[(0 : Fin 16)]).rankOf celBack.idx) lineOk {} = some lineOk ∧ lineOk.md.state = 1 := by decide +kernel
def camE : CamEnt := { line := 16, count := 3, st := .pending }
/-- An idle slot of a channel that a write, or a read, may take. -/
def wIdle (w2 : Nat) (x : Chan) : State := stt (names 160 0xFF w2) (slot 160 0xFF (inChan inRun { x with trained := true, ready := true }))
theorem wit_repeat_corrector : let s := wIdle 128 { cam := [camE] }
    let r := Run.start s
    r.fenced (unitChan 0) = false ∧ ((s.c.chans[(0 : Fin 16)]).cam.find? fun e => e.st = .pending && r.idleFits 0 true e.line) = some camE := by
  decide +kernel
theorem wit_poison_rewrite : let s := wIdle 128 { poisonQ := [16] }
    let r := Run.start s
    r.fenced (unitChan 0) = false ∧ ((s.c.chans[(0 : Fin 16)]).poisonQ.find? fun i => r.idleFits 0 true i) = some 16 := by decide +kernel
def wb0 : WbEnt := { idx := 0, line := 1, attr := { kind := 1 }, data := 3, mask := fullMask, home := true, needCel := true }
def wWb : State := stt [] { slot 72 0x57 (inRoom inRun { wbuf := [wb0] }) with cc := 100000 }
theorem wit_home_drain : let r := Run.start wWb
    (wWb.c.rooms[(0 : Fin 64)]).wbuf = [wb0] ∧ r.wbEligible 0 wb0 = true ∧ r.fenced (unitRoom 0) = false ∧ slotFor wWb 72 0x57 ∧
    wb0.home = true ∧ wb0.fwd = false ∧ wb0.mask = fullMask ∧
    r.lostChan (r.homePlace (lineBlk wb0.line) (lineNo wb0.line)).1 = false ∧ wb0.owners = [] := by decide +kernel

/-! ## Witnesses: messages of the fabric -/

/-- Door 0 leads to House 1, by route entry 1. -/
def door1 : Door := { up := true, trained := true, farId := 1, farV := true }
def rte1 : SMap Word := [(0x190004, 0x8)]
def mudRdy : MudEnt := { idx := 0, line := 0x400000000, attr := { kind := 2 }, set := 0, way := 0, st := .ready, data := 7 }
def wMud : State := stt rte1 { slot 72 0x58 (inDoor (inRoom inRun { mud := [mudRdy] }) door1) with cc := 100000 }
theorem wit_mudroom_line : let r := Run.start wMud
    (wMud.c.rooms[(0 : Fin 64)]).mud = [mudRdy] ∧ r.mudEligible 0 mudRdy = true ∧ r.fenced (unitRoom 0) = false ∧
    slotFor wMud 72 0x58 ∧ r.homeOf (lineBlk mudRdy.line) false = 1 ∧ (1 : BitVec 6) ≠ r.myId ∧ routed wMud 1 0 ∧
    mudRdy.owners = [] := by decide +kernel

def msg0 (op : BitVec 8) : FMsg :=
  { dst := 0, src := 1, hops := 1, op := op, eseq := 0, tag := 0x1234, addr := 2, tenant := 5, kind := 2, mirror := false,
    poison := false, noinst := false, twin := false, held := false, last := false, grant := 0, mask := 4, word4hi := 0,
    bmask := fullMask, line := 77 }
/-- A House with this message of House 1 delivered by Door 1, and a slot of code for Room 0. -/
def wFab (code : Nat) (rs : SMap Word) (f : FMsg) (y : Room := {}) : State :=
  stt (rs ++ rte1 ++ tn5) { slot 0 code (inDoor (inRoom (inPorch inRun porch1) y) door1) with fab := { inbox := [(f, 0, 1)] } }
def rgnPriv : SMap Word := rgn0 2 5 1
def rgnShared : SMap Word := rgn0 3 5 0

theorem wit_private_fill : ∀ op ∈ [Op.fillP, Op.rdU], let f := msg0 op
    let s := wFab 0x49 rgnPriv f
    let r := Run.start s
    delivered s f op 0 1 ∧ r.fabServes = true ∧ slotFor s (r.roomFor f).val 0x49 ∧ idleRoom s (r.roomFor f) ∧ r.fabFits f = true ∧
    (r.region (blkRegion (lineBlk f.addr))).attr.kind = kindPrivate ∧ f.twin = false ∧ f.mask = lineMask [lineNo f.addr] ∧
    r.lostChan (r.homePlace (lineBlk f.addr) (lineNo f.addr)).1 = false := by decide +kernel
def msgShared (op : BitVec 8) : FMsg := { msg0 op with kind := 3 }
theorem wit_shared_fill : ∀ op ∈ [Op.fillS, Op.fillO], let f := msgShared op
    let s := wFab 0x49 rgnShared f
    let r := Run.start s
    delivered s f op 0 1 ∧ r.fabServes = true ∧ slotFor s (r.roomFor f).val 0x49 ∧ idleRoom s (r.roomFor f) ∧ r.fabFits f = true ∧
    (r.region (blkRegion (lineBlk f.addr))).attr.kind = kindShared ∧ f.mask = lineMask [lineNo f.addr] ∧
    r.lostChan (r.homePlace (lineBlk f.addr) (lineNo f.addr)).1 = false ∧
    plainBlock s (r.roomFor f) (lineBlk f.addr) (r.region (blkRegion (lineBlk f.addr))).attr ∧ r.dirFind (r.roomFor f) (lineBlk f.addr) = none ∧
    ((List.range 16).find? fun w => (r.dir (r.roomFor f) (dirSet (lineBlk f.addr)) w).state = 0) = some 0 := by decide +kernel
def fUpg : FMsg := msgShared Op.upgrade
def dirE : DirEnt := { sharers := bit64 1, tag := dirTag (lineBlk 2), state := 2 }
def wUpgrade : State := let s := wFab 0x49 rgnShared fUpg
  { s with m := { s.m with dir := [(dirKey 0 (dirSet (lineBlk 2)) 3, dirE)] } }
theorem wit_upgrade : let f := fUpg
    let s := wUpgrade
    let r := Run.start s
    delivered s f Op.upgrade 0 1 ∧ r.fabServes = true ∧ slotFor s (r.roomFor f).val 0x49 ∧ idleRoom s (r.roomFor f) ∧ r.fabFits f = true ∧
    (r.region (blkRegion (lineBlk f.addr))).attr.kind = kindShared ∧ f.twin = false ∧
    plainBlock s (r.roomFor f) (lineBlk f.addr) (r.region (blkRegion (lineBlk f.addr))).attr ∧
    r.dirFind (r.roomFor f) (lineBlk f.addr) = some (3, dirE) ∧ dirE.sharers = bit64 f.src ∧ dirE.state = 2 ∧
    r.dead f.src = false := by decide +kernel
/-- A Mirror region of House 1 whose twin is this House. -/
def rgnTwin : SMap Word := [(0x1040000, 0x5), (0x1040004, 5), (0x1040008, 0)]
def msgMirror : FMsg := { msg0 Op.mirrorWr with kind := 1, mirror := true, addr := 0x400000002 }
theorem wit_remote_write : ∀ x ∈ [(msg0 Op.wrU, rgnPriv), (msg0 Op.wb, rgnPriv), (msgMirror, rgnTwin)], let f := x.1
    let s := wFab 0x49 x.2 f
    let r := Run.start s
    let a := (r.region (blkRegion (lineBlk f.addr))).attr
    delivered s f f.op 0 1 ∧ r.fabServes = true ∧ slotFor s (r.roomFor f).val 0x49 ∧ idleRoom s (r.roomFor f) ∧ r.fabFits f = true ∧
    (a.kind = kindPrivate ∨ f.op = Op.mirrorWr) ∧ f.twin = false ∧ (f.op ≠ Op.mirrorWr → a.mirror = false) ∧
    (f.op = Op.mirrorWr → r.isHome (lineBlk f.addr) = false) := by decide +kernel

def itFar : Item := { src := .host 0 0 0, op := .memRd, pa := 0x400000000240, attr := { kind := 2 } }
def entFar : Ent := { ent0 with item := itFar }
def trk0 (idx : Nat) : Trk := { idx := idx, blk := lineBlk 0x4000000002, attr := { kind := 2 } }
def fData : FMsg := { msg0 Op.data with tag := 0, addr := 0x4000000002 }
def trkData : Trk := { trk0 0 with pend := [(2, 500)] }
def wData : State := wFab 0x50 [] fData { trks := [trkData], waiters := [⟨itFar, .fill 0, none⟩] }
theorem wit_data : let f := fData
    let s := wData
    let y := s.c.rooms[msgRoom f]
    delivered s f Op.data 0 1 ∧ msgIdx f ≠ 1002 ∧ quietRoom s (msgRoom f) ∧ slotFor s (msgRoom f).val 0x50 ∧
    y.trks = [trkData] ∧ trkData.idx = msgIdx f ∧ trkData.blk = lineBlk f.addr ∧ trkData.pend = [(lineNo f.addr, 500)] ∧
    y.waiters = [⟨itFar, .fill trkData.idx, none⟩] ∧ y.wbuf = [] ∧ (Run.start s).scnFind (msgRoom f) (paGran itFar.pa) = none ∧
    paLine itFar.pa = f.addr := by decide +kernel
def fAckO : FMsg := { msg0 Op.ackO with tag := 0, addr := 0x4000000002 }
def trkOwn : Trk := { trk0 0 with grant := .asked }
def wAckO : State := wFab 0x49 [] fAckO { trks := [trkOwn] }
theorem wit_ack_o : let f := fAckO
    let s := wAckO
    let y := s.c.rooms[msgRoom f]
    delivered s f Op.ackO 0 1 ∧ quietRoom s (msgRoom f) ∧ slotFor s (msgRoom f).val 0x49 ∧
    y.trks = [trkOwn] ∧ trkOwn.idx = msgIdx f ∧ trkOwn.blk = lineBlk f.addr ∧ trkOwn.grant = .asked ∧ y.waiters = [] := by
  decide +kernel
def fWrAck : FMsg := { msg0 Op.wrAck with tag := mkTag 0 323, addr := 0x4000000002 }
def wbFwd : WbEnt := { idx := 3, line := 0x4000000002, attr := { kind := 2 }, st := .issued, needAck := true, fwd := true, srcs := [.host 0 0 0] }
def wWrAck : State := let s := wFab 0x49 [] fWrAck { wbuf := [wbFwd] }
  { s with c := inPorch s.c (porch1 [{ entFar with stage := .injected }]) }
theorem wit_wr_ack : let f := fWrAck
    let s := wWrAck
    let y := s.c.rooms[msgRoom f]
    delivered s f Op.wrAck 0 1 ∧ quietRoom s (msgRoom f) ∧ slotFor s (msgRoom f).val 0x49 ∧
    y.wbuf = [wbFwd] ∧ 320 ≤ msgIdx f ∧ msgIdx f = 320 + wbFwd.idx ∧ wbFwd.idx < 64 ∧ wbFwd.line = f.addr ∧ wbFwd.needCel = false ∧
    wbFwd.needTwin = false ∧ wbFwd.twinLater = false ∧ f.grant = 0 ∧ s.c.rjob.busy = false ∧
    (∀ n : Fin 64, (s.c.rooms[n]).jobs = []) ∧ ∀ q : Fin 8, (s.c.porches[q]).bars = [] := by decide +kernel
theorem wit_absent_snoop : ∀ op ∈ [Op.inv, Op.rcl], let f := msgShared op
    let s := wFab 0x49 [] f
    let r := Run.start s
    let m := r.roomFor f
    delivered s f op 0 1 ∧ slotFor s m.val 0x49 ∧ idleRoom s m ∧
    ((blkGrans (lineBlk f.addr)).all fun g => (r.scnFind m g).isNone) = true ∧ r.liveEnt m (lineBlk f.addr) = none := by
  decide +kernel
def cohHome (rcl : Bool) : Coh :=
  { idx := 2, blk := 0, job := .home 0 rcl false, invs := [{ house := 1, sentAt := 0, retryBy := 5, lostBy := 9 }] }
def fAnswer (op : BitVec 8) : FMsg := { msgShared op with tag := mkTag 0 386, held := true, last := true }
def wAnswer (rs : SMap Word) (f : FMsg) : State := wFab 0x49 rs f { cohs := [cohHome false] }
theorem wit_snoop_answer : ∀ op ∈ [Op.invAck, Op.recallAck, Op.invData, Op.recallData], let f := fAnswer op
    let s := wAnswer rgnShared f
    let y := s.c.rooms[msgRoom f]
    delivered s f op 0 1 ∧ (Run.start s).fenced (unitRoom (msgRoom f)) = false ∧ slotFor s (msgRoom f).val 0x49 ∧
    y.cohs = [cohHome false] ∧ 384 ≤ msgIdx f ∧ (cohHome false).idx = msgIdx f - 384 ∧ (cohHome false).blk = lineBlk f.addr ∧
    ((cohHome false).invs.any fun i => i.house = f.src) = true ∧ (cohHome false).job = .home 0 false false ∧ f.last = true ∧
    y.snoopQ = [] ∧ y.scnBad = [] ∧ y.wbuf = [] ∧ (Run.start s).wbFull (msgRoom f) = false ∧ y.rsvs = [] ∧
    ((Run.start s).attrOf (lineBlk f.addr)).mirror = false := by decide +kernel
def fHb : FMsg := { msg0 Op.heartbeat with mask := 7, word4hi := 3 }
theorem wit_heartbeat : let f := fHb
    let s := wFab 0x49 [] f
    delivered s f Op.heartbeat 0 1 ∧ f.src ≠ (Run.start s).myId ∧ (Run.start s).dead f.src = false ∧
    f.mask.toNat % 16 ≠ Mode.safe.code := by decide +kernel
def wHbSend : State := stt rte1 { inDoor inRun door1 with now := 100000000 }
theorem wit_heartbeat_send : let s := wHbSend
    let r := Run.start s
    r.mode.fabric = true ∧ (s.c.doors[(0 : Fin 8)]).up = true ∧ s.c.fab.hbAt + usec (r.fld 0x190110 9 0) ≤ s.c.now ∧
    ((List.range 64).filter fun e => e ≠ r.myId.toNat && (r.bit (0x190000 + 4 * e) 3 || r.bit (0x190000 + 4 * e) 7)) = [1] ∧
    routeTo s (BitVec.ofNat 6 1) 0 := by decide +kernel
def wSilent : State := stt [] { inPeer inRun { live := true } with now := 1000000000 }
theorem wit_silent_house : let s := wSilent
    let r := Run.start s
    r.mode.fabric = true ∧ (r.peer 1).live = true ∧ (r.peer 1).dead = false ∧ (r.peer 1).lastHb + usec (r.fld 0x190110 27 16) ≤ s.c.now ∧
    s.m.frames = [] ∧ ∀ m : Fin 64, idleRoom s m ∧ (s.c.rooms[m]).jobs = [] := by decide +kernel

/-! ## Witnesses: barriers, reservations, host links -/

def landOf (k : Fin 2) : Land := { land0 with links := [k] }
def wCovered (ls : List Land) : State := stt [] (inPorch inRun { porch1 with lands := ls })
theorem wit_barrier_reads : let x := (wCovered [landOf 0]).c.porches[(0 : Fin 8)]
    let y := (wCovered []).c.porches[(0 : Fin 8)]
    x.links[(0 : Fin 2)].up = true ∧ x.bars = [] ∧ x.covered 0 ≠ [] ∧ y.links[(0 : Fin 2)].up = true ∧ y.bars = [] ∧ y.covered 0 = [] ∧
    y.links[(1 : Fin 2)].up = false := by decide +kernel
def barOf (kind : BarKind) : Bar := { id := 3, k := 0, kind := kind, startAt := 0, by' := 50 }
def barSync : Bar := { barOf .sync with markers := 1#64 <<< 2 }
def wMarker : State := stt [] (inRoom (inPorch inRun { porch1 with bars := [barSync] }) { markers := [⟨3, 0, 0, none⟩] } 2)
theorem wit_last_marker : let y := wMarker.c.rooms[(2 : Fin 64)]
    (Run.start wMarker).fenced (unitRoom 2) = false ∧ y.markers = [⟨3, 0, 0, none⟩] ∧ y.wbuf = [] ∧
    (wMarker.c.porches[(0 : Fin 8)]).bars = [barSync] ∧ barSync.kind = .sync ∧ barSync.lands = [] ∧ barSync.uids = [] ∧
    barSync.risks = [] ∧ barSync.err = false ∧ barSync.markers = 1#64 <<< (2 : Fin 64).val ∧ wMarker.c.fbx.reported = [] := by
  decide +kernel
def barLate : Bar := { barOf .drain with lands := [4] }
def wLate : State := stt [] { inPorch inRun { porch1 with bars := [barLate], lands := [land0] } with now := 60 }
theorem wit_late_drain : let r := Run.start wLate
    let x := wLate.c.porches[(0 : Fin 8)]
    x.bars = [barLate] ∧ barLate.kind = .drain ∧ barLate.by' ≤ wLate.c.now ∧ barLate.ended = false ∧ x.lands = [land0] ∧
    barLate.lands = [land0.seq] ∧ r.landDead land0 = false ∧ r.mode ≠ .safe ∧ r.fenced (unitPorch 0) = false := by decide +kernel
def landFar : Land := { land0 with line := 0x4000000000, attr := { kind := 2, stream := true }, orphan := true }
def wDeadWrite : State := stt [] { inPeer (inPorch inRun { porch1 with lands := [landFar] }) { dead := true } 16 with now := 100000000000 }
theorem wit_lost_write : let r := Run.start wDeadWrite
    (wDeadWrite.c.porches[(0 : Fin 8)]).lands = [landFar] ∧ landFar.draining = false ∧ r.landDead landFar = true ∧
    (r.peer ((lineBlk landFar.line).extractLsb' 30 6)).deadAt + usec (r.fld (pchBase 0 + 0x508) 15 0) ≤ wDeadWrite.c.now ∧
    r.liveEnt (r.serving landFar.room) (lineBlk landFar.line) = none ∧ quietPorch wDeadWrite 0 ∧ r.fenced (unitPorch 0) = false := by
  decide +kernel
def entStuck : Ent := { ent0 with limitUs := 5 }
def entStall : Ent := { entData with stallUs := 5 }
def wWatch (e : Ent) : State := stt [] { inPorch inRun (porch1 [e]) with now := 100000000 }
theorem wit_watchdogs : let r := Run.start (wWatch entStuck)
    ((r.porch 0).store.find? fun e => e.ans.isNone && decide (e.admitAt + usec e.limitUs ≤ r.now)) = some entStuck ∧ r.mode ≠ .safe ∧
    r.fenced (unitPorch 0) = false ∧ ((wWatch entStall).c.porches[(0 : Fin 8)]).store = [entStall] ∧ entStall.ans.isSome = true ∧
    entStall.sent = false ∧ isRsv entStall.item.op = false ∧ entStall.stalled = false ∧
    entStall.answeredAt + usec entStall.stallUs ≤ (wWatch entStall).c.now := by decide +kernel
def wRsv : State := stt (seg0 ++ rgn0 1 5 ++ tn5) (inPorch inRun porch1)
theorem wit_reservation : let r := Run.start wRsv
    let x := wRsv.c.porches[(0 : Fin 8)]
    x.links[(0 : Fin 2)].up = true ∧ r.rsvSlot 0 4 = true ∧ (∀ m : Fin 64, (wRsv.c.rooms[m]).rsvs = []) ∧
    r.rsvCheck 0 0 (x.links[(0 : Fin 2)].rsv[(4 : Fin 32)]).dpa = .ok 0 (attr5 false) := by decide +kernel
theorem wit_reservation_words : let x := (wRsv.c.porches[(0 : Fin 8)]).links[(0 : Fin 2)]
    x.up = true ∧ (Run.start wRsv).rsvSlot 0 4 = true ∧ x.rsv[(4 : Fin 32)].stores = 0 ∧ (Run.start wRsv).fenced (unitPorch 0) = false := by
  decide +kernel
/-- Porch 0 is bifurcated: its links have 16 slots each. -/
def wBif : State := stt [(0x80000, 2)] (inPorch inRun porch1)
theorem wit_reservation_absent : (wBif.c.porches[(0 : Fin 8)]).links[(0 : Fin 2)].up = true ∧ (Run.start wBif).rsvSlot 0 16 = false ∧
    (Run.start wBif).rsvSlot 0 15 = true := by decide +kernel
def wRsvBusy : State := stt [] (inPorch inRun { porch1 with links := (Vector.replicate 2 {}).set 0 { link1 with
  rsv := (Vector.replicate 32 {}).set 4 { stores := 2 } } })
theorem wit_reservation_busy : let x := (wRsvBusy.c.porches[(0 : Fin 8)]).links[(0 : Fin 2)]
    x.up = true ∧ (Run.start wRsvBusy).rsvSlot 0 4 = true ∧ x.rsv[(4 : Fin 32)].stores ≠ 0 := by decide +kernel
def wLease : State := stt [] { inRoom inRun { rsvs := [⟨0, 0, 4, 0x40, 0, 10⟩] } with now := 20 }
theorem wit_lease : wLease.c.mod.mode ≠ .safe ∧ (wLease.c.rooms[(0 : Fin 64)]).rsvs = [⟨0, 0, 4, 0x40, 0, 10⟩] ∧ 10 ≤ wLease.c.now ∧
    (stt [] (inMode .safe)).c.mod.mode = .safe := by decide +kernel
def wTrain : State := stt [(0x80000, 1)] inRun
theorem wit_link_up : (Run.start wTrain).mayTrain 0 0 = true ∧ (wTrain.c.porches[(0 : Fin 8)]).links[(0 : Fin 2)].up = false ∧
    wTrain.c.jtag = .none := by decide +kernel
theorem wit_link_down : (wRsv.c.porches[(0 : Fin 8)]).links[(0 : Fin 2)].up = true ∧ quietPorch wRsv 0 ∧
    (Run.start wRsv).fenced (unitPorch 0) = false := by decide +kernel
/-- A link that supports back-invalidation, and a LINK0 capacity of 32 GiB. -/
def wHdm : State := stt [(0x80020, 32)] (inPorch inRun { porch1 with links := (Vector.replicate 2 {}).set 0 { up := true, biEn := true } })
def commit0 : HdmCommit := { n := 0, hpaBase := 0, size := 0x40000000, iw := 1, ig := 256, dpaSkip := 0, pos := 0 }
def decOf (h : HdmCommit) : Dec :=
  { committed := true, hpaBase := h.hpaBase, size := h.size, iw := h.iw, ig := h.ig, dpaSkip := h.dpaSkip,
    dpaBase := BitVec.ofNat 52 (dpaBaseOf ((Run.start wHdm).decs 0 0) h.n.val h.dpaSkip), pos := h.pos }
theorem wit_decoder : let r := Run.start wHdm
    (wHdm.c.porches[(0 : Fin 8)]).links[(0 : Fin 2)].up = true ∧ commit0.n.val < (r.decs 0 0).length ∧ commit0.iw ≠ 0 ∧
    r.decOk 0 0 0 (decOf commit0) = true ∧ r.decOk 0 0 0 (decOf { commit0 with ig := 300 }) = false := by decide +kernel
theorem wit_mailbox : (wHdm.c.porches[(0 : Fin 8)]).links[(0 : Fin 2)].up = true ∧
    (0x1234#16) ∉ [0x4000#16, 0x0100#16, 0x0101#16, 0x0102#16, 0x0103#16, 0x0300#16, 0x0301#16, 0x0400#16, 0x0401#16] ∧
    ([2#8][0]?).bind evLogOf = some .fail ∧ ([] : List Byte)[0]?.bind evLogOf = none := by decide
def snp0 : BiSnp := { p := 0, k := 0, hpa := 0, blk := false, kind := .inv, line := 0, n := 1, sentAt := 0, by' := 7, excl := false }
def cohScn : Coh := { idx := 1, blk := 0, gran := some 0, job := .freeScn 5 2, snps := [snp0] }
def wSnoop : State := { stt [] { inRoom (inPorch inRun porch1) { cohs := [cohScn] } with now := 9 } with
  m := { scn := [(scnKey 0 5 2, { gran := 0, pres := 1 })] } }
theorem wit_bi_rsp : let s := wSnoop
    let r := Run.start s
    let y := s.c.rooms[(0 : Fin 64)]
    (s.c.porches[(0 : Fin 8)]).links[(0 : Fin 2)].up = true ∧ r.snoopOf 0 0 0 false = some (0, cohScn, snp0) ∧ snp0.hpa = 0 ∧
    snp0.blk = false ∧ r.biBehind 0 0 (lineGran snp0.line) = [] ∧ r.biBuffered 0 0 (lineGran snp0.line) = false ∧
    (r.onWay fun it => it.wrote 0 0 (lineGran snp0.line)) = false ∧ s.c.tt.run = true ∧ y.waiters = [] ∧ y.snoopQ = [] ∧
    y.scnBad = [] ∧ rspOk snp0.kind .i = true ∧ y.cohs = [cohScn] ∧ cohScn.snps = [snp0] ∧ cohScn.invs = [] ∧
    cohScn.reads = [] ∧ cohScn.parked = [] ∧ snp0.by' ≤ s.c.now ∧ snp0.excl = false ∧ r.fenced (unitRoom 0) = false := by decide +kernel
theorem wit_bi_conflict : let s := wSnoop
    (s.c.porches[(0 : Fin 8)]).links[(0 : Fin 2)].up = true ∧
    ((Run.start s).snoopBy 0 0 fun x => x.meets 0 false) = some (0, cohScn, snp0) ∧ (s.c.porches[(0 : Fin 8)]).store = [] := by decide +kernel
def trkFill : Trk := { trk0 0 with pend := [(2, 8)] }
def wFill : State := stt [] { inRoom (inPorch inRun (porch1 [entFar])) { trks := [trkFill], waiters := [⟨itFar, .fill 0, none⟩] } with now := 9 }
theorem wit_fill_timeout : let s := wFill
    let y := s.c.rooms[(0 : Fin 64)]
    s.c.tt.run = true ∧ quietRoom s 0 ∧ y.trks = [trkFill] ∧ trkFill.pend = [(2, 8)] ∧ 8 ≤ s.c.now ∧
    y.waiters = [⟨itFar, .fill trkFill.idx, none⟩] ∧ y.wbuf = [] ∧ paLineNo itFar.pa = 2 := by decide +kernel
def dirTwo : DirEnt := { sharers := bit64 1 ||| bit64 2, tag := dirTag 0, state := 2 }
def wSharer : State := { stt rte1 { inDoor (inRoom inRun { cohs := [cohHome true] }) door1 with now := 20 } with
  m := { regs := rte1, dir := [(dirKey 0 (dirSet 0) 3, dirTwo)] } }
theorem wit_silent_sharer : let s := wSharer
    let r := Run.start s
    let y := s.c.rooms[(0 : Fin 64)]
    s.c.tt.run = true ∧ r.fenced (unitRoom 0) = false ∧ y.cohs = [cohHome true] ∧ y.snoopQ = [] ∧ y.scnBad = [] ∧
    (cohHome true).job = .home 0 true false ∧ (cohHome true).parked = [] ∧
    r.dirFind 0 (cohHome true).blk = some (3, dirTwo) ∧ dirTwo.state = 2 := by decide +kernel

/-! ## Witnesses: Doors and time -/

def ackMsg : FMsg := { msg0 Op.wrAck with bmask := 0, line := 0, mask := 0 }
def ackFrame : Frame := mkFrame (mkHdr 1 false 0 0 0 false 0) ((msgBits ackMsg).extractLsb' 0 896) 0
/-- Door 0 up to House 1, in RUN. -/
def wDoor (x : Door := door1) (rs : SMap Word := []) : State := stt (rs ++ rte1) (inDoor inRun x)
theorem wit_frame : let s := wDoor
    nextFrameOf s 0 ackFrame false ∧ hdrPos (frameHdr ackFrame) = 0 ∧ (frameMsg ackFrame).extractLsb' 0 6 = (Run.start s).myId ∧
    msgFits [frameMsg ackFrame] = true ∧ piecesMsg [frameMsg ackFrame] = ackMsg ∧ ackMsg.dst = (Run.start s).myId ∧
    (s.c.doors[(0 : Fin 8)]).parts = [] ∧ s.c.fab.held = [] ∧ s.c.tt.run = true ∧
    (Run.start s).msgTo ackMsg = some (msgRoom ackMsg) ∧ (Run.start s).msgTo { ackMsg with op := Op.heartbeat } = none ∧
    ackMsg.eseq = ((Run.start s).peer ackMsg.src).rxEseq[fin3 (opClass ackMsg.op)] := by
  simp only [nextFrameOf, ackFrame, Laws.frameHdr_mk, Laws.frameMsg_mk, Laws.mkFrame_crc, true_and]
  decide +kernel
def badFrame : Frame := ackFrame ^^^ ((1 : Frame) <<< 992)
theorem wit_bad_frame : let r := Run.start wDoor
    r.doorRuns 0 = true ∧ (wDoor.c.doors[(0 : Fin 8)]).up = true ∧ hdrAbort (frameHdr badFrame) = false ∧
    frameSum badFrame ≠ frameCrc badFrame ∧ (wDoor.c.doors[(0 : Fin 8)]).nakAt = none := by
  have h : frameSum badFrame ≠ frameCrc badFrame := by
    unfold badFrame ackFrame
    rw [Laws.frameSum_flip, Laws.frameCrc_flip, Laws.mkFrame_crc]
    intro h
    exact absurd h (Laws.xor_one_ne _)
  have k : frameHdr badFrame = mkHdr 1 false 0 0 0 false 0 := by
    unfold badFrame ackFrame
    rw [Laws.frameHdr_flip, Laws.frameHdr_mk]
  simp only [k, h, ne_eq, not_false_eq_true, true_and]
  decide +kernel
def abortFrame : Frame := mkFrame (mkHdr 0 false 3 0 0 true 0) 0 0
def partX : Part := { cls := 0, pieces := [1], transit := some 3 }
def wAbort : State := wDoor { door1 with parts := [partX] }
theorem wit_abort : nextFrameOf wAbort 0 abortFrame true ∧ wAbort.c.tt.run = true ∧ (wAbort.c.doors[(0 : Fin 8)]).parts = [partX] ∧
    partX.cls = hdrCls (frameHdr abortFrame) ∧ partX.transit = some 3 := by
  simp only [nextFrameOf, abortFrame, Laws.frameHdr_mk, Laws.mkFrame_crc, true_and]
  decide +kernel
def kept0 : Kept := { seq := 4, f := { cls := 1, pos := 0, bytes := 0 }, wire := 0 }
def wKept : State := wDoor { door1 with kept := [kept0], nextSeq := 5 }
theorem wit_idle_nak : (Run.start wKept).doorRuns 0 = true ∧ (wKept.c.doors[(0 : Fin 8)]).kept = [kept0] ∧ kept0.f.pos = 0 ∧
    kept0.seq = (⟨4, 0⟩ : LinkHdr).ack ∧ kept0.acked = false ∧ kept0.seq ≠ (⟨3, 0⟩ : LinkHdr).ack ∧
    (wKept.c.doors[(0 : Fin 8)]).nextSeq ≠ 4 := by decide +kernel
/-- Door 0 is cabled to Door 2 of House 1. -/
def wBeacon : State := wDoor { door1 with up := false } [(0x180008, 0x8201)]
def beacon0 (door : BitVec 3) : Beacon :=
  { id := 1, idValid := true, door := door, mode := 7, lanes := 8, pool := 0, incarn := 1, echoId := 0, echoValid := true,
    echoDoor := 0, serial := 0, ft := 0 }
theorem wit_beacon : let r := Run.start wBeacon
    let ex := r.reg (dorBase 0 + 8)
    let right := fun b : Beacon => ex.testBit 15 && b.id.toNat = bitsOf ex 5 0 && b.door.toNat = bitsOf ex 10 8 && b.id ≠ r.myId &&
      b.pool.toNat = r.reg 0x190118
    r.doorLinks 0 = true ∧ (wBeacon.c.doors[(0 : Fin 8)]).up = false ∧ (wBeacon.c.doors[(0 : Fin 8)]).mismatch = false ∧
    right (beacon0 2) = true ∧ (beacon0 2).echoId = r.myId ∧ wBeacon.c.fab.waiting = [] ∧ right (beacon0 3) = false ∧
    r.fenced (unitDoor 0) = false := by decide +kernel
def txF : TxFrame := { cls := 1, pos := 0, bytes := 5 }
def wSend (f : TxFrame) (code : Nat) : State :=
  let s := wDoor { door1 with txq := [f] }
  { s with c := slot 176 code s.c }
def txTransit : TxFrame := { txF with via := some 3 }
theorem wit_frame_start : ∀ x ∈ [(txF, 0x61), (txTransit, 0x5B)], let r := Run.start (wSend x.1 x.2)
    let y := (wSend x.1 x.2).c.doors[(0 : Fin 8)]
    r.doorLinks 0 = true ∧ r.frameSlot 0 = true ∧ (wSend x.1 x.2).c.tt.run = true ∧ y.nakDue = false ∧ y.beaconNow = false ∧
    y.replay = [] ∧ r.secOn 0 = false ∧ r.slotFrame 0 1 = some x.1 ∧ seqFrame 1 = true := by decide +kernel
def wBeaconDue : State := let s := wSend txF 0x61
  { s with c := { s.c with now := 10000000 } }
theorem wit_beacon_due : let r := Run.start wBeaconDue
    let x := wBeaconDue.c.doors[(0 : Fin 8)]
    r.doorLinks 0 = true ∧ x.beaconNow = false ∧ r.slotUnused 0 = false ∧
    x.beaconAt + (if r.mode = .join then usec 10 else usec 100) ≤ wBeaconDue.c.now := by decide +kernel
def wTrouble (fails : Nat) (replaying : Bool) : State := let s := wDoor { door1 with kept := [kept0], replaying := replaying, fails := fails }
  { s with c := { s.c with now := 100000000 } }
theorem wit_ack_timeout : let r := Run.start (wTrouble 0 false)
    let x := (wTrouble 0 false).c.doors[(0 : Fin 8)]
    r.doorRuns 0 = true ∧ x.up = true ∧ x.kept ≠ [] ∧ x.replaying = false ∧
    x.markAt + usec (r.fld (dorBase 0 + 0xC) 9 0) ≤ (wTrouble 0 false).c.now := by decide +kernel
theorem wit_replay_fail : ∀ n ∈ [1, 2], let r := Run.start (wTrouble n true)
    let x := (wTrouble n true).c.doors[(0 : Fin 8)]
    r.doorRuns 0 = true ∧ x.replaying = true ∧ x.replayAt + usec (r.fld (dorBase 0 + 0xC) 9 0) ≤ (wTrouble n true).c.now ∧ x.fails = n := by
  decide +kernel
theorem wit_lane_fail : let r := Run.start wDoor
    let x := wDoor.c.doors[(0 : Fin 8)]
    x.trained = true ∧ r.fenced (unitDoor 0) = false ∧ r.mode.fabric = true ∧ bothBad (x.laneBad ||| (1#8 <<< (5 : Fin 8).val)) = false := by
  decide +kernel
def wTraining : State := wDoor { training := true, half := true } [(0x180004, 5)]
theorem wit_training : let x := wTraining.c.doors[(0 : Fin 8)]
    x.training = true ∧ wTraining.c.jtag = .none ∧ (Run.start wTraining).bit (dorBase 0 + 4) 2 = true := by decide +kernel
def wQuick : State := wDoor { door1 with quick := true, kept := [kept0] }
theorem wit_quick : let x := wQuick.c.doors[(0 : Fin 8)]
    x.quick = true ∧ x.degrade = false := by decide +kernel
def heldMsg : Held := { src := 1, cls := 1, since := 0, msg := { ackMsg with eseq := 3 }, door := 0 }
def wGap : State := let s := wDoor
  { s with c := { s.c with now := 100000000, fab := { s.c.fab with held := [heldMsg] } } }
theorem wit_seq_gap : let r := Run.start wGap
    wGap.c.fab.held = [heldMsg] ∧ heldMsg.src = BitVec.ofFin (1 : Fin 64) ∧ heldMsg.cls < 3 ∧
    heldMsg.since + usec (r.fld 0x190114 9 0) ≤ wGap.c.now ∧ wGap.c.tt.run = true ∧ r.msgTo heldMsg.msg = some (msgRoom heldMsg.msg) ∧
    r.fenced (unitRoom (msgRoom heldMsg.msg)) = false := by decide +kernel
/-- House 1 is the time master, and lives. -/
def wTime (t : Time) (now : Nat := 0) : State := let s := wDoor door1 [(0x40008, 0x41)]
  { s with c := { inPeer s.c { live := true } with time := t, now := now } }
def midXn : Time := { xn := 3, t1 := some 0, t4 := some 40 }
theorem wit_time_exchange : (Run.start (wTime {})).doorRuns 0 = true ∧ (Run.start (wTime midXn)).timeMatch 0 3 = true ∧
    -1000 ≤ timeTheta 0 30 30 40 ∧ timeTheta 0 30 30 40 ≤ 1000 ∧ (Run.start (wTime {})).upstream = some 0 ∧
    (wTime {}).c.time.nextXn ≤ (wTime {}).c.now := by decide +kernel
theorem wit_time_holdover : let s := wTime {} 1000000000
    let r := Run.start s
    r.mode.fabric = true ∧ s.c.time.holdover = false ∧ r.actingMaster = some 1 ∧ 1 ≠ r.myId ∧
    s.c.time.lastXn + 16 * usec r.timePeriod ≤ s.c.now := by decide +kernel

/-! ## Witnesses: Room jobs, the Cellar, events, bring-up -/

def job1 : Job := { kind := .staleSweep, left := 2 }
def wWalk : State := stt [] (slot 0 0x52 (inRoom inRun { jobs := [job1], walkSet := 5 }))
theorem wit_walker : let r := Run.start wWalk
    let y := wWalk.c.rooms[(0 : Fin 64)]
    quietRoom wWalk 0 ∧ y.jobs ≠ [] ∧ slotFor wWalk (0 : Fin 64).val 0x52 ∧
    (∀ w < 16, r.tag 0 y.walkSet w = {}) ∧ (∀ w < 16, r.scn 0 y.walkSet w = {}) ∧ (∀ w < 16, r.dir 0 y.walkSet w = {}) := by
  decide +kernel
def wTrim : State := stt [(0xC00830, 1)] (slot 0 0xFF (inRoom inRun { trimWork := true, trimSet := 9, trimClean := 32767 }))
theorem wit_trim : let r := Run.start wTrim
    let y := wTrim.c.rooms[(0 : Fin 64)]
    quietRoom wTrim 0 ∧ y.trimWork = true ∧ r.bit 0xC00830 0 = true ∧ r.canIdle (0 : Fin 64).val = true ∧ y.jobs = [] ∧ y.trks = [] ∧
    r.trimWays 0 y.trimSet = [] ∧ r.trimOver 0 y.trimSet = none := by decide +kernel
/-- A Cellar of 1 GiB channels and one near way. -/
def cel1 : SMap Word := [(0x400, 0x10001)]
def wScrub : State := stt (cel1 ++ names 160 0xFF ++ [(0x60100, 1), (0x60104, 1)]) { slot 160 0xFF inRun with now := 10000000000000000 }
theorem wit_scrub : let r := Run.start wScrub
    let x := wScrub.c.chans[(0 : Fin 16)]
    let line := r.line 0 (x.nthLine 0 0 x.scrub[(0 : Fin 32)])
    r.scrubRuns = true ∧ r.lostChan 0 = false ∧ x.scrubDone.getLsbD 0 = false ∧ r.idleRead 0 (0 : Fin 4) (0 : Fin 8) = true ∧
    (0 : Fin 4).val < 2 ^ x.rankBits ∧ r.resilFits 0 = false ∧ r.lineBusy 0 (x.nthLine 0 0 x.scrub[(0 : Fin 32)]) = false ∧
    line.md.state ≠ 3 ∧ erasures line.md.lcode (r.mark 0 0) ≤ paritySyms line.md.lcode ∧
    x.scrub[(0 : Fin 32)] + 1 < r.scrubLines 0 := by decide +kernel
theorem wit_scrub_slow : let r := Run.start wScrub
    r.scrubRuns = true ∧ wScrub.c.scrubSlow = false ∧ r.reg 0x60104 * 1000 < (wScrub.c.now - wScrub.c.scrubStart) / msec 1 := by
  decide +kernel
def wResilver : State := stt (cel1 ++ names 160 0xFF ++ rgn0 7 0 0x100 ++ rte1)
  { slot 160 0xFF (inDoor inRun door1) with rjob := { busy := true, resilver := true, next := 0 } }
theorem wit_resilver : let s := wResilver
    let r := Run.start s
    r.resilNext = some (0, 0, 0) ∧ r.fenced (unitRoom (r.serving (r.roomOf 0))) = false ∧ r.lostChan 0 = false ∧
    r.twinFor 0 (r.attrOf 0) = true ∧ r.resilFits 0 = true ∧
    r.rdLine 0 ((s.c.chans[(0 : Fin 16)]).rankOf 0) (r.line 0 0) (if ((s.c.chans[(0 : Fin 16)]).remapOf 0).isSome then {} else {})
      (r.attrOf 0).tenant (linePa 0) none = .ok 0 false := by decide +kernel
def resil0 : Resil := { line := 5, attr := { kind := 3, mirror := true }, data := 8, poison := false, here := true }
def wResilPass : State := stt (rgn0 7 0 0x100) (slot 0 0xFF (inRoom inRun { resils := [resil0] }))
theorem wit_resilver_pass : let r := Run.start wResilPass
    let y := wResilPass.c.rooms[(0 : Fin 64)]
    idleRoom wResilPass 0 ∧ wResilPass.c.tt.run = true ∧ y.resils = resil0 :: [] ∧ resil0.here = true ∧
    r.canIdle (0 : Fin 64).val = true ∧ y.trimWork = false := by decide +kernel
def sweep0 : Sweep := { lost := 0 }
def cellSwept : Nat := 2097152
def lineSwept : Line := { data := 9, md := { tagSh := 0x400, way := 0, dirty := true, state := 2 } }
def wSweep : State := { stt [] { slot 160 0x80 (inDoor (inRoom inRun { sweep := some sweep0 }) door1) with cc := 5 } with
  m := { regs := cel1 ++ names 160 0x80 ++ rte1 ++ [(0x1040000, 0x13)], dram := [(dramKey 0 cellSwept, lineSwept)] } }
theorem wit_sweep : let s := wSweep
    let r := Run.start s
    let sw := sweep0
    let set := sw.target
    let sw' := sw.begin set r.nearWays
    let cell := r.nearCell sw.lost set 0
    let c := r.chanOf cell 0
    let x := r.line c cell
    let b := r.blockOf sw.lost set x.md.tagSh
    let a := { r.attrOf b with tenant := x.md.tenant }
    (s.c.rooms[(0 : Fin 64)]).sweep = some sw ∧ sw.left ≠ 0 ∧ r.fenced (unitRoom 0) = false ∧ (0, 0) ∈ sw'.slots ∧
    r.lostChan c = false ∧ r.nextCmd c 0 = none ∧ r.recFits c false cell = true ∧ r.lineBusy c cell = false ∧
    slotFor s (160 + c.val) 0x80 ∧
    decodes x.md.lcode (r.mark c ((s.c.chans[c]).rankOf cell)) (if ((s.c.chans[c]).remapOf cell).isSome then {} else {}) = true ∧
    x.md.state = 2 ∧ x.md.way = 0 ∧ x.md.dirty = true ∧ r.nearable b a = true ∧ x.md.epoch = (r.cls a.cls).epoch ∧
    r.homeOf b a.mirror ≠ r.myId ∧ r.dead (r.homeOf b a.mirror) = false := by decide +kernel
def wFillLines : State := stt (cel1 ++ names 160 0xFF) { slot 160 0xFF inRun with mod := { mode := .fill } }
theorem wit_fill : let r := Run.start wFillLines
    r.mode = .fill ∧ r.lostChan 0 = false ∧ r.canIdle 160 = true ∧
    (r.curRecord 160).map (fun (x : Nat × Nat) => bitsOf x.2 1 0) = some 0 ∧ r.extraRefresh 0 = false ∧
    r.xingFull (.celWrite 0) = false ∧ (wFillLines.c.chans[(0 : Fin 16)]).fillPtr < r.chLines := by decide +kernel
/-- Channel 0 is under rebuild, and its sequencer has come to this line. -/
def wRebuild (ptr : Nat) (rs : SMap Word := []) (late : List CelCmd := []) (got : Option (LineData × Bool) := none) (c : Ctl := inRun) : State :=
  stt (cel1 ++ names 160 0x5C ++ rs) { slot 160 0x5C (inChan c { rebuildPtr := ptr }) with
    rebuild := { writing := true, ch := 0, late := late, got := got } }
def lateWr : CelCmd := { celWr with idx := 3 }
theorem wit_rebuild_late : let s := wRebuild 5 [] [lateWr]
    (Run.start s).rebuildReady 0 = true ∧ slotFor s 160 0x5C ∧
    (s.c.rebuild.late.find? fun w => decide (w.idx < (s.c.chans[(0 : Fin 16)]).rebuildPtr)) = some lateWr := by decide +kernel
theorem wit_rebuild_near : let s := wRebuild 2097153
    let r := Run.start s
    r.rebuildReady 0 = true ∧ slotFor s 160 0x5C ∧ s.c.rebuild.late = [] ∧ 2097153 < r.chLines ∧ r.nearBase ≤ 2097153 := by decide +kernel
/-- Frame 0 is region 0's: a region without a twin, or a Mirror region whose twin, House 1, lives. -/
def framed (s : State) : State := { s with m := { s.m with frames := [(0, 0x80000000)] } }
def wHomeLine : State := framed (wRebuild 5 (rgn0 1))
def wTwinLine (got : Option (LineData × Bool)) : State := framed (wRebuild 5 (rgn0 7 0 0x100 ++ rte1) [] got (inPeer (inDoor inRun door1) { live := true }))
theorem wit_rebuild_home : let r := Run.start wHomeLine
    r.rebuildReady 0 = true ∧ slotFor wHomeLine 160 0x5C ∧ 5 < r.chLines ∧ 5 < r.nearBase ∧ r.frameRgn 5 = some (0, true) ∧
    r.twinAlive (lineBlk (r.frameLine 0 0 5)) (r.attrOf (lineBlk (r.frameLine 0 0 5))) = false := by decide +kernel
theorem wit_rebuild_twin : let s := wTwinLine none
    let r := Run.start s
    r.rebuildReady 0 = true ∧ slotFor s 160 0x5C ∧ 5 < r.chLines ∧ 5 < r.nearBase ∧ r.frameRgn 5 = some (0, true) ∧
    r.twinAlive (lineBlk (r.frameLine 0 0 5)) (r.attrOf (lineBlk (r.frameLine 0 0 5))) = true ∧ s.c.rebuild.ask = none ∧
    s.c.rebuild.got.isNone = true ∧ (wTwinLine (some (3, false))).c.rebuild.got.isSome = true := by decide +kernel
def read0 : CelCmd := { m := 0, idx := 3, write := false, pa := 0, tenant := 0, issuedAt := 1 }
def wFlight : State := stt [] { inChan inRun { flight := [read0] } with now := 100000000 }
theorem wit_channel_faults : (Run.start wFlight).fenced (unitChan 0) = false ∧ read0 ∈ (wFlight.c.chans[(0 : Fin 16)]).flight ∧
    read0.issuedAt + usec 2 ≤ wFlight.c.now ∧ (wFlight.c.chans[(0 : Fin 16)]).tcr2x = false := by decide +kernel
def wSeam : State := stt [] { inRun with cc := 9, tt := { run := true, pend := true, next := 1, pendCc := 4 } }
theorem wit_seam : let r := Run.start wSeam
    r.seam = true ∧ wSeam.c.tt.pend = true ∧ wSeam.c.tt.pendCc < wSeam.c.cc ∧ wSeam.c.tt.next < 2 ∧ wSeam.c.fbx.cur = none := by
  decide +kernel
def wPantry : State := stt [] { inRun with cc := 9, mod := { mode := .drain, pantryReq := true, pantryCc := 4 } }
theorem wit_pantry_entry : let r := Run.start wPantry
    r.mode = .drain ∧ wPantry.c.mod.pantryReq = true ∧ r.seam = true ∧ wPantry.c.mod.pantryCc < wPantry.c.cc ∧
    wPantry.c.tt.pend = false ∧ (∀ (p : Fin 8) (k : Fin 2), (wPantry.c.porches[p]).links[k].buf = []) := by decide +kernel
def evMinor : Event := { code := Code.laneDegrade, src := 28 }
def wMinor (e : Event) (c : Ctl := inRun) (rs : SMap Word := []) : State := stt rs { c with fbx := { reported := [e] } }
theorem wit_minor : let r := Run.start (wMinor evMinor)
    (wMinor evMinor).c.fbx.reported = [evMinor] ∧ evMinor.inj = false ∧ evKind evMinor.code = .none ∧
    r.bit (evCfg evMinor.code) 2 = false ∧ r.baseSev evMinor = 1 ∧ evMinor.addr = none ∧ 4 ≤ evMinor.src ∧ evMinor.src < 51 := by
  decide +kernel
def evDoor : Event := { code := Code.doorFail, src := 28 }
def wDoorFail : State := wMinor evDoor (inDoor inRun door1) [(0x180004, 1), (0x180008, 0x8201)]
theorem wit_door_fenced : let s := wDoorFail
    let r := Run.start s
    s.c.fbx.reported = [evDoor] ∧ evDoor.code = Code.doorFail ∧ evDoor.src = 28 + (0 : Fin 8).val ∧ evDoor.inj = false ∧
    r.bit (evCfg Code.doorFail) 2 = false ∧ r.baseSev evDoor = 2 ∧ r.mode = .run ∧ s.c.tt.run = true ∧ s.c.tt.cur < 2 ∧
    s.c.tt.pend = false ∧ r.unitUsed (unitDoor 0) = true ∧ r.fenced (unitDoor 0) = false := by decide +kernel
theorem wit_self_fault : let s := stt [] (inMode .load)
    let r := Run.start s
    r.mode ≠ .off ∧ r.mode ≠ .aux ∧ r.mode ≠ .safe ∧ r.mode.fabric = false ∧
    (∀ p : Fin 8, (s.c.porches[p]).store = [] ∧ (s.c.porches[p]).bars = []) ∧
    (∀ (p : Fin 8) (k : Fin 2), (s.c.porches[p]).links[k].buf = [] ∧ (s.c.porches[p]).links[k].up = false) := by decide +kernel
def wCheckEnd : State := stt []
  { inMode .check with selft := { busy := true }, chans := Vector.replicate 16 { trained := true } }
theorem wit_selftest_done : let r := Run.start wCheckEnd
    r.mode = .check ∧ wCheckEnd.c.selft.busy = true ∧ r.trainOver = true := by decide +kernel
def train0 : ChTrain := { pass := true, capGib := 64, ranks := 1, dens := true, mrdimm := false }
theorem wit_train_done : let s := stt [] (inMode .check)
    let r := Run.start s
    r.mode = .check ∧ s.c.rebuild.busy = false ∧ (s.c.chans[(0 : Fin 16)]).trained = false ∧
    (s.c.chans[(0 : Fin 16)]).trainFail = false ∧ r.fenced (unitChan 0) = false ∧ train0.pass = true := by decide +kernel
def wJoinLate : State := stt [(0x10C, 5), (0x180008, 0x8201)] { inMode .join with now := 100000000000000 }
theorem wit_join_late : let r := Run.start wJoinLate
    r.mode = .join ∧ wJoinLate.c.mod.joinOver = false ∧ wJoinLate.c.mod.joinAt + msec (r.fld 0x10C 15 0) ≤ wJoinLate.c.now ∧
    r.doorsMissing = [0] := by decide +kernel
def wAux : State := stt [] { inMode .aux with pwrGood := true, clk := { ref100 := true, coreLock := true } }
theorem wit_aux : let r := Run.start wAux
    r.mode = .aux ∧ wAux.c.pwrGood = true ∧ wAux.c.railLow = 0 ∧ wAux.c.clk.ref100 = true ∧ wAux.c.clk.coreLock = true ∧
    wAux.c.porches = Vector.replicate 8 {} := by decide +kernel
/-- A LOAD that waits for its image, or has it, with CHECK requested. -/
def wLoad (ok : Bool) : State := stt [] { inMode .load with mod := { mode := .load, pend := true, target := .check }, img := { ok := ok } }
theorem wit_start_up : let r := Run.start (wLoad true)
    r.mode = .load ∧ (wLoad true).c.mod.pend = true ∧ r.unmet .load = none ∧ (Run.start (wLoad false)).unmet .load = some Cond.image ∧
    (Run.start (stt [] (inMode .aux))).unmet .aux = some Cond.power ∧ (stt [] (inMode .load)).c.mod.pend = false := by decide +kernel
def wRebuilt (released : Bool) : State :=
  stt cel1 { inChan inRun { rebuildPtr := 4194304 } with rebuild := { busy := true, writing := true, released := released } }
theorem wit_rebuild_end : ∀ b ∈ [true, false], let s := wRebuilt b
    let r := Run.start s
    s.c.rebuild.busy = true ∧ r.sequencerOver = true ∧ s.c.rebuild.released = b ∧ r.mode = .run ∧
    ∀ m : Fin 64, r.fenced (unitRoom m) = false ∧ ∀ j ∈ (s.c.rooms[m]).jobs, j.kind ≠ .refugeRelease := by decide +kernel

/-! ## Witnesses: the management plane -/

def wReg (rs : SMap Word := []) (c : Ctl := inRun) : State := stt rs c
theorem wit_mgmt_ready : mgmtReady (wReg) ∧ (0x3#4 ≠ 0) ∧ ¬((0x3#4) = 0xF ∧ (0x190118#26).toNat % 4 = 0) ∧
    wReg.c.mod.mode ≠ .off ∧ (0x190200#26).toNat % 4 = 0 ∧ regDef (aliasOf (0x190200#26).toNat).1 = none ∧
    (0x190200#26).toNat < 0xC10000 ∧ wReg.c.mod.mode = .run := by decide +kernel
/-- Segment 1 of Porch 0 spans GiB 0 to 15. -/
def wSegs : State := wReg [(0x80804, 1), (0x80810, 0x80000000), (0x80814, 16)]
theorem wit_segment_good : let s := wSegs
    let r := Run.start s
    let x := Seg.ofWords 0x80000010 (r.reg 0x80804) (r.reg 0x80808)
    mgmtReady s ∧ segBase 0 0 = 0x80800 ∧ x.v = true ∧ 1 ≤ x.size ∧ x.size ≤ 4096 ∧ x.pool % 4096 + x.size ≤ 4096 ∧
    (List.range 64).all (fun (t : Nat) => decide (t ≠ 0 → (r.seg 0 t).v = true →
      gibOverlap x.dpa x.size (r.seg 0 t).dpa (r.seg 0 t).size = false)) = true := by decide +kernel
theorem wit_segment_bad : let r := Run.start wSegs
    let x := Seg.ofWords 0x8000000F (r.reg 0x80804) (r.reg 0x80808)
    x.v = true ∧ (r.seg 0 1).v = true ∧ gibOverlap x.dpa x.size (r.seg 0 1).dpa (r.seg 0 1).size = true ∧
    r.bif 0 = false := by decide +kernel
def wHeld : State := { wReg (cel1 ++ rgn0 1 0 0x30000) with m := { regs := cel1 ++ rgn0 1 0 0x30000, frames := [(3, 1)] } }
theorem wit_region : let r := Run.start wHeld
    mgmtReady wHeld ∧ r.holdsFrame 0 (r.region 0) = true ∧ (r.region 0).frame = 3 ∧
    (Run.start wReg).holdsFrame 0 ((Run.start wReg).region 0) = false := by decide +kernel
theorem wit_way_mask : (wReg [(0xC00004, 0x3)]).m.reg 0xC00004 &&& ~~~(0x1 : Word) &&& 0xFFFF ≠ 0 ∧
    (wReg [(0xC00004, 0x3)]).m.reg 0xC00004 &&& ~~~(0x7 : Word) &&& 0xFFFF = 0 := by decide +kernel
theorem wit_waydis : mgmtReady wReg ∧ wReg.c.mod.mode ≠ .load ∧ wReg.c.mod.mode ≠ .check ∧ wReg.c.mod.mode ≠ .fill ∧
    (Run.start wReg).fenced (unitRoom 0) = false ∧ (wReg.m.reg (rmBase 0 + 0x20)).getLsbD (3 : Fin 16).val = false := by decide +kernel
theorem wit_pantry : let s := wReg [] (inMode .pantry)
    let r := Run.start s
    storesWf s ∧ r.pantryOpen = true ∧ s.c.img.busy = false ∧ (0x8#25).toNat % 4 = 0 ∧ r.pantryAt (0x8#25).toNat = (0, 2) ∧
    wReg.c.mod.mode ≠ .off ∧ (Run.start wReg).pantryOpen = false := by decide +kernel
def stage5 : KeyStage := { tenant := 5, words := [(0, 9)] }
theorem wit_keys : let s := { wReg with c := { inRun with stage := some stage5 } }
    mgmtReady wReg ∧ wReg.c.stage = none ∧ (5 : Fin 4096).val ≠ 0 ∧ mgmtReady s ∧ storesWf s ∧
    s.c.stage = some stage5 ∧ stage5.tenant = (5 : Fin 4096).val := by decide +kernel
theorem wit_mode_requests : let r := Run.start (wReg [] (inMode .check))
    mgmtReady (wReg [] (inMode .check)) ∧ (0x10007 : Word).getLsbD 16 = true ∧ (0x10007 : Word).getLsbD 4 = false ∧
    (Mode.ofCode ((0x10007 : Word).toNat % 16)).map (onPath r.mode) = some true ∧ mgmtReady wReg ∧ wReg.c.mod.mode = .run := by
  decide +kernel
/-- Unit u is fenced, and its re-check has passed. -/
def wFenced (u : Nat) : State :=
  wReg [] { inMode .degraded with tt := { run := true, cur := 2 + u }, fbx := { fenced := 1#96 <<< u, cur := some u, rePass := true, reUnit := u } }
theorem wit_unfence : let s := wFenced 80
    let v : Word := 0x15010
    let w : Word := 0x10010
    mgmtReady s ∧ v.getLsbD 16 = true ∧ v.getLsbD 4 = true ∧ bitsOf v.toNat 14 8 = 80 ∧ (Run.start s).unfenceOk 80 = true ∧
    s.c.tt.run = true ∧ s.c.tt.pend = false ∧ mgmtReady (wFenced 0) ∧ w.getLsbD 16 = true ∧ w.getLsbD 4 = true ∧
    bitsOf w.toNat 14 8 = 0 ∧ (Run.start (wFenced 0)).unfenceOk 0 = true ∧ (wFenced 0).c.tt.run = true ∧
    (List.range 96).all (fun (w : Nat) => decide (w ≠ 0 → (Run.start (wFenced 0)).fenced w = false)) = true := by decide +kernel
theorem wit_jobs_begin : let s := wReg
    mgmtReady s ∧ s.c.mod.mode ≠ .load ∧ s.c.mod.mode ≠ .check ∧ s.c.mod.mode ≠ .fill ∧ s.c.cdrainBusy = false ∧
    s.c.rjob.busy = false ∧ (∀ m : Fin 64, (Run.start s).fenced (unitRoom m) = false) ∧ (0x103 : Word).getLsbD 8 = true ∧
    (0x100000 : Word).getLsbD 20 = true ∧ (0x100000 : Word).extractLsb' 18 2 = 0 := by decide +kernel
theorem wit_resilver_begins : let s := wReg (rgn0 7 0 0x100)
    mgmtReady s ∧ s.c.rjob.busy = false ∧ (0x140000 : Word).getLsbD 20 = true ∧ (0x140000 : Word).extractLsb' 18 2 = 1 ∧
    rgnHome ((0x140000 : Word).extractLsb' 0 18) = (Run.start s).myId ∧
    ((Run.start s).region ((0x140000 : Word).extractLsb' 0 18)).attr.mirror = true := by decide +kernel
theorem wit_rebuild_begins : let s := wReg [] (inChan inRun { lost := true, trained := true } 3)
    mgmtReady s ∧ s.c.rebuild.busy = false ∧ (s.c.chans[((0x13 : Word).extractLsb' 0 4).toFin]).lost = true ∧
    (0x13 : Word).getLsbD 4 = true := by decide +kernel
theorem wit_sync_force_retrain : let s := wReg
    let x := s.c.porches[(0 : Fin 8)]
    mgmtReady s ∧ x.bars = [] ∧ x.store = [] ∧ x.lands = [] ∧ (0x101 : Word).getLsbD 8 = true ∧
    (Run.start s).forceLegal ((0x101 : Word).toNat % 128) = true ∧ (0x3 : Word).getLsbD 0 = true ∧
    (0x3 : Word).getLsbD 1 = true ∧ s.c.mod.mode.fabric = true ∧ (Run.start s).fenced (unitDoor 0) = false := by decide +kernel
theorem wit_fuse_box_commands : let s := wReg
    let v : Word := 0x10054
    mgmtReady s ∧ (0x2 : Word).getLsbD 1 = true ∧ v.getLsbD 16 = true ∧ injLegal v.toNat = true ∧
    injTarget (bitsOf v.toNat 7 0) (bitsOf v.toNat 14 8) = some (28, 0) ∧
    (evUnit 28 0).all (fun (u : Nat) => (Run.start s).fenced u == false) = true := by decide +kernel
theorem wit_recheck : let v : Word := 0x150
    mgmtReady (wFenced 80) ∧ v.getLsbD 8 = true ∧ bitsOf v.toNat 6 0 = 80 ∧ (Run.start (wFenced 80)).recheckLegal 80 = true := by
  decide +kernel
theorem wit_recheck_end : ∀ u ∈ [0, 64, 80, 88], let s := wReg [] { inRun with fbx := { reBusy := true, reUnit := u } }
    s.c.fbx.reBusy = true ∧ s.c.fbx.reUnit = u ∧ (u = 0 ∨ 64 ≤ u) := by decide +kernel
theorem wit_msync_waits : let s := wReg [] (inPorch inRun (porch1 [ent0]))
    let x := s.c.porches[(0 : Fin 8)]
    mgmtReady s ∧ x.bars = [] ∧ ((x.store.filter fun e => !e.sent).map fun e => e.uid) ≠ [] := by decide +kernel

/-! ## Witnesses: image, configuration, meters, clocks, Latches, sideband, supplies -/

theorem wit_selftest_runs : let s := stt [] (inMode .check)
    mgmtOpen s ∧ s.c.mod.mode = .check ∧ (1 : Word).getLsbD 0 = true := by decide +kernel
theorem wit_image_load : let s := stt [] (inMode .load)
    mgmtOpen s ∧ s.c.mod.mode = .load ∧ storesWf s ∧ (4 : Word).getLsbD 2 = true := by decide +kernel
def wLoading (src : Bool) : State := stt [] { inMode .load with img := { busy := true, src := src }, now := 300000000000 }
def noFlash : FlashRead :=
  { found := false, sfdp := false, readCmd := 0, addr4 := false, sizeCode := 0, boot := [], first := [], second := [] }
theorem wit_image_fails : let s := wLoading true
    let bs := (Run.start s).pantryImage
    s.c.img.busy = true ∧ s.c.img.src = true ∧ headOk bs bs.length = false ∧
    (wLoading false).c.img.busy = true ∧ (wLoading false).c.img.src = false ∧ noFlash.found = false := by decide +kernel
theorem wit_image_late : let s := wLoading true
    storesWf s ∧ s.c.img.busy = true ∧ s.c.img.startAt + msec 30000 ≤ s.c.now := by decide +kernel
theorem wit_spi : let s := wReg
    let v : Word := 0x180909
    let u := stt [(0x260, 0x800)] { inRun with img := { spiBusy := true } }
    let w := stt [(0x260, 0x80800)] { inRun with img := { spiBusy := true } }
    mgmtOpen s ∧ s.c.img.spiBusy = false ∧ v.getLsbD 20 = true ∧ v.getLsbD 19 = true ∧ v.getLsbD 8 = true ∧
    v.toNat / 1024 % 512 = 2 ∧ storesWf u ∧ u.c.img.spiBusy = true ∧ (u.m.reg 0x260).getLsbD 19 = false ∧
    (u.m.reg 0x260).toNat / 1024 % 512 = 2 ∧ w.c.img.spiBusy = true ∧ (w.m.reg 0x260).getLsbD 19 = true := by decide +kernel
/-- A lap of the configuration CRC has ended. -/
def wLap (x : CrcEng) : State := stt [] { inRun with cc := 7331840, crc := x }
theorem wit_commit : mgmtReady wReg ∧ (1 : Word).getLsbD 0 = true ∧ (Run.start (wLap { busy := true })).lapOver = true := by
  decide +kernel
theorem wit_lap (x : CrcEng) : (Run.start (wLap x)).configCrc = (Run.start (wLap {})).configCrc := by
  unfold Run.configCrc; rfl
theorem wit_lap_over (x : CrcEng) (h : x.lapCc = 0) : (Run.start (wLap x)).lapOver = true := by
  show (true && true && decide (x.lapCc + 4 * crcWords ≤ 7331840)) = true
  simp [h, crcWords]
theorem wit_lap_equal : let s := wLap { ref := (Run.start (wLap {})).configCrc }
    (Run.start s).lapOver = true ∧ s.c.crc.busy = false ∧ (Run.start s).configCrc = s.c.crc.ref :=
  ⟨wit_lap_over _ rfl, rfl, wit_lap _⟩
theorem wit_lap_differs : let s := wLap { ref := ~~~(Run.start (wLap {})).configCrc }
    (Run.start s).lapOver = true ∧ s.c.crc.busy = false ∧ s.c.crc.dirty = false ∧ s.c.crc.raised = false ∧
    (Run.start s).configCrc ≠ s.c.crc.ref := by
  refine ⟨wit_lap_over _ rfl, rfl, rfl, rfl, ?_⟩
  rw [wit_lap]
  intro h
  have := congrArg (fun y : Word => y.getLsbD 0) h
  simp [wLap, stt] at this
theorem wit_meter_snap : mgmtOpen wReg ∧ (Run.start wReg).autoDue = false ∧ wReg.c.mtr.settling = false ∧ wReg.c.mtr.closed = false ∧
    (wReg.m.reg 0xF04).getLsbD 1 = false := by decide +kernel
def wMeter (x : Mtr) : State := stt [] { inRun with ftCore := 600000000000000000000, cc := 5000, mtr := x }
theorem wit_meter_auto : ∀ b ∈ [true, false], let s := wMeter { opened := true, settling := b }
    let r := Run.start s
    let w := r.fld 0xC00800 27 16 * 10 ^ 9
    (s.m.reg 0xC00800).getLsbD 0 = true ∧ s.c.mtr.opened = true ∧ w ≠ 0 ∧ s.c.mtr.autoDone < r.ftNs / w * w ∧
    s.c.mtr.settling = b ∧ s.c.mtr.closed = false ∧ (s.m.reg 0xF04).getLsbD 1 = false := by decide +kernel
theorem wit_meter_dated : let d : Dated := ⟨0, 64, 60000000000⟩
    let s := wMeter { opened := true, dated := [d] }
    (Run.start s).autoBoundary ≤ d.stamp ∧ d.key < mtrKey false 4096 .rd ∧
    mget 0 ((Run.start s).meterAuto).m.mtr (mtrKey true 0 .rd) = 64 := by decide +kernel
theorem wit_meter_close : let s := wMeter { settling := true, boundary := 100, snapCc := 904 }
    s.c.mtr.settling = true ∧ s.c.mtr.snapCc + 4096 ≤ s.c.cc ∧ (Run.start s).settled s.c.mtr.boundary = true := by decide +kernel
theorem wit_meter_ack : let s := wMeter { closed := true, acked := false, seqNo := 3 }
    mgmtOpen s ∧ s.c.mtr.closed = true ∧ (3 : Word).toNat = s.c.mtr.seqNo % 2 ^ 32 ∧ (wMeter {}).c.mtr.closed = false := by
  decide +kernel
/-- The cycle counter of Room 0 is at its last value. -/
def wCounter : State := { wReg with m := { pmc := [(8, 0xFFFFFFFFFFFF)] } }
theorem wit_counter_wrap : let r := Run.start wCounter
    r.bit 0xF00 0 = false ∧ 8 ∉ wCounter.c.wrapped ∧ 2 ^ 48 ≤ (mget 0 wCounter.m.pmc 8).toNat % 2 ^ 48 + r.pmcTick 0 8 := by
  decide +kernel
theorem wit_counter_commands : mgmtReady wReg ∧ storesWf wReg ∧ wReg.m.reg (rmBase 0 + 0x640) &&& 0x300 = 0 ∧
    (1 : Word).getLsbD 0 = true := by decide +kernel
theorem wit_lock_select : mgmtReady wReg ∧ wReg.c.winLockArmed = true ∧
    ({ inRun with winLockArmed := false } : Ctl).winLockArmed = false ∧ (0x9F : Word).toNat % 256 < 160 := by decide +kernel
def sampleAt (t : BitVec 10) : TempSample :=
  { temps := Vector.replicate 12 t, valid := Vector.replicate 12 true, watts := 99 }
theorem wit_heat : let s := wReg
    let r := Run.start s
    let t' : Thm := { s.c.thm with temps := (sampleAt 400).temps, valid := (sampleAt 400).valid }
    let u := wReg [] { inRun with thm := { temps := Vector.replicate 12 500, valid := Vector.replicate 12 true } }
    s.c.mod.mode ≠ .off ∧ s.c.mod.mode ≠ .aux ∧ s.c.thm.warn = false ∧ t'.reaches (r.fld 0x30040 7 0) = true ∧
    t'.reaches (r.fld 0x30040 15 8) = false ∧ t'.reaches 125 = false ∧ s.c.tt.run = true ∧ s.c.tt.cur = 0 ∧ s.c.tt.pend = false ∧
    u.c.thm.reaches 125 = true ∧ u.c.out.thermtripN = true := by decide +kernel
def clkOk : Clk := { ref100 := true, ref156 := true, xtal := true, coreLock := true, mgLock := true, auxLock := true }
def noRef : ClockSample :=
  { ref100 := false, ref156 := true, xtal := true, coreLock := true, mgLock := true, auxLock := true,
    porchLock := 0, chLock := 0, doorLock := 0 }
theorem wit_clock_loss : let s := wReg [] { inRun with clk := clkOk }
    s.c.mod.mode ≠ .off ∧ noRef.porchLock = s.c.clk.porchLock ∧ noRef.chLock = s.c.clk.chLock ∧
    noRef.doorLock = s.c.clk.doorLock ∧ s.c.clk.lost = 0 ∧ (Run.start s).lostNow noRef ≠ 0 := by decide +kernel
def wNap (y : Pwr) : State := wReg [] { inMode .check with thm := { pwr := (Vector.replicate 160 .awake).set 3 y } }
theorem wit_thermostats : let s := wNap .nap
    let r := Run.start s
    s.c.thm.wakeCc[(3 : Fin 160)] = none ∧ s.c.thm.pwr[(3 : Fin 160)] = .nap ∧ r.pwrTarget 3 ≠ .sleep ∧ r.wakeDue 3 .nap = true ∧
    (wNap .awake).c.thm.pwr[(3 : Fin 160)] = .awake ∧ (3 : Fin 64).val < DomKind.room.count ∧
    (3 : Fin 160).val = DomKind.room.base + (3 : Fin 64).val := by decide +kernel
/-- The first and last numbers that R474 gives each kind of domain. -/
theorem test_domain_numbers : [domOf .room 63, domOf .porch 0, domOf .porch 7, domOf .channel 0, domOf .channel 15,
    domOf .door 0, domOf .door 7, domOf .stop 0, domOf .stop 63] = [63, 64, 71, 72, 87, 88, 95, 96, 159] := by decide +kernel
theorem wit_rails : let s := wReg
    s.c.mod.mode ≠ .off ∧ s.c.mod.mode ≠ .aux ∧ 1 ≤ (2 : Fin 8).val ∧ (2 : Fin 8).val ≤ 6 ∧ s.c.railLow.getLsbD 2 = false := by
  decide +kernel
def wPower : State := wReg [(0xF04, 1)] { inRun with pwrGood := true }
theorem wit_supplies : storesWf wPower ∧ wPower.c.mod.mode ≠ .off ∧ wPower.c.mod.mode ≠ .aux ∧ wPower.c.pwrGood = true ∧
    (stt [] (inMode .off)).c.mod.mode = .off := by decide +kernel
/-- Latch 7 is held by port A until `t`. -/
def wLatch (t : Nat) : State := wReg [] { inRun with now := 100, lch :=
  { l := (Vector.replicate 32 {}).set 7 { owner := some .a, token := 1, endsAt := t } } }
theorem wit_latches : let x := (wLatch 200).c.lch.l[(7 : Fin 32)]
    let f := (wLatch 200).c.lch.l[(8 : Fin 32)]
    let e := (wLatch 90).c.lch.l[(7 : Fin 32)]
    (wLatch 200).c.mod.mode ≠ .off ∧ x.err = false ∧ f.err = false ∧ f.owner = none ∧ x.owner = some .a ∧ 100 < x.endsAt ∧
    x.owner = some (mgOther .b) ∧ x.takenIn ≠ some ((wLatch 200).c.now / 40) ∧ e.owner ≠ none ∧ e.endsAt ≤ (wLatch 90).c.now := by
  decide +kernel
theorem wit_latch_release : let x := (wLatch 200).c.lch.l[(7 : Fin 32)]
    let v : Word := 0x10003
    (wLatch 200).c.mod.mode ≠ .off ∧ (wLatch 200).c.img.busy = false ∧ v.getLsbD 0 = true ∧ v.getLsbD 1 = true ∧
    (x.owner = some .a ∧ v.extractLsb' 16 16 = x.token) ∧
    ¬(x.owner = some .a ∧ (0x20001 : Word).extractLsb' 16 16 = x.token) ∧ ¬(x.owner = some .b ∧ v.extractLsb' 16 16 = x.token) ∧
    (0x2 : Word).getLsbD 0 = false ∧ (0x2 : Word).getLsbD 1 = true := by decide +kernel
theorem wit_tenant_zero : mgmtReady wReg ∧ mgmtOpen wReg ∧ (4095 : Fin 4096).val ≠ 0 := by decide +kernel
theorem wit_tenant_words : storesInv wReg ∧ ((33554432 : Word) &&& 0x3FFFFFF).toNat ≤ 33554432 := by
  unfold storesInv regsMasked; decide +kernel
def wMgUp : State := wReg [] { inRun with clk := clkOk, mgA := { up := true } }
theorem wit_mg_links : wMgUp.c.mod.mode ≠ .off ∧ wMgUp.c.clk.ref100 = true ∧ ((Run.start wMgUp).mg .b).up = false ∧
    wMgUp.c.jtag = .none ∧ ((Run.start wMgUp).mg .a).up = true ∧ (∀ n : Fin 32, wMgUp.c.lch.l[n].owner ≠ some .a) := by decide +kernel
theorem wit_sideband : wReg.c.mod.mode ≠ .off ∧ wReg.c.jtag = .none ∧ (0x200 : BitVec 32).toNat % 4 = 0 ∧
    (1 : Word).getLsbD 2 = false := by decide +kernel
theorem wit_jtag : (∀ p : Fin 8, quietPorch wReg p) ∧ wPower.c.pwrGood = true ∧ wPower.c.railLow = 0 ∧
    ({ inMode .load with pwrGood := true } : Ctl).mod.mode = .load ∧ wPower.c.img.busy = false := by decide +kernel
theorem wit_queue_and_stores : storesInv (wReg [(0xF00, 1)]) ∧ step { wReg [(0xF00, 1)] with pending := [.timeExchange] } =
    .next (wReg [(0xF00, 1)]) ∧ (wReg).pending = [] ∧ (wReg).c.mod.mode ≠ .off ∧ (wReg).c.mod.mode ≠ .aux := by
  refine ⟨by unfold storesInv regsMasked; decide +kernel, rfl, by decide +kernel⟩

/-! ## The spec's worked examples -/

/-- The illustrative masks of "A decode from host to channel" (02_pool_addressing.md): Room, set, ordering and rotation. -/
def exMasks : SMap Word :=
  (List.range 6).map (fun (k : Nat) => (0x800 + 8 * k, w32 ((0x41041041 <<< k) % 2 ^ 32))) ++
  (List.range 6).map (fun (k : Nat) => (0x804 + 8 * k, w32 ((0x41041041 <<< k) / 2 ^ 32))) ++
  (List.range 15).map (fun (k : Nat) => (0x840 + 8 * k, w32 ((2 ^ (6 + k) + 2 ^ (21 + k)) % 2 ^ 32))) ++
  (List.range 15).map (fun (k : Nat) => (0x844 + 8 * k, w32 (2 ^ (21 + k) / 2 ^ 32))) ++
  (List.range 17).map (fun (k : Nat) => (0x940 + 8 * k, w32 (2 ^ k))) ++
  (List.range 12).map (fun (k : Nat) => (0x944 + 8 * k, w32 (2 ^ (16 + k)))) ++
  (List.range 4).map fun (k : Nat) => (0x9D0 + 4 * k, w32 (0x1111 * 2 ^ k))
def exRegs : SMap Word := (exMasks ++ [(0x400, 0x100040), (0x83820, 0x80000040), (0x83824, 16), (0x83828, 0xB00A), (0x180, 4)]).foldl
  (fun (m : SMap Word) (e : Nat × Word) => mset (regReset e.1) m e.1 e.2) []
/-- Decoder 0 of the example of R331 (10_porch.md). -/
def exDec : Dec :=
  { committed := true, hpaBase := 0x4000000000, size := 0x4000000000, iw := 2, ig := 4096, dpaBase := 0, pos := 1 }
def exLink : Link := { up := true, decs := (Vector.replicate 8 {}).set 0 exDec }
def exHouse : State := stt exRegs (inPorch inRun { opened := true, links := (Vector.replicate 2 {}).set 0 exLink } 3)
/-- 10_porch.md, R330: HPA 0x60_8246_9A40 is DPA 0x10_4123_4A40; R37: its pool address is 0x2C02_C123_4A40. -/
theorem test_hpa_to_pool : let r := Run.start exHouse
    r.hpaToDpa 3 0 0x6082469A40 = some 0x1041234A40 ∧ r.dpaToPa 3 0 0x1041234A40 = some 0x2C02C1234A40 := by decide +kernel
/-- 10_porch.md, R331: the snoops of lines 8 to 11. -/
theorem test_pool_to_hpa : let r := Run.start exHouse
    r.paToHpas 3 0 0x2C02C1234800 = [0x6082469800] ∧ r.paToHpas 3 0 0x2C02C1234B00 = [0x6082469B00] := by decide +kernel
def exBlk : Block := 0x2C02C1234
/-- 02_pool_addressing.md: region 0xB00B, block offset 0x1234, line 10, chunk 1; identifier 0x6_1093; Room 61, set 9,801. -/
theorem test_hashes : let r := Run.start exHouse
    paBlock 0x2C02C1234A40 = exBlk ∧ blkRegion exBlk = 0xB00B ∧ blkOff exBlk = 0x1234 ∧ paChunk 0x2C02C1234A40 = 1 ∧
    lineNo ((0x2C02C1234A40 : PoolAddr).extractLsb' 8 40) = 10 ∧ r.ordId 3 0x2A7 exBlk = 0x61093 ∧ r.roomOf exBlk = 61 ∧
    r.setOf exBlk = 9801 ∧ r.hashRank = 20 ∧ rgnBase 0xB00B = 0x12C02C0 := by decide +kernel
/-- The tag 0x2C02 of Room 61, set 9,801 names the block again (R51). -/
theorem test_block_of : (Run.start exHouse).blockOf 61 9801 0x2C02 = exBlk := by decide +kernel
/-- Near placement in way 6: Cellar block 0xFEA_6496, line 10 in channel 7; home placement in frame 37: block 0x94_1234,
line 10 in channel 14. -/
theorem test_placement : let r := Run.start exHouse
    r.nearBase = 0xE000000 ∧ r.nearCell 61 9801 6 = 0xFEA6496 ∧ r.chanOf 0xFEA6496 10 = 7 ∧ homeCell 37 exBlk = 0x941234 ∧
    r.chanOf 0x941234 10 = 14 := by decide +kernel
/-- 06_ordering.md: DPA 0x10_6123_4A40 has the same identifier and Room 29. -/
theorem test_other_room : let r := Run.start exHouse
    r.dpaToPa 3 0 0x1061234A40 = some 0x2C02E1234A40 ∧ r.ordId 3 0x2A7 (paBlock 0x2C02E1234A40) = 0x61093 ∧
    r.roomOf (paBlock 0x2C02E1234A40) = 29 := by decide +kernel
def exTag : TagEnt := { tag := 0x2C02, valid := 0x400, tenant := 0x2A7, state := 2, cls := 5, epoch := 0x13 }
/-- 03_room_lookup.md: the three words of the tag entry, and where the Pantry shows them. -/
theorem test_tag_words : entWord exTag.toBits 0 = 0x04002C02 ∧ entWord exTag.toBits 1 = 0x22A70000 ∧
    entWord exTag.toBits 2 = 0x000004C5 ∧ TagEnt.ofBits exTag.toBits = exTag ∧
    (Run.start (stt [(0x500, 11)] {})).pantryAt 0x105CB6C = (61 * 524288 + 6 * 32768 + 9801, 0) := by decide +kernel
/-- 03_room_lookup.md: with word 0x8200 the victim is way 4, and its installation makes the word 0x8211. -/
theorem test_victim : plruWalk 0x8200 0x0FD0 4 1 = 4 ∧ withParity (plruAway 0x8200 4) = 0x8211 ∧
    (Run.start exHouse).nearCell 61 9801 4 = 0xFEA6494 ∧ (Run.start exHouse).chanOf 0xFEA6494 0 = 15 ∧
    (Run.start exHouse).chanOf 0xFEA6494 9 = 8 := by decide +kernel
/-- 05_coherence.md: directory set 1,974 and tag 0x0_0582 of the block at its home. -/
theorem test_dir_index : dirSet exBlk = 1974 ∧ dirTag exBlk = 0x582 := by decide +kernel
/-- 09_doors_fabric.md: FILL_P of tracker 17 of Room 61, and its header. -/
def exFill : FMsg :=
  { dst := 11, src := 4, hops := 8, op := Op.fillP, eseq := 0x123, tag := 0x47D, addr := 0x2C02C1234A, tenant := 0x2A7, kind := 2,
    mirror := false, poison := false, noinst := false, twin := false, held := false, last := false, grant := 0, mask := 0x400,
    word4hi := 0, bmask := 0, line := 0 }
theorem test_message_words : (msgBits exFill).extractLsb' 0 32 = 0x0101810B ∧ (msgBits exFill).extractLsb' 32 32 = 0x047D0123 ∧
    (msgBits exFill).extractLsb' 64 32 = 0x02C1234A ∧ (msgBits exFill).extractLsb' 96 32 = 0x0022A72C ∧
    (msgBits exFill).extractLsb' 128 32 = 0x400 ∧ msgOfBits (msgBits exFill) = exFill ∧
    mkHdr 0 false 0 496 162 false 0 = 0x00A27C00 := by decide +kernel
/-- 09_doors_fabric.md: θ = 8 ns, the delay 60 ns, and the rate +64,000 ppb. -/
theorem test_time_exchange : timeTheta 1000000 1000068 1000400 1000452 = 8 ∧
    timeDelay 1000000 1000068 1000400 1000452 = 60 ∧ slewRate 8 125 = 64000 := by decide +kernel
/-- 16_observation.md: 72 cc fall in bin 1, 476 cc in bin 7, 1,151 cc in bin 18, and bin 31 begins at 1,960 cc. -/
theorem test_histogram_bins : histBin 72 40 6 = 1 ∧ histBin 476 40 6 = 7 ∧ histBin 1151 40 6 = 18 ∧ histBin 1960 40 6 = 31 ∧
    histBin 1959 40 6 = 30 := by decide +kernel
/-- What a command leaves of a state. -/
def after (c : Instr) (s : State) : State := match exec c s with
  | .next t => t
  | _ => s
/-- 14_management.md: a toggle write turns FBX_SHADOW_NS from 0x07D0 into 0x0FD0. -/
theorem test_toggle_alias : (after (.mgmtWrite .a 0x1C010 0xF 0x800) wReg).m.reg 0x10010 = 0xFD0 ∧ wReg.m.reg 0x10010 = 0x7D0 := by
  decide +kernel
/-- 14_management.md: the Latch tie at AUX tick 0x31A47, MGB's release, and the next tie. -/
def exTie : State :=
  let s := wReg [] { inRun with now := 0x31A47 * 400 }
  after (.latchTake .b 5) (after (.latchTake .a 5) s)
theorem test_latch_tie : exTie.c.out.mgmt = [(.a, 0x20014, 0x00010008), (.b, 0x20014, 0x00010009)] ∧ exTie.c.lch.tieNext = false := by
  decide +kernel
theorem test_latch_next_tie :
    let s := after (.latchRelease .b 5 0x10001) exTie
    let t := after (.latchTake .b 5) (after (.latchTake .a 5) { s with c := { s.c with out := {}, now := s.c.now + 4000 } })
    t.c.out.mgmt = [(.a, 0x20014, 0x00020005), (.b, 0x20014, 0x00020004)] := by decide +kernel
/-- 03_room_lookup.md: 0x0008_0008 written to RM12_WAYDIS disables way 3 alone. -/
theorem test_waydis_mask : (after (.waydisWrite .a (BitVec.ofNat 26 (rmBase 12 + 0x20)) 0xF 0x80008)
    (wReg [(rmBase 12 + 0x20, 0x10)])).m.reg (rmBase 12 + 0x20) = 0x18 := by decide +kernel
/-- 16_observation.md: 0xFFFF_00A0 written to RM61_PMC_CTL0 sets EN and EVENT 0x20. -/
theorem test_pmc_ctl : (after (.mgmtWrite .a (BitVec.ofNat 26 (rmBase 61 + 0x640)) 0xF 0xFFFF00A0) wReg).m.reg (rmBase 61 + 0x640) =
    0xA0 := by decide +kernel
/-- 17_register_map.md: the set alias of PMC_FREEZE. -/
theorem test_freeze_alias : (after (.mgmtWrite .a 0x4F00 0xF 1) wReg).m.reg 0xF00 = 1 ∧
    (after (.mgmtWrite .a 0x8F00 0xF 1) (wReg [(0xF00, 1)])).m.reg 0xF00 = 0 := by decide +kernel
/-- 12_fuse_box.md: ROOM_FAIL of Room 12 with CAUSE 5 fences it; FBX_FIRST_INFO reads 0x050B_0017, and the shadow lasts 2,000 ns. -/
def exFence : State :=
  let e : Event := { code := Code.roomFail, src := 0, sub := 12, cause := 5, mKind := 1, mId := 12, stamp := 7200000000000 }
  after .eventDecide (wReg exRegs { inRun with fbx := { reported := [e] } })
theorem test_room_fenced : (Run.start exFence).view .a 0x10100 = 0x050B0017 ∧ exFence.c.fbx.fenced = 1#96 <<< 12 ∧
    exFence.c.fbx.cur = some 12 ∧ exFence.c.tt.next = 14 ∧ exFence.c.mod.mode = .degraded ∧
    exFence.c.fbx.shadows = [⟨12, 7200000000000, 7200000002000⟩] := by decide +kernel
/-- 08_cellar.md: the low nibble of byte 165 lies in symbol 85, its high nibble in symbol 93. -/
theorem test_symbol : let x : Raw := { data := (0x5C#2048) <<< (8 * 165) }
    x.sym 85 = 0xC ∧ x.sym 93 = 5 ∧ x.sym 84 = 0 ∧ symDevice 85 = 10 ∧ symDevice 93 = 11 := by decide +kernel
/-- R247: the metadata's fields by their bits. -/
theorem test_metadata :
    let md : Meta := { tagSh := 0xABCD, tenant := 0x123, dirty := true, state := 2, epoch := 0x45, way := 6, lcode := 3 }
    (metaWord md).extractLsb' 0 48 = 0x36459123ABCD := by decide +kernel
/-- R248: with P = 8 parity symbols, the written positions vanish at every root of the generator. -/
theorem test_codeword : let y := encodeRaw 0 { lcode := 0 }
    (List.range 8).all (fun j => polyEval ((codePlaces 0).map y.sym) (gfExp j) = 0) = true := by decide +kernel
/-- R488: a word pushed into an empty FIFO leaves it at the third read edge, and its room is seen two write edges later. -/
theorem test_crossing : let x := (({} : Xing).send 1).wrEdge 32
    x.words = [true] ∧ x.rdEdge.rdEdge.words = [true] ∧ x.rdEdge.rdEdge.rdEdge.words = [] ∧
    (x.rdEdge.rdEdge.rdEdge.wrEdge 32).load = 1 ∧ ((x.rdEdge.rdEdge.rdEdge.wrEdge 32).wrEdge 32).load = 0 := by decide +kernel

/-- A crossing with room for two words, full of one packet that its read side knows of. -/
def xFull : Xing := ((((({} : Xing).send 2).wrEdge 2).wrEdge 2).rdEdge).rdEdge
theorem wit_crossings : Xing.sound 2 xFull ∧ xFull.words.length = 2 ∧ xFull.rdEdge.words ≠ xFull.words := by
  unfold Xing.sound; decide +kernel
/-- The last line of a channel of four ranks of 32 Gb devices. -/
theorem wit_place : let x : Chan := { ranks := 2, dens := true }
    2 ^ 30 - 1 < 2 ^ (11 + x.rankBits + if x.dens then 17 else 16) ∧
    x.place (2 ^ 30 - 1) = ⟨3, 7, 3, 131071, 2016⟩ := by decide +kernel
theorem wit_raw_word : lineOk.rawWord {} = metaWord lineOk.md ∧ decodes lineOk.md.lcode none {} = true := by decide +kernel
/-- R404 and R12: in OFF no command of the management ports changes anything. -/
theorem test_off : after (.mgmtWrite .a 0x190118 0xF 7) (stt [] (inMode .off)) = stt [] (inMode .off) := by decide +kernel

/-! ## Ill-formed commands -/

def badReq : HostReq := { req0 with hpa := 0x41 }
def badErr : ErrPat := { syms := [(160, 1)] }
theorem test_wf_refuses_requests : [Instr.memRd badReq, .memRdData badReq, .memWr badReq, .memWrPtl badReq, .memInv badReq,
    .memClnEvct badReq, .memSpecRd badReq, .biRsp 0 0 0x40 true .i, .biRsp 0 0 0x20 false .i, .biConflict 0 0 0x20].all
    (fun (c : Instr) => !c.wf) = true := by decide +kernel
theorem test_wf_refuses_errors : [Instr.cellarReadDone 0 0 badErr, .scrubRead 0 0 0 badErr, .resilverRead badErr,
    .sweepRead 0 0 0 badErr, .tagRebuild 0 (Vector.replicate 16 badErr), .frameStart 0 5, .seqGap 1 3].all
    (fun (c : Instr) => !c.wf) = true := by decide +kernel
theorem test_wf_refuses_addresses : [Instr.hostViewWrite 0 0 2 0, .windowSegmentWrite .a 0x80802 0xF 0,
    .windowSegmentWrite .a 0x80000 0xF 0, .regionEntryWrite .a 0x800000 0xF 0, .classEntryWrite .a 0xC10000 0xF 0,
    .waydisWrite .a 0x800000 0xF 0, .modeRequest .a 0x105 0, .smbSetPointer .a 0x4000000 none, .smbWrite .a 2 0 none].all
    (fun (c : Instr) => !c.wf) = true := by decide +kernel
theorem test_wf_refuses_mailbox : (Instr.mailboxCommand 0 0 ⟨0x400, List.replicate 513 0⟩).wf = false := by decide +kernel
theorem test_wf_refuses_domains : [Instr.thermostatWake .porch 8, .thermostatWake .channel 16, .thermostatWake .door 8].all
    (fun (c : Instr) => !c.wf) = true := by decide +kernel
theorem test_wf_admits : [Instr.memRd req0, .biRsp 0 0 0x100 true .i, .mgmtWrite .a 1 1 0, .frameStart 0 4].all Instr.wf = true := by
  decide +kernel

/-! ## Reset, the queue and idle steps -/

/-- The reset state meets the invariants of the stores. -/
theorem reset_stores : storesInv State.reset := by unfold storesInv regsMasked; decide +kernel
/-- From reset, PWR_GOOD and the clocks bring the House to LOAD (R408, R428). -/
theorem test_reset_to_load : let s := after .pwrGoodRise State.reset
    let t := after (.clockMonitorWindow { noRef with ref100 := true }) s
    (after .startUpStep t).c.mod.mode = .load := by decide +kernel
theorem test_idle_tick : ∃ t, step State.reset = .next t ∧ t.c.now = 8 := ⟨_, rfl, by decide +kernel⟩
theorem test_no_bits : decodeTableWord 32 0 = none ∧ State.reset.withFetchWord 32 0 = State.reset := by decide +kernel

end Sys2Proof.Tests
end

section
/-! SUPPORT. The ground of a command at work: the clocks, the mode, the running Timetable, the fences and the fuses, and
that no operation of the counters, the Porches or the fabric moves it. One lemma per operation, in the order of the model.
They rewrite from the outside (`↓`), so that what an operation was given is never looked at; and where a lemma holds by
computation it is `(rfl)` and not `rfl`, so that `simp` also discharges with it what a loop asks of its body. -/
namespace Sys2Proof.Laws
open Sys2Proof Sys2Proof.Machine

/-- What a unit finds and does not change while it works. -/
structure Ground where
  now : Nat
  cc : Nat
  ftCore : Nat
  mode : Mode
  run : Bool
  cur : Nat
  slot : BitVec 12
  fenced : BitVec 96
  fuses : Fuses

/-- The ground of a command at work. -/
def ground (r : Run) : Ground :=
  ⟨r.c.now, r.c.cc, r.c.ftCore, r.c.mod.mode, r.c.tt.run, r.c.tt.cur, r.c.tt.slot, r.c.fbx.fenced, r.c.fuses⟩

/-- The command at work that an action leaves, whether it is done or has to wait. -/
def needRun : Need → Run
  | .ok r => r
  | .wait r _ => r

variable (r : Run)

/-! ## Control flow -/

theorem ground_foldl {α : Type} (f : Run → α → Run) (xs : List α) (h : ∀ r x, ground (f r x) = ground r) :
    ground (xs.foldl f r) = ground r := by
  induction xs generalizing r with
  | nil => rfl
  | cons x xs ih => exact (ih _).trans (h r x)

@[simp ↓] theorem ground_forEach {α : Type} (xs : List α) (f : α → Run → Run) (h : ∀ x r, ground (f x r) = ground r) :
    ground (r.forEach xs f) = ground r := ground_foldl r _ xs fun r x => h x r

@[simp ↓] theorem ground_when (b : Bool) (f : Run → Run) (h : ∀ r, ground (f r) = ground r) :
    ground (r.when b f) = ground r := by
  unfold Run.when
  split
  · exact h r
  · rfl

@[simp ↓] theorem ground_ite {p : Prop} [Decidable p] (a b : Run) :
    ground (if p then a else b) = if p then ground a else ground b := apply_ite _ _ _ _

/-! ## Parts of the state -/

@[simp ↓] theorem ground_st (o) : ground (r.st o) = ground r := (rfl)
@[simp ↓] theorem ground_setReg (a v) : ground (r.setReg a v) = ground r := (rfl)
@[simp ↓] theorem ground_count32 (a n) : ground (r.count32 a n) = ground r := (rfl)
@[simp ↓] theorem ground_count16 (a n) : ground (r.count16 a n) = ground r := (rfl)
@[simp ↓] theorem ground_rmCount (m off n) : ground (r.rmCount m off n) = ground r := (rfl)
@[simp ↓] theorem ground_pchCount (p off n) : ground (r.pchCount p off n) = ground r := (rfl)
@[simp ↓] theorem ground_peak (a v) : ground (r.peak a v) = ground r := by simp [ground]
@[simp ↓] theorem ground_modRoom (m f) : ground (r.modRoom m f) = ground r := (rfl)
@[simp ↓] theorem ground_modPorch (p f) : ground (r.modPorch p f) = ground r := (rfl)
@[simp ↓] theorem ground_modLink (p k f) : ground (r.modLink p k f) = ground r := (rfl)
@[simp ↓] theorem ground_modChan (c f) : ground (r.modChan c f) = ground r := (rfl)
@[simp ↓] theorem ground_modDoor (d f) : ground (r.modDoor d f) = ground r := (rfl)
@[simp ↓] theorem ground_modFab (f) : ground (r.modFab f) = ground r := (rfl)
@[simp ↓] theorem ground_modThm (f) : ground (r.modThm f) = ground r := (rfl)
@[simp ↓] theorem ground_modMtr (f) : ground (r.modMtr f) = ground r := (rfl)
@[simp ↓] theorem ground_modRebuild (f) : ground (r.modRebuild f) = ground r := (rfl)
@[simp ↓] theorem ground_modPeer (e f) : ground (r.modPeer e f) = ground r := (rfl)
@[simp ↓] theorem ground_toHost (h) : ground (r.toHost h) = ground r := (rfl)
@[simp ↓] theorem ground_vector (v) : ground (r.vector v) = ground r := (rfl)
@[simp ↓] theorem ground_grant (k code) : ground (r.grant k code) = ground r := (rfl)
@[simp ↓] theorem ground_see (blk code) : ground (r.see blk code) = ground r := (rfl)
@[simp ↓] theorem ground_post (k code x s) : ground (r.post k code x s) = ground r := (rfl)
@[simp ↓] theorem ground_launch (k j x q) : ground (r.launch k j x q) = ground r := (rfl)

@[simp ↓] theorem ground_modFbx (f : Fbx → Fbx) (h : (f r.c.fbx).fenced = r.c.fbx.fenced) :
    ground (r.modFbx f) = ground r := by simp [ground, h]

@[simp ↓] theorem ground_modMod (f : Mod → Mod) (h : (f r.c.mod).mode = r.c.mod.mode) :
    ground (r.modMod f) = ground r := by simp [ground, h]

/-! ## Events -/

@[simp ↓] theorem ground_report (e) : ground (r.report e) = ground r := by
  rcases report_cases r e with h | h <;> rw [h] <;> simp

@[simp ↓] theorem ground_rmEvent (m code addr key cause path) : ground (r.rmEvent m code addr key cause path) = ground r :=
  ground_report r _
@[simp ↓] theorem ground_pchEvent (p k code addr access path) : ground (r.pchEvent p k code addr access path) = ground r :=
  ground_report r _
@[simp ↓] theorem ground_chEvent (c code addr key cause mKind mId access) :
    ground (r.chEvent c code addr key cause mKind mId access) = ground r := ground_report r _
@[simp ↓] theorem ground_sysEvent (src code cause addr path mKind mId) :
    ground (r.sysEvent src code cause addr path mKind mId) = ground r := ground_report r _

/-! ## Counters, meters and occupancy -/

@[simp ↓] theorem ground_pmcAdd (m k n) : ground (r.pmcAdd m k n) = ground r := by simp [Run.pmcAdd]

theorem ground_pulsed (ks : List Nat) : ground { r with c := { r.c with pulsed := ks } } = ground r := (rfl)

@[simp ↓] theorem ground_pmcSignal (m k n edge) : ground (r.pmcSignal m k n edge) = ground r := by
  simp [Run.pmcSignal, ground_pulsed]

@[simp ↓] theorem ground_pulse (m code n) : ground (r.pulse m code n) = ground r := by simp [Run.pulse]
@[simp ↓] theorem ground_meterAdd (bank t k n) : ground (r.meterAdd bank t k n) = ground r := by simp [Run.meterAdd]
@[simp ↓] theorem ground_charge (t k n stamp) : ground (r.charge t k n stamp) = ground r := by simp [Run.charge]
@[simp ↓] theorem ground_accrue (t ft) : ground (r.accrue t ft) = ground r := by simp [Run.accrue]
@[simp ↓] theorem ground_trimWake : ground r.trimWake = ground r := by simp [Run.trimWake]
@[simp ↓] theorem ground_setOcc (t n) : ground (r.setOcc t n) = ground r := by simp [Run.setOcc]
@[simp ↓] theorem ground_histAdd (p bin irq) : ground (r.histAdd p bin irq) = ground r := by simp [Run.histAdd]
@[simp ↓] theorem ground_histEnd : ground r.histEnd = ground r := by simp [Run.histEnd]

/-! ## The Porch -/

@[simp ↓] theorem ground_hostLog (p k log e hpa) : ground (r.hostLog p k log e hpa) = ground r := by simp [Run.hostLog]
@[simp ↓] theorem ground_modEnt (p uid f) : ground (r.modEnt p uid f) = ground r := (rfl)
@[simp ↓] theorem ground_answerEnt (p uid a) : ground (r.answerEnt p uid a) = ground r := (rfl)
@[simp ↓] theorem ground_retireEnt (p uid) : ground (r.retireEnt p uid) = ground r := (rfl)
@[simp ↓] theorem ground_modSent (p seq f) : ground (r.modSent p seq f) = ground r := (rfl)
@[simp ↓] theorem ground_buffer (b) : ground (r.buffer b) = ground r := (rfl)
@[simp ↓] theorem ground_ordHolds (p) : ground (r.ordHolds p) = ground r := by simp [Run.ordHolds]
@[simp ↓] theorem ground_chargeReq (q op t) : ground (r.chargeReq q op t) = ground r := by simp [Run.chargeReq]
@[simp ↓] theorem ground_enqueue (q it ans w land) : ground (r.enqueue q it ans w land) = ground r := by simp [Run.enqueue]

theorem ground_landInsert {r r' : Run} {p it seq} (h : r.landInsert p it = some (r', seq)) : ground r' = ground r := by
  unfold Run.landInsert at h
  dsimp only at h
  split at h
  · cases h; simp
  · split at h
    · cases h
    · cases h; simp

@[simp ↓] theorem ground_admitReq (b pa a) : ground (r.admitReq b pa a) = ground r := by
  unfold Run.admitReq
  dsimp only
  split
  · simp
  split
  · simp
  split
  · split
    · simp
    · split
      · next h => simp [ground_landInsert h]
      · simp
  · simp

@[simp ↓] theorem ground_checkEvent (p k n pa e) : ground (r.checkEvent p k n pa e) = ground r := by
  cases e <;> simp [Run.checkEvent]

@[simp ↓] theorem ground_refuse (q op n pa) : ground (r.refuse q op n pa) = ground r := by simp [Run.refuse]

@[simp ↓] theorem ground_ingress (q op) : ground (r.ingress q op) = ground r := by
  unfold Run.ingress
  split
  · rfl
  split
  · simp
  · split <;> simp

@[simp ↓] theorem ground_pump (p) : ground (r.pump p) = ground r := by
  unfold Run.pump
  split
  · refine ground_forEach _ _ _ fun k r => ?_
    refine (ground_forEach _ _ _ fun b r => ?_).trans (ground_modLink r p k _)
    split <;> simp
  · rfl

@[simp ↓] theorem ground_barSweep (p) : ground (r.barSweep p) = ground r := (rfl)
@[simp ↓] theorem ground_barMet (p) : ground (r.barMet p) = ground r := (rfl)

@[simp ↓] theorem ground_barEnd (p b) : ground (r.barEnd p b) = ground r := by
  unfold Run.barEnd
  dsimp only
  split <;> simp

@[simp ↓] theorem ground_barCheck (p) : ground (r.barCheck p) = ground r := by simp [Run.barCheck]
@[simp ↓] theorem ground_resultReads (p k slot) : ground (r.resultReads p k slot) = ground r := by simp [Run.resultReads]

@[simp ↓] theorem ground_rsvFinish (p k slot op a gone) : ground (r.rsvFinish p k slot op a gone) = ground r := by
  unfold Run.rsvFinish
  dsimp only
  split <;> simp

@[simp ↓] theorem ground_rsvFlush (p) : ground (r.rsvFlush p) = ground r := by
  refine ground_forEach _ _ _ fun e r => ?_
  split <;> simp

@[simp ↓] theorem ground_porchSettle (p) : ground (r.porchSettle p) = ground r := by simp [Run.porchSettle]

@[simp ↓] theorem ground_retire (s) : ground (r.retire s) = ground r := by cases s <;> simp [Run.retire]
@[simp ↓] theorem ground_answered (s a) : ground (r.answered s a) = ground r := by cases s <;> simp [Run.answered]
@[simp ↓] theorem ground_answer (k s a b) : ground (r.answer k s a b) = ground r := by simp [Run.answer]

/-! ## Messages between Houses -/

@[simp ↓] theorem ground_toDoor (d f stamp) : ground (r.toDoor d f stamp) = ground r := by simp [Run.toDoor]
@[simp ↓] theorem ground_discard (b e) : ground (r.discard b e) = ground r := by simp [Run.discard]

@[simp ↓] theorem ground_emit (f stamp) : ground (r.emit f stamp) = ground r := by
  unfold Run.emit
  split
  · simp
  split
  · simp
  · split <;> simp

theorem ground_number {r r' : Run} {f f'} (h : r.number f = (r', f')) : ground r' = ground r := by
  unfold Run.number at h
  dsimp only at h
  split at h <;> cases h <;> rfl

@[simp ↓] theorem ground_sendMsg (f stamp) : ground (r.sendMsg f stamp) = ground r := by
  unfold Run.sendMsg
  split
  · simp
  · split
    next h => simp [ground_number h]

@[simp ↓] theorem ground_hallMsg (k f stamp code s) : ground (r.hallMsg k f stamp code s) = ground r := by simp [Run.hallMsg]

@[simp ↓] theorem ground_msgGo (k f stamp q) : ground (r.msgGo k f stamp q) = ground r := by
  unfold Run.msgGo
  split
  · simp
  split
  · split
    next h => simp [ground_number h]
  · simp
  · simp

@[simp ↓] theorem ground_flushWaiting : ground r.flushWaiting = ground r := by simp [Run.flushWaiting]

@[simp ↓] theorem ground_fabPost (m x) : ground (r.fabPost m x) = ground r := by
  unfold Run.fabPost
  split <;> simp

@[simp ↓] theorem ground_fabLineIn (m k f l d b) : ground (r.fabLineIn m k f l d b) = ground r := by
  unfold Run.fabLineIn
  dsimp only
  split <;> simp

@[simp ↓] theorem ground_fabNext (m x) : ground (r.fabNext m x) = ground r := by
  unfold Run.fabNext
  dsimp only
  split <;> simp

@[simp ↓] theorem ground_answerData (m k it d b) : ground (r.answerData m k it d b) = ground r := by
  unfold Run.answerData
  split <;> simp

@[simp ↓] theorem ground_tellDone (m s tin) : ground (r.tellDone m s tin) = ground r := by
  unfold Run.tellDone
  split <;> simp

@[simp ↓] theorem ground_inboxAdd (d f) : ground (r.inboxAdd d f) = ground r := (rfl)

@[simp ↓] theorem ground_fabLeft (f) : ground (r.fabLeft f) = ground r := by
  unfold Run.fabLeft
  dsimp only
  split <;> simp

@[simp ↓] theorem ground_msgIn (d f stamp) : ground (r.msgIn d f stamp) = ground r := by simp [Run.msgIn]

@[simp ↓] theorem ground_transitIn (e f) : ground (r.transitIn e f) = ground r := by
  unfold Run.transitIn
  split
  · split <;> simp
  · simp

end Sys2Proof.Laws
end

section
/-! SUPPORT. The Rooms, their channels and their cohorts leave the ground alone. -/
namespace Sys2Proof.Laws
open Sys2Proof Sys2Proof.Machine

variable (r : Run)

/-! ## Channels, tags, buffers and waiters -/

@[simp ↓] theorem ground_rsvBreak (m f) : ground (r.rsvBreak m f) = ground r := by simp [Run.rsvBreak]

@[simp ↓] theorem ground_putLine (c idx x) : ground (r.putLine c idx x) = ground r := by
  unfold Run.putLine
  split <;> simp

@[simp ↓] theorem ground_cancelRepeat (c idx) : ground (r.cancelRepeat c idx) = ground r := (rfl)
@[simp ↓] theorem ground_celPush (c x) : ground (r.celPush c x) = ground r := by simp [Run.celPush]
@[simp ↓] theorem ground_poisonLater (c idx) : ground (r.poisonLater c idx) = ground r := (rfl)
@[simp ↓] theorem ground_twinLater (c idx) : ground (r.twinLater c idx) = ground r := (rfl)
@[simp ↓] theorem ground_lineUe (c major cause pa ms) : ground (r.lineUe c major cause pa ms) = ground r := by
  simp [Run.lineUe]
@[simp ↓] theorem ground_toRoom (c m x) : ground (r.toRoom c m x) = ground r := (rfl)
@[simp ↓] theorem ground_addWaiter (m it why ans) : ground (r.addWaiter m it why ans) = ground r := (rfl)
@[simp ↓] theorem ground_pullWaiters (m f) : ground (r.pullWaiters m f).1 = ground r := (rfl)
@[simp ↓] theorem ground_setTag (m set way e) : ground (r.setTag m set way e) = ground r := by simp [Run.setTag]
@[simp ↓] theorem ground_modTag (m set way f) : ground (r.modTag m set way f) = ground r := by simp [Run.modTag]
@[simp ↓] theorem ground_modWb (m seq f) : ground (r.modWb m seq f) = ground r := (rfl)
@[simp ↓] theorem ground_wbFree (m f) : ground (r.wbFree m f) = ground r := (rfl)
@[simp ↓] theorem ground_wbSweep (m) : ground (r.wbSweep m) = ground r := (rfl)

@[simp ↓] theorem ground_wbRetire (m seq) : ground (r.wbRetire m seq) = ground r := by
  unfold Run.wbRetire
  split <;> simp

@[simp ↓] theorem ground_wbNoCel (m seq) : ground (r.wbNoCel m seq) = ground r := by simp [Run.wbNoCel]

@[simp ↓] theorem ground_outSend (m o) : ground (r.outSend m o) = ground r := by
  unfold Run.outSend
  split
  · dsimp only
    split <;> simp
  · split <;> simp

@[simp ↓] theorem ground_outStep (m) : ground (r.outStep m) = ground r := by
  unfold Run.outStep
  split <;> simp

@[simp ↓] theorem ground_toChan (m o) : ground (r.toChan m o) = ground r := (rfl)
@[simp ↓] theorem ground_chanCmd (m c x) : ground (r.chanCmd m c x) = ground r := (rfl)
@[simp ↓] theorem ground_nearWrite (m w) : ground (r.nearWrite m w) = ground r := (rfl)
@[simp ↓] theorem ground_release (m set way l) : ground (r.release m set way l) = ground r := (rfl)

@[simp ↓] theorem ground_twinKick (m line) : ground (r.twinKick m line) = ground r := by
  unfold Run.twinKick
  dsimp only
  split
  · rfl
  · split <;> simp

@[simp ↓] theorem ground_rsvUnplace (m it) : ground (r.rsvUnplace m it) = ground r := by
  unfold Run.rsvUnplace
  split <;> simp

@[simp ↓] theorem ground_noteRisk (m seq it) : ground (r.noteRisk m seq it) = ground r := by
  unfold Run.noteRisk
  dsimp only
  split <;> simp

theorem ground_accept {r r' : Run} {m it d held} (h : r.accept m it d held = some r') : ground r' = ground r := by
  unfold Run.accept at h
  dsimp only at h
  split at h
  · cases h; simp
  · split at h
    · cases h
    · cases h; simp

@[simp ↓] theorem ground_acceptOr (m it d held) (f : Run → Run) (hf : ∀ r, ground (f r) = ground r) :
    ground (r.acceptOr m it d held f) = ground r := by
  unfold Run.acceptOr
  split
  next h => exact (hf _).trans (ground_accept h)
  next => simp

@[simp ↓] theorem ground_modMud (m seq f) : ground (r.modMud m seq f) = ground r := (rfl)
@[simp ↓] theorem ground_mudDrop (m f) : ground (r.mudDrop m f) = ground r := (rfl)
@[simp ↓] theorem ground_mudRelease (m e) : ground (r.mudRelease m e) = ground r := by simp [Run.mudRelease]
@[simp ↓] theorem ground_mudAdd (m line a set way kind st d w b s) :
    ground (r.mudAdd m line a set way kind st d w b s).1 = ground r := (rfl)
@[simp ↓] theorem ground_slotLost (m set way l b) : ground (r.slotLost m set way l b) = ground r := by simp [Run.slotLost]
@[simp ↓] theorem ground_rsvLeave (m b) : ground (r.rsvLeave m b) = ground r := by simp [Run.rsvLeave]
@[simp ↓] theorem ground_rsvScreen (m g) : ground (r.rsvScreen m g) = ground r := by simp [Run.rsvScreen]

/-! ## Poison -/

@[simp ↓] theorem ground_poisonCell (c idx md t pa) : ground (r.poisonCell c idx md t pa) = ground r :=
  (ground_modChan _ _ _).trans (ground_putLine _ _ _ _)
@[simp ↓] theorem ground_poisonOut (m c idx) : ground (r.poisonOut m c idx) = ground r := (rfl)
@[simp ↓] theorem ground_poisonWb (m line) : ground (r.poisonWb m line) = ground r := (rfl)
@[simp ↓] theorem ground_poisonHome (m line) : ground (r.poisonHome m line) = ground r := by simp [Run.poisonHome]

@[simp ↓] theorem ground_poisonNear (m line valid) : ground (r.poisonNear m line valid) = ground r := by
  unfold Run.poisonNear
  dsimp only
  split
  · split
    · rfl
    · split <;> simp
  · rfl

@[simp ↓] theorem ground_poisonHomeward (m line) : ground (r.poisonHomeward m line) = ground r := by
  simp [Run.poisonHomeward]

@[simp ↓] theorem ground_poisonLine (m line) : ground (r.poisonLine m line) = ground r := by
  unfold Run.poisonLine
  dsimp only
  split
  · simp
  split
  · simp
  · split <;> simp

/-! ## The Screen, the directory and the snoop trackers -/

@[simp ↓] theorem ground_scnPut (m set way e) : ground (r.scnPut m set way e) = ground r := (rfl)
@[simp ↓] theorem ground_dirPut (m set way e) : ground (r.dirPut m set way e) = ground r := (rfl)

@[simp ↓] theorem ground_scnFree (m g) : ground (r.scnFree m g) = ground r := by
  unfold Run.scnFree
  split <;> simp

theorem ground_newCoh {r r' : Run} {m c b i} (h : r.newCoh m c b = some (r', i)) : ground r' = ground r := by
  simp only [Run.newCoh, Option.ite_none_left_eq_some, Option.some.injEq, Prod.mk.injEq] at h
  obtain ⟨-, rfl, -⟩ := h
  simp

@[simp ↓] theorem ground_modCoh (m idx f) : ground (r.modCoh m idx f) = ground r := (rfl)
@[simp ↓] theorem ground_dropCoh (m idx) : ground (r.dropCoh m idx) = ground r := (rfl)
@[simp ↓] theorem ground_biPost (m p k kind hpa blk) : ground (r.biPost m p k kind hpa blk) = ground r := by
  simp [Run.biPost]
@[simp ↓] theorem ground_biSend (m idx pk pa n kind excl) : ground (r.biSend m idx pk pa n kind excl) = ground r := by
  simp [Run.biSend]
@[simp ↓] theorem ground_biSendAll (m idx links pa n kind excl) :
    ground (r.biSendAll m idx links pa n kind excl) = ground r := by simp [Run.biSendAll]
@[simp ↓] theorem ground_biEntry (m idx e kind) : ground (r.biEntry m idx e kind) = ground r := by simp [Run.biEntry]

@[simp ↓] theorem ground_cohUnpark (m idx) : ground (r.cohUnpark m idx) = ground r := by
  unfold Run.cohUnpark
  split
  · split
    · rfl
    · dsimp only
      split <;> simp
  · rfl

theorem ground_scnWay (m g) (f : Run → Nat → Run) (hf : ∀ r w, ground (f r w) = ground r) :
    ground (needRun (r.scnWay m g f)) = ground r := by
  unfold Run.scnWay
  dsimp only
  split
  · exact hf _ _
  split
  · split
    next h => simp [needRun, ground_newCoh h]
    next => rfl
  · rfl

theorem ground_scnAdd (m g p excl) : ground (needRun (r.scnAdd m g p excl)) = ground r := by
  unfold Run.scnAdd
  dsimp only
  split
  · simp [needRun]
  · exact ground_scnWay _ _ _ _ fun r w => by simp

theorem ground_scnRecord (m it) : ground (needRun (r.scnRecord m it)) = ground r := by
  unfold Run.scnRecord
  split
  · split
    · rfl
    dsimp only
    split
    · split
      · rfl
      · exact ground_scnAdd _ _ _ _ _
    · exact ground_scnAdd _ _ _ _ _
  · rfl

@[simp ↓] theorem ground_recordThen (m it ans) (f : Run → Run) (hf : ∀ r, ground (f r) = ground r) :
    ground (r.recordThen m it ans f) = ground r := by
  have hs := ground_scnRecord r m it
  unfold Run.recordThen
  split
  next h => exact (hf _).trans (by rwa [h] at hs)
  next h => exact (ground_addWaiter _ _ _ _ _).trans (by rwa [h] at hs)

@[simp ↓] theorem ground_takeWrite (m it d held) (f : Run → Run) (hf : ∀ r, ground (f r) = ground r) :
    ground (r.takeWrite m it d held f) = ground r := by simp [Run.takeWrite, hf]

/-! ## Fills, and reads of the other copy -/

@[simp ↓] theorem ground_modTrk (m idx f) : ground (r.modTrk m idx f) = ground r := (rfl)

theorem ground_newTrk {r r' : Run} {m b a i} (h : r.newTrk m b a = some (r', i)) : ground r' = ground r := by
  simp only [Run.newTrk, Option.ite_none_left_eq_some, Option.some.injEq, Prod.mk.injEq] at h
  obtain ⟨-, rfl, -⟩ := h
  simp

theorem ground_needTrk {r : Run} {m b a x} (h : r.needTrk m b a = some x) : ground x.1 = ground r := by
  unfold Run.needTrk at h
  split at h
  · cases h; rfl
  · exact ground_newTrk h

@[simp ↓] theorem ground_askFill (m idx b a op ls noinst tin) :
    ground (r.askFill m idx b a op ls noinst tin) = ground r := by simp [Run.askFill]

/-- What is done with a tracker, once there is one. -/
theorem ground_needTrk_map {r r' : Run} {m b a i} {f : Run × Nat → Run × Nat} (hf : ∀ x, ground (f x).1 = ground x.1)
    (h : (r.needTrk m b a).map f = some (r', i)) : ground r' = ground r := by
  obtain ⟨x, hx, e⟩ := Option.map_eq_some_iff.mp h
  calc ground r' = ground (f x).1 := by rw [e]
    _ = ground r := (hf x).trans (ground_needTrk hx)

theorem ground_askOther {r r' : Run} {m line a dst rmw near tin i}
    (h : r.askOther m line a dst rmw near tin = some (r', i)) : ground r' = ground r :=
  ground_needTrk_map (fun x => by simp) h

theorem ground_askTwin {r r' : Run} {m line a rmw tin i} (h : r.askTwin m line a rmw tin = some (r', i)) :
    ground r' = ground r := ground_askOther h

@[simp ↓] theorem ground_readTwin (m it) : ground (r.readTwin m it) = ground r := by
  unfold Run.readTwin
  split
  next h => simp [ground_askTwin h]
  next => simp

@[simp ↓] theorem ground_copyPoison (m b set way l d) : ground (r.copyPoison m b set way l d) = ground r := by
  simp [Run.copyPoison]

@[simp ↓] theorem ground_nearPoison (m set way b l d) : ground (r.nearPoison m set way b l d) = ground r := by
  unfold Run.nearPoison
  dsimp only
  split <;> simp

end Sys2Proof.Laws
end

section
/-! SUPPORT. What the Rooms do in a cc of their own accord leaves the ground alone. -/
namespace Sys2Proof.Laws
open Sys2Proof Sys2Proof.Machine

variable (r : Run)

/-! ## Writes that a Room takes, and misses -/

@[simp ↓] theorem ground_lineMiss (m it set way) : ground (r.lineMiss m it set way) = ground r := by
  unfold Run.lineMiss
  dsimp only
  split
  · split
    · simp
    split
    · simp
    · refine ground_takeWrite _ _ _ _ _ _ fun r => ?_
      split
      next h => simp [ground_needTrk_map (fun x => by simp) h]
      next => rfl
  · split
    next h => simp [ground_needTrk_map (fun x => by simp) h]
    next => simp

@[simp ↓] theorem ground_mudMerge (m it e) : ground (r.mudMerge m it e) = ground r := by simp [Run.mudMerge]
@[simp ↓] theorem ground_wbHomeward (m line) : ground (r.wbHomeward m line) = ground r := (rfl)

@[simp ↓] theorem ground_pendingWrite (m it t) : ground (r.pendingWrite m it t) = ground r := by
  unfold Run.pendingWrite
  dsimp only
  split
  · refine ground_takeWrite _ _ _ _ _ _ fun r => ?_
    split
    · simp
    split
    · simp
    · split <;> simp
  · simp

@[simp ↓] theorem ground_acceptNow (m it) : ground (r.acceptNow m it) = ground r := by
  unfold Run.acceptNow
  dsimp only
  split
  · simp
  split
  · simp
  split
  · simp
  split <;> simp

/-! ## Answers to snoops of other Houses -/

theorem ground_answerStart {r r' : Run} {m f} (h : r.answerStart m f = some r') : ground r' = ground r := by
  obtain ⟨⟨r₁, i⟩, hx, rfl⟩ := Option.map_eq_some_iff.mp h
  simp [ground_newCoh hx]

@[simp ↓] theorem ground_answerDrain (m idx b) : ground (r.answerDrain m idx b) = ground r := by simp [Run.answerDrain]

@[simp ↓] theorem ground_answerRead (m idx b t) : ground (r.answerRead m idx b t) = ground r := by
  unfold Run.answerRead
  split
  · refine ground_forEach _ _ _ fun l r => ?_
    split <;> simp
  · rfl

@[simp ↓] theorem ground_answerEnd (m c f) : ground (r.answerEnd m c f) = ground r := by
  unfold Run.answerEnd
  extract_lets b inv set muds copies near lines freed shared tagged unmud uncopied held clear cleared dropped last
  have hshared : ground shared = ground r := by
    unfold shared
    split
    · simp [freed]
    · refine (ground_forEach _ _ _ fun g r => ?_).trans (by simp [freed])
      split <;> simp
  have htagged : ground tagged = ground shared := by
    unfold tagged
    split
    · split <;> simp
    · simp
  have hdropped : ground dropped = ground r := by
    simp [dropped, cleared, uncopied, unmud, htagged, hshared]
  split <;> simp [hdropped]

@[simp ↓] theorem ground_answerStep (m idx) : ground (r.answerStep m idx) = ground r := by
  unfold Run.answerStep
  split
  · split
    · dsimp only
      split
      · rfl
      split
      · simp
      split
      · simp
      · split
        · split <;> simp
        · simp
    · rfl
  · rfl

@[simp ↓] theorem ground_cohEnd (m c) : ground (r.cohEnd m c) = ground r := by
  unfold Run.cohEnd
  split
  · simp
  · dsimp only
    split
    · split <;> simp
    · rfl
  · simp
  · rfl

@[simp ↓] theorem ground_scnSweepGo (m x) : ground (r.scnSweepGo m x) = ground r := by
  unfold Run.scnSweepGo
  dsimp only
  split
  · rfl
  · split
    next h => simp [ground_newCoh h]
    next => rfl

@[simp ↓] theorem ground_takeSnoop (m f) : ground (r.takeSnoop m f).1 = ground r := by
  unfold Run.takeSnoop
  dsimp only
  split
  · split <;> simp
  split
  · simp
  · split
    next h => simp [ground_answerStart h]
    next => simp

@[simp ↓] theorem ground_snoopsGo (m) : ground (r.snoopsGo m) = ground r := by simp [Run.snoopsGo]
@[simp ↓] theorem ground_trkSweep (m) : ground (r.trkSweep m) = ground r := (rfl)
@[simp ↓] theorem ground_cohPoll (m) : ground (r.cohPoll m) = ground r := by simp [Run.cohPoll]

/-! ## Host answers to back-invalidations -/

@[simp ↓] theorem ground_snoopDone (m idx s) : ground (r.snoopDone m idx s) = ground r := by simp [Run.snoopDone]

@[simp ↓] theorem ground_biTake (p k hpa blk x) : ground (r.biTake p k hpa blk x) = ground r := by
  unfold Run.biTake
  split <;> simp

@[simp ↓] theorem ground_biAccept (m p k g) : ground (r.biAccept m p k g) = ground r := by simp [Run.biAccept]

@[simp ↓] theorem ground_biTry (p k w) : ground (r.biTry p k w) = ground r := by
  unfold Run.biTry
  split <;> simp

@[simp ↓] theorem ground_biFlush (p k) : ground (r.biFlush p k) = ground r := by simp [Run.biFlush]
@[simp ↓] theorem ground_confFlush (p k) : ground (r.confFlush p k) = ground r := by simp [Run.confFlush]

/-! ## Jobs -/

@[simp ↓] theorem ground_ttRequest (t) : ground (r.ttRequest t) = ground r := by
  unfold Run.ttRequest
  split
  · simp [ground]
  · rfl

@[simp ↓] theorem ground_returnCheck : ground r.returnCheck = ground r := by simp [Run.returnCheck]

theorem ground_cdrain (b d : Bool) : ground { r with c := { r.c with cdrainBusy := b, cdrainDone := d } } = ground r := (rfl)
theorem ground_csweep (b : Bool) : ground { r with c := { r.c with csweepBusy := b } } = ground r := (rfl)
theorem ground_rjob (x : RJob) : ground { r with c := { r.c with rjob := x } } = ground r := (rfl)

@[simp ↓] theorem ground_jobsCheck : ground r.jobsCheck = ground r := by
  simp [Run.jobsCheck, ground_cdrain, ground_csweep, ground_rjob]

/-! ## Reads of the Cellar that come back -/

@[simp ↓] theorem ground_nearUe (m it c cause d) : ground (r.nearUe m it c cause d) = ground r := by
  unfold Run.nearUe
  dsimp only
  split
  · split
    · simp
    · split <;> simp
  · simp

@[simp ↓] theorem ground_homeUe (m it c idx cause) : ground (r.homeUe m it c idx cause) = ground r := by
  unfold Run.homeUe
  dsimp only
  split <;> simp

@[simp ↓] theorem ground_rmwWrite (m n x c d p) : ground (r.rmwWrite m n x c d p) = ground r := by simp [Run.rmwWrite]

theorem ground_rmwRefill {r r' : Run} {m e set w t} (h : r.rmwRefill m e set w t = some r') : ground r' = ground r := by
  obtain ⟨x, hx, rfl⟩ := Option.map_eq_some_iff.mp h
  simp [ground_needTrk hx]

@[simp ↓] theorem ground_rmwUe (m e x c cause d) : ground (r.rmwUe m e x c cause d) = ground r := by
  unfold Run.rmwUe
  dsimp only
  split
  · split
    · split
      next h => simp [ground_askTwin h]
      next => simp
    · simp
  · split
    · split
      · simp
      · split
        next h => simp [ground_rmwRefill h]
        next => simp
    · simp

@[simp ↓] theorem ground_celDeliver (c x rd raw) : ground (r.celDeliver c x rd raw) = ground r := by
  unfold Run.celDeliver
  split
  · split
    · rfl
    · split <;> simp
  · split
    · rfl
    · split <;> simp
  · split
    · rfl
    · split
      · split <;> simp
      · rfl
  · split
    · rfl
    · split <;> simp
  · rfl

@[simp ↓] theorem ground_celIn (c x bad) : ground (r.celIn c x bad) = ground r := by
  unfold Run.celIn
  split
  · simp
  · split <;> simp

/-! ## The Hallway -/

@[simp ↓] theorem ground_resilverCopy (m x) : ground (r.resilverCopy m x) = ground r := by
  unfold Run.resilverCopy
  simp

@[simp ↓] theorem ground_resilPass (m) : ground (r.resilPass m) = ground r := by
  unfold Run.resilPass
  split <;> simp

@[simp ↓] theorem ground_xferGo (x) : ground (r.xferGo x) = ground r := by
  unfold Run.xferGo
  dsimp only
  split <;> split <;> simp

theorem ground_hall (hs : List Hall) : ground { r with c := { r.c with hall := hs } } = ground r := (rfl)

@[simp ↓] theorem ground_itemIn (p m it bad) : ground (r.itemIn p m it bad) = ground r := by
  unfold Run.itemIn
  split
  · simp
  · exact ground_hall r _

@[simp ↓] theorem ground_retIn (m x) : ground (r.retIn m x) = ground r := by cases x <;> simp [Run.retIn]

@[simp ↓] theorem ground_arrive (f) : ground (r.arrive f) = ground r := by
  unfold Run.arrive
  split <;> simp

theorem ground_fly (fs : List Fly) : ground { r with c := { r.c with fly := fs } } = ground r := (rfl)

@[simp ↓] theorem ground_arrivals : ground r.arrivals = ground r := by simp [Run.arrivals, ground_fly]

@[simp ↓] theorem ground_wordsOut (x) : ground (r.wordsOut x) = ground r := by
  unfold Run.wordsOut
  split
  · exact ground_fly r _
  · rfl

@[simp ↓] theorem ground_wordQueues : ground r.wordQueues = ground r := by simp [Run.wordQueues]
@[simp ↓] theorem ground_takeSlots : ground r.takeSlots = ground r := (rfl)

@[simp ↓] theorem ground_inject1 (k) : ground (r.inject1 k) = ground r := by
  unfold Run.inject1
  split
  · split
    · exact ground_xferGo _ _
    · simp
  · rfl

@[simp ↓] theorem ground_hallway : ground r.hallway = ground r := by simp [Run.hallway]

/-! ## The end of a cc -/

@[simp ↓] theorem ground_setPwr (d s wake) : ground (r.setPwr d s wake) = ground r := (rfl)

@[simp ↓] theorem ground_wakesEnd : ground r.wakesEnd = ground r := by
  refine ground_forEach _ _ _ fun d r => ?_
  split <;> simp

theorem ground_win (w : Win) : ground { r with c := { r.c with win := w } } = ground r := (rfl)

@[simp ↓] theorem ground_winWord : ground r.winWord.1 = ground r := by
  have hfree (n : Nat) : ground { r with c := { r.c with free := n } } = ground r := (rfl)
  simp [Run.winWord, apply_ite Prod.fst, hfree]

@[simp ↓] theorem ground_winSample : ground r.winSample = ground r := by simp [Run.winSample, ground_win]
@[simp ↓] theorem ground_winPins : ground r.winPins = ground r := by simp [Run.winPins, ground_win]

@[simp ↓] theorem ground_slotEvents (m) : ground (r.slotEvents m) = ground r := by
  unfold Run.slotEvents
  split <;> simp

@[simp ↓] theorem ground_pmcEnd (m) : ground (r.pmcEnd m) = ground r := by simp [Run.pmcEnd]
@[simp ↓] theorem ground_countersEnd : ground r.countersEnd = ground r := by simp [Run.countersEnd]
@[simp ↓] theorem ground_bpEnd : ground r.bpEnd = ground r := by simp [Run.bpEnd]
@[simp ↓] theorem ground_residence : ground r.residence = ground r := (rfl)
@[simp ↓] theorem ground_crossings : ground r.crossings = ground r := (rfl)

@[simp ↓] theorem ground_settleAll : ground r.settleAll = ground r := by
  have hbi (r : Run) : ground (r.forEach allPorches fun p r => r.forEach allLinks fun k r => r.biFlush p k) = ground r := by
    simp
  simp [Run.settleAll, hbi]

end Sys2Proof.Laws
end

section
/-! SUPPORT. One period of the core clock, and the obligation about an idle step (log entry 1). -/
namespace Sys2Proof.Laws
open Sys2Proof Sys2Proof.Machine

variable (r : Run)

/-- FT moves on in every cc, and takes nothing of the ground but the core's copy of it with it (R491). -/
theorem ground_ftTick : ground r.ftTick = { ground r with ftCore := r.ftTick.c.ftCore } := by
  have hadvance : ground r.ftAdvance = ground r := by
    unfold Run.ftAdvance Run.when
    dsimp only
    split <;> rfl
  calc ground r.ftTick = { ground r.ftAdvance with ftCore := r.ftTick.c.ftCore } := rfl
    _ = { ground r with ftCore := r.ftTick.c.ftCore } := by rw [hadvance]

/-- The core clock runs from LOAD onward. -/
def Ground.coreRuns (g : Ground) : Bool := g.mode ≠ .off && g.mode ≠ .aux

/-- The ground one core clock period later, with the core's copy of FT as given: the time moves on by the period (R7),
and, where the core clock runs, the cycle count and the slot of a running Timetable by 1 (R208). -/
def Ground.later (g : Ground) (ftCore : Nat) : Ground :=
  { g with now := g.now + if g.fuses.grade then 10 else 8
           cc := if g.coreRuns then g.cc + 1 else g.cc
           ftCore := ftCore
           slot := if g.coreRuns && g.run then g.slot + 1 else g.slot }

theorem Ground.later_of_ftCore (g : Ground) (a b : Nat) : { g with ftCore := a }.later b = g.later b := rfl

theorem ground_clockOn : ground r.clockOn = (ground r).later r.c.ftCore := by
  unfold Run.clockOn Ground.later Run.when
  dsimp only
  by_cases h : ((ground r).coreRuns && (ground r).run) = true
  · rw [if_pos h, if_pos (show (r.coreRuns && r.c.tt.run) = true from h)]
    rfl
  · rw [if_neg h, if_neg (show ¬(r.coreRuns && r.c.tt.run) = true from h)]
    rfl

/-- One core clock period moves the ground as the clock does; nothing else that happens in it moves the ground. -/
theorem ground_tickRun (h : r.mode ≠ .off) : ∃ ft, ground (tickRun r) = (ground r).later ft := by
  unfold tickRun
  rw [if_neg h]
  extract_lets sampled crossed
  have hcrossed : ground crossed = ground r := by simp [crossed, sampled]
  refine ⟨crossed.ftTick.c.ftCore, ?_⟩
  rw [ground_settleAll, ground_when _ _ _ ground_hallway, ground_winPins, ground_wakesEnd, ground_clockOn, ground_ftTick,
    hcrossed, Ground.later_of_ftCore]

/-- In OFF no clock of the core runs, and an idle step changes nothing. -/
theorem tick_off (s : State) (h : s.c.mod.mode = .off) : tick s = s := by
  unfold tick tickRun
  rw [if_pos (show (Run.start s).mode = .off from h)]
  rfl

theorem step_idle (s : State) (h : s.pending = []) : step s = .next (tick s) := by
  unfold step
  rw [h]

/-- Settles O57: out of OFF, an idle step moves time, cycle count and slot as `Ground.later` says, and everything else
that a core clock period does leaves them and the mode alone. -/
theorem idleStepIsOneClockPeriod : Obligations.IdleStepIsOneClockPeriod := by
  intro s hq
  have hstep : step s = .next (tick s) := step_idle s hq
  refine ⟨fun hoff => by rw [hstep, tick_off s hoff], fun hon => ⟨tick s, hstep, hq, ?_⟩⟩
  obtain ⟨ft, hg⟩ := ground_tickRun (Run.start s) hon
  have hnow : (tick s).c.now = s.c.now + s.c.ccLen := congrArg Ground.now hg
  have hmode : (tick s).c.mod.mode = s.c.mod.mode := congrArg Ground.mode hg
  have hcc : (tick s).c.cc = if (ground (Run.start s)).coreRuns then s.c.cc + 1 else s.c.cc := congrArg Ground.cc hg
  have hslot : (tick s).c.tt.slot =
      if (ground (Run.start s)).coreRuns && s.c.tt.run then s.c.tt.slot + 1 else s.c.tt.slot := congrArg Ground.slot hg
  refine ⟨hnow, hmode, fun haux => ?_, fun hload => ?_⟩
  · have hcore : (ground (Run.start s)).coreRuns = false := by simp [Ground.coreRuns, ground, haux]
    simp [hcc, hcore]
  · have hcore : (ground (Run.start s)).coreRuns = true := by simp [Ground.coreRuns, ground, hon, hload]
    exact ⟨by simp [hcc, hcore], fun hrun => by simp [hslot, hcore, hrun], fun hstop => by simp [hslot, hstop]⟩

end Sys2Proof.Laws
end

section
/-! SUPPORT. What a fabric request can see of a command at work, and that no count, no event and no upset-free lookup
changes any of it. -/
namespace Sys2Proof.Laws
open Sys2Proof Sys2Proof.Machine Sys2Proof.Safety

/-- The units and stops that a fabric request meets, the cycle, the House's number, its region table, and the store
operations so far that were more than counts. -/
structure Scene where
  rooms : Vector Room 64
  chans : Vector Chan 16
  porches : Vector Porch 8
  fab : Fabric
  wait : List Xfer
  fly : List Fly
  run : Bool
  cc : Nat
  myId : BitVec 6
  region : BitVec 18 → Region
  cells : List StoreOp

/-- The scene of a command at work. -/
def scene (r : Run) : Scene :=
  ⟨r.c.rooms, r.c.chans, r.c.porches, r.c.fab, r.c.wait, r.c.fly, r.c.tt.run, r.c.cc, r.myId, r.region,
    r.log.filter fun o => !(cellFree o)⟩

variable (r : Run)

theorem scene_forEach {α : Type} (f : α → Run → Run) (h : ∀ x r, scene (f x r) = scene r) (xs : List α) :
    scene (r.forEach xs f) = scene r := by
  induction xs generalizing r with
  | nil => rfl
  | cons x xs ih => exact (ih (f x r)).trans (h x r)

theorem scene_when (b : Bool) (f : Run → Run) (h : ∀ r, scene (f r) = scene r) : scene (r.when b f) = scene r := by
  cases b
  · rfl
  · exact h r

/-- The address is neither that of the House's number nor one of the region table. -/
def isCount (a : Nat) : Prop := a ≠ 0x10 ∧ a < 0x1000000

theorem isCount_rmBase (m : Fin 64) {off : Nat} (h : off < 0x10000) : isCount (rmBase m + off) := by
  unfold isCount rmBase
  omega

theorem scene_setReg {a : Nat} (v : Nat) (h : isCount a) : scene (r.setReg a v) = scene r := by
  obtain ⟨hid, hlow⟩ := h
  have hmyId : (r.setReg a v).myId = r.myId := by
    unfold Run.myId Run.fld
    rw [reg_setReg_ne r hid.symm]
  have hregion : (r.setReg a v).region = r.region := by
    funext n
    unfold Run.region rgnBase
    rw [reg_setReg_ne r (by omega), reg_setReg_ne r (by omega), reg_setReg_ne r (by omega)]
  simp only [scene, hmyId, hregion, setReg_c, setReg_log, cellFree, List.filter_cons]
  rfl

theorem scene_peak {a : Nat} (v : Nat) (h : isCount a) : scene (r.peak a v) = scene r := by
  unfold Run.peak
  split
  · exact scene_setReg r v h
  · rfl

theorem scene_modRoom (m : Fin 64) (f : Room → Room) :
    scene (r.modRoom m f) = { scene r with rooms := (scene r).rooms.set m.val (f (scene r).rooms[m]) m.isLt } := rfl

theorem scene_report (e : Event) : scene (r.report e) = scene r := by
  rcases report_cases r e with h | h <;> rw [h]
  · exact scene_setReg r _ ⟨by decide, by decide⟩
  · rfl

theorem scene_pmcAdd (m : Fin 64) (k n : Nat) : scene (r.pmcAdd m k n) = scene r := by
  unfold Run.pmcAdd
  exact scene_when _ _ _ fun _ => rfl

theorem scene_pmcSignal (m : Fin 64) (k n : Nat) (edge : Bool) : scene (r.pmcSignal m k n edge) = scene r := by
  unfold Run.pmcSignal
  extract_lets key again counted
  have hcounted : scene counted = scene r := by
    unfold counted
    split
    · split
      · rfl
      · exact scene_pmcAdd r m k _
    · exact scene_pmcAdd r m k n
  split
  · exact hcounted
  · exact hcounted

theorem scene_pulse (m : Fin 64) (code n : Nat) : scene (r.pulse m code n) = scene r := by
  unfold Run.pulse
  split
  · rfl
  · refine scene_forEach r _ (fun k r => ?_) _
    dsimp only
    split
    · exact scene_pmcSignal r m k n _
    · rfl

/-- A lookup that meets no upset counts and reports only (R96, R150). -/
theorem scene_upsets_none (m : Fin 64) (it : Item) : scene (r.upsets m it {}) = scene r := by
  have htags : ∀ r : Run, ∀ set, scene (r.tagUpsets m set {}) = scene r := fun r set =>
    scene_forEach r _ (fun w r => scene_when r _ _ fun r => scene_report r _) _
  have hdir : ∀ r : Run, scene (r.dirUpsets m {}) = scene r := fun r => scene_setReg r _ (isCount_rmBase m (by decide))
  unfold Run.upsets
  extract_lets b tags screen
  calc scene (screen.when _ _) = scene screen := scene_when _ _ _ hdir
    _ = scene tags := rfl
    _ = scene r := scene_when _ _ _ fun r => htags r _

/-- A command that has only counted so far has touched no cell. -/
theorem keepsCells_of_scene (s : State) (h : (scene r).cells = []) : keepsCells s (Run.finish s r) := by
  refine keepsCells_of_log s r fun o ho => ?_
  simpa using (List.filter_eq_nil_iff.mp h) o ho

/-! ## What depends on the scene alone -/

theorem mkReply_congr {r r' : Run} (h : r'.myId = r.myId) (f : FMsg) (op : BitVec 8) : r'.mkReply f op = r.mkReply f op := by
  unfold Run.mkReply
  rw [h]

theorem fabFits_congr {r r' : Run} (hregion : r'.region = r.region) (hmyId : r'.myId = r.myId)
    (hpeers : r'.c.fab.peers = r.c.fab.peers) (f : FMsg) : r'.fabFits f = r.fabFits f := by
  unfold Run.fabFits Run.isHome Run.actsHome Run.homeOf Run.dead Run.peer
  rw [hregion, hmyId, hpeers]

/-! ## Lines and their blocks -/

theorem paLine_linePa (l : BitVec 40) : paLine (linePa l) = l := BitVec.extractLsb'_append_eq_left

theorem paBlock_linePa (l : BitVec 40) : paBlock (linePa l) = lineBlk l :=
  BitVec.extractLsb'_append_eq_of_le (xhi := l) (xlo := 0#8) (start := 12) (by decide)

theorem blkLine_lineBlk (l : BitVec 40) : blkLine (lineBlk l) (lineNo l) = l := by
  have hlow : BitVec.ofNat 4 (lineNo l) = l.extractLsb' 0 4 := (BitVec.ofNat_toNat 4 _).trans (BitVec.setWidth_eq _)
  unfold blkLine lineBlk
  rw [hlow]
  exact (BitVec.extractLsb'_append_extractLsb'_eq_extractLsb' rfl).trans BitVec.extractLsb'_eq_self

end Sys2Proof.Laws
end

section
/-! SUPPORT. A Room at rest takes a write of another House into its buffer and acknowledges it, and the obligation about
remote writes (R44, R102, R103, R151, R164). -/
namespace Sys2Proof.Laws
open Sys2Proof Sys2Proof.Machine Sys2Proof.Safety Sys2Proof.Claim

/-- The Room holds nothing back and has nothing of its own to go on with. -/
structure AtRest (y : Room) : Prop where
  trks : y.trks = []
  waiters : y.waiters = []
  wbuf : y.wbuf = []
  rsvs : y.rsvs = []
  cohs : y.cohs = []
  snoopQ : y.snoopQ = []
  scnBad : y.scnBad = []
  sweep : y.sweep = none

theorem atRest_of_idleRoom {s : State} {m : Fin 64} (h : idleRoom s m) : AtRest s.c.rooms[m] := by
  obtain ⟨⟨-, hcohs, hsnoops, hscn⟩, -, htrks, hwaiters, hwbuf, -, hrsvs, -, -, -, -, hsweep, -, -⟩ := h
  exact ⟨htrks, hwaiters, hwbuf, hrsvs, hcohs, hsnoops, hscn, hsweep⟩

variable (r : Run)

/-! ## Nothing else goes on in the Room -/

theorem modRoom_fix (m : Fin 64) (f : Room → Room) (h : f r.c.rooms[m] = r.c.rooms[m]) : r.modRoom m f = r := by
  show r.setRoom m (f r.c.rooms[m]) = r
  rw [h]
  exact setRoom_self r m

/-- In a Room without trackers, held snoops and Screen repairs, nothing can go on. -/
theorem cohPoll_quiet (m : Fin 64) (hcohs : (r.c.rooms[m]).cohs = []) (hsnoops : (r.c.rooms[m]).snoopQ = [])
    (hscn : (r.c.rooms[m]).scnBad = []) (htrks : (r.c.rooms[m]).trks = []) : r.cohPoll m = r := by
  have hgo : r.snoopsGo m = r := by
    unfold Run.snoopsGo
    rw [modRoom_fix r m _ (by rw [← hsnoops]), show (r.room m).snoopQ = [] from hsnoops]
    rfl
  have hsweep : r.trkSweep m = r := modRoom_fix r m _ (by rw [htrks, List.filter_nil, ← htrks])
  simp only [Run.cohPoll, hgo, Run.forEach, Run.room, hscn, hcohs, List.foldl_nil, hsweep]

/-- Without an entry that has a copy to send, none is sent (R112). -/
theorem twinKick_none (m : Fin 64) (line : BitVec 40)
    (h : ∀ e ∈ (r.c.rooms[m]).wbuf, e.needTwin = false ∧ e.twinLater = false) : r.twinKick m line = r := by
  unfold Run.twinKick
  extract_lets es
  have hes : ∀ e ∈ es, e.needTwin = false ∧ e.twinLater = false := fun e he => h e (List.mem_of_mem_filter he)
  rw [if_neg (by simpa using fun e he => (hes e he).1),
    show es.find? (·.twinLater) = none from List.find?_eq_none.mpr fun e he => by simp [(hes e he).2]]

/-- Without a reservation, none is broken (R203). -/
theorem rsvBreak_none (m : Fin 64) (f : Rsv → Bool) (h : (r.c.rooms[m]).rsvs = []) : r.rsvBreak m f = r := by
  unfold Run.rsvBreak
  rw [show (r.room m).rsvs = [] from h]
  rfl

/-! ## Acceptance into an empty buffer -/

/-- The entry that an empty write buffer opens for a fabric item bound for the home frame (R102, R103, R131). -/
def homeEntry (y : Room) (it : Item) (cc : Nat) : WbEnt :=
  { idx := lowestFree [] 64, line := paLine it.pa, attr := it.attr, oid := it.oid, data := it.data, mask := it.mask,
    poison := it.poison, after := if it.poison then 0 else it.mask, seq := y.seq, tin := it.tin, needCel := true,
    home := true, born := cc, lastCc := cc, owners := [it.src] }

/-- The Room with that entry. -/
def withEntry (y : Room) (it : Item) (cc : Nat) : Room :=
  { y with wbuf := y.wbuf ++ [homeEntry y it cc], seq := y.seq + 1 }

/-- The Room with that entry, and without the RESILVER copies of its line that wait (R166). -/
def withWrite (y : Room) (it : Item) (cc : Nat) : Room :=
  { withEntry y it cc with resils := y.resils.filter fun x => x.line ≠ paLine it.pa }

theorem withWrite_wbuf (y : Room) (it : Item) (cc : Nat) : (withWrite y it cc).wbuf = y.wbuf ++ [homeEntry y it cc] := rfl

/-- Room `m` has opened the entry, and has noted the greatest number of its entries (R110). -/
def openEntry (m : Fin 64) (it : Item) : Run :=
  (r.modRoom m fun y => { y with wbuf := y.wbuf ++ [homeEntry r.c.rooms[m] it r.c.cc], seq := y.seq + 1 }).peak
    (rmBase m + 0x64) 1

/-- Room `m` has the write in its buffer. -/
def bufferWrite (m : Fin 64) (it : Item) : Run :=
  (openEntry r m it).modRoom m fun y => { y with resils := y.resils.filter fun x => x.line ≠ paLine it.pa }

theorem scene_openEntry (m : Fin 64) (it : Item) : scene (openEntry r m it) =
    { scene r with rooms := (scene r).rooms.set m.val (withEntry (scene r).rooms[m] it (scene r).cc) m.isLt } :=
  scene_peak _ _ (isCount_rmBase m (by decide))

theorem room_openEntry (m : Fin 64) (it : Item) : (openEntry r m it).c.rooms[m] = withEntry r.c.rooms[m] it r.c.cc := by
  have h := congrArg (fun x => x.rooms[m]) (scene_openEntry r m it)
  simpa [scene] using h

theorem scene_bufferWrite (m : Fin 64) (it : Item) : scene (bufferWrite r m it) =
    { scene r with rooms := (scene r).rooms.set m.val (withWrite (scene r).rooms[m] it (scene r).cc) m.isLt } := by
  unfold bufferWrite
  rw [scene_modRoom, scene_openEntry]
  simp [withWrite, withEntry]

theorem room_bufferWrite (m : Fin 64) (it : Item) : (bufferWrite r m it).c.rooms[m] = withWrite r.c.rooms[m] it r.c.cc := by
  have h := congrArg (fun x => x.rooms[m]) (scene_bufferWrite r m it)
  simpa [scene] using h

/-- An empty buffer with room takes a fabric write without a twin, and its House is told at once (R24, R112). -/
theorem accept_fab (m : Fin 64) (it : Item) (f : FMsg) (hsrc : it.src = .fab f) (hop : it.op = .memWrPtl)
    (hbuf : (r.c.rooms[m]).wbuf = []) (hrsvs : (r.c.rooms[m]).rsvs = []) (hfree : r.wbFull m = false)
    (htwin : r.twinFor (paBlock it.pa) it.attr = false) :
    r.accept m it .home false = some ((bufferWrite r m it).tellDone m (.fab f) it.tin) := by
  have hrisk : ∀ r : Run, ∀ seq, r.noteRisk m seq it = r := fun r seq => by
    unfold Run.noteRisk
    rw [hsrc]
    rfl
  have hbreak : (openEntry r m it).rsvBreak m (fun v => v.covers (paLine it.pa)) = openEntry r m it :=
    rsvBreak_none _ m _ (by rw [room_openEntry]; exact hrsvs)
  have hkick : (bufferWrite r m it).twinKick m (paLine it.pa) = bufferWrite r m it := twinKick_none _ m _ <| by
    rw [room_bufferWrite, withWrite_wbuf, hbuf, List.nil_append]
    simp only [List.mem_singleton, forall_eq]
    exact ⟨rfl, rfl⟩
  calc r.accept m it .home false
      = some (((((openEntry r m it).rsvBreak m fun v => v.covers (paLine it.pa)).modRoom m fun y =>
          { y with resils := y.resils.filter fun x => x.line ≠ paLine it.pa }).twinKick m (paLine it.pa)).tellDone
            m (.fab f) it.tin) := by
        unfold Run.accept
        simp only [Room.wbOpen, Run.room, hbuf, hfree, htwin, hsrc, hop, toldAtOnce, hrisk, List.find?_nil]
        simp [openEntry, homeEntry, hsrc, srcPorch]
    _ = some (((bufferWrite r m it).twinKick m (paLine it.pa)).tellDone m (.fab f) it.tin) := by rw [hbreak]; rfl
    _ = some ((bufferWrite r m it).tellDone m (.fab f) it.tin) := by rw [hkick]

theorem takeWrite_fab (m : Fin 64) (it : Item) (f : FMsg) (hsrc : it.src = .fab f) (hop : it.op = .memWrPtl)
    (hbuf : (r.c.rooms[m]).wbuf = []) (hrsvs : (r.c.rooms[m]).rsvs = []) (hfree : r.wbFull m = false)
    (htwin : r.twinFor (paBlock it.pa) it.attr = false) :
    r.takeWrite m it .home false id = (bufferWrite r m it).tellDone m (.fab f) it.tin := by
  unfold Run.takeWrite Run.recordThen Run.scnRecord
  rw [hsrc]
  dsimp only
  unfold Run.acceptOr
  rw [accept_fab r m it f hsrc hop hbuf hrsvs hfree htwin]
  dsimp only
  rw [if_neg (by simp [hop])]
  rfl

/-- While the Timetable runs, an acknowledgement waits at the Room's stop (R211). -/
theorem scene_tellDone (m : Fin 64) (f : FMsg) (tin : Stamp) (h : (scene r).run = true) :
    scene (r.tellDone m (.fab f) tin) = { scene r with
      wait := (scene r).wait ++ [⟨roomCal m, 0x58, .msg (r.mkReply f Op.wrAck) tin, none⟩] } := by
  show scene (r.hallMsg (roomCal m) (r.mkReply f Op.wrAck) tin) = _
  unfold Run.hallMsg
  rw [if_pos (show r.c.tt.run = true from h)]
  rfl

/-! ## A write at its home or twin -/

/-- The operations by which another House writes a line. -/
def isFabWrite (op : BitVec 8) : Prop := op = Op.wrU ∨ op = Op.wb ∨ op = Op.mirrorWr

/-- The item of such a write names its line, and carries its bytes. -/
theorem fabItem_write (f : FMsg) (a : Attr) (stamp : Stamp) (h : isFabWrite f.op) :
    fabItem f a (lineNo f.addr) stamp =
      { src := .fab f, op := .memWrPtl, meta' := .i, pa := linePa f.addr, attr := { a with tenant := f.tenant },
        data := f.line, mask := f.bmask, poison := f.poison, tin := stamp } := by
  have hwr : ((f.op = Op.wrU || f.op = Op.wb) || f.op = Op.mirrorWr) = true := by
    rcases h with h | h | h <;> simp [h]
  unfold fabItem
  simp only [hwr, blkLine_lineBlk, if_true, Bool.true_and]

theorem serveFab_write (m : Fin 64) (f : FMsg) (a : Attr) (stamp : Stamp) (e : DirEnt) (grant : BitVec 2)
    (h : isFabWrite f.op) :
    r.serveFab m f a stamp e grant = r.takeWrite m (fabItem f a (lineNo f.addr) stamp) .home false id := by
  have hup : f.op ≠ Op.upgrade := by rcases h with h | h | h <;> rw [h] <;> decide
  have hfill : isFill f.op = false := by rcases h with h | h | h <;> rw [h] <;> decide
  unfold Run.serveFab
  simp [hup, hfill]

/-- A write of a Private-remote block, and a MIRROR_WR of any, needs no snoop: it is served at once (R44, R151). -/
theorem fabAccess_write (m : Fin 64) (it : Item) (f : FMsg) (h : isFabWrite f.op) (hsweep : (r.c.rooms[m]).sweep = none)
    (htwin : f.twin = false) (hkind : it.attr.kind = kindPrivate ∨ f.op = Op.mirrorWr) :
    r.fabAccess m it f = r.takeWrite m (fabItem f it.attr (lineNo f.addr) it.tin) .home false id := by
  have hdue : r.sweepDue m (lineBlk f.addr) = false := by
    unfold Run.sweepDue Run.room
    rw [hsweep]
  unfold Run.fabAccess
  simp only [hdue, htwin, serveFab_write r m f _ _ _ _ h]
  rcases hkind with hkind | hmirror
  · have hallowed : r.wbAllowed m (lineBlk f.addr) it.attr f.src = true := by
      simp [Run.wbAllowed, hkind, kindPrivate, kindShared]
    simp [hallowed, hkind, kindPrivate, kindShared]
  · simp [hmirror]

/-- A write of House `f.src`, about to be served: the Room is at rest and its buffer has room, the Timetable runs, and
the line has no twin to be copied to. -/
structure ServesWrite (r : Run) (m : Fin 64) (f : FMsg) (a : Attr) : Prop where
  write : isFabWrite f.op
  rest : AtRest r.c.rooms[m]
  free : r.wbFull m = false
  run : r.c.tt.run = true
  twin : f.twin = false
  kind : a.kind = kindPrivate ∨ f.op = Op.mirrorWr
  alone : a.mirror = false ∨ r.isHome (lineBlk f.addr) = false

/-- These conditions depend on the scene, and not on what is delivered or kept. -/
theorem ServesWrite.congr {r r' : Run} {m : Fin 64} {f : FMsg} {a : Attr} {x : Fabric}
    (h : scene r' = { scene r with fab := x }) (hs : ServesWrite r m f a) : ServesWrite r' m f a := by
  have hrooms : r'.c.rooms = r.c.rooms := congrArg Scene.rooms h
  have hcc : r'.c.cc = r.c.cc := congrArg Scene.cc h
  have hrun : r'.c.tt.run = r.c.tt.run := congrArg Scene.run h
  have hmyId : r'.myId = r.myId := congrArg Scene.myId h
  refine ⟨hs.write, hrooms ▸ hs.rest, ?_, hrun.trans hs.run, hs.twin, hs.kind, ?_⟩
  · rw [← hs.free]
    unfold Run.wbFull Run.room
    rw [hrooms, hcc]
  · unfold Run.isHome
    rw [hmyId]
    exact hs.alone

/-- What the write leaves: its entry in the Room's buffer, and its acknowledgement at the Room's stop. -/
def Scene.served (x : Scene) (m : Fin 64) (it : Item) (ack : FMsg) : Scene :=
  { x with rooms := x.rooms.set m.val (withWrite x.rooms[m] it x.cc) m.isLt
           wait := x.wait ++ [⟨roomCal m, 0x58, .msg ack it.tin, none⟩] }

theorem scene_fabAccess_write {r : Run} {m : Fin 64} {f : FMsg} {a : Attr} (hs : ServesWrite r m f a) (stamp : Stamp) :
    scene ((r.fabAccess m (fabItem f a (lineNo f.addr) stamp) f).cohPoll m) =
      (scene r).served m (fabItem f a (lineNo f.addr) stamp) (r.mkReply f Op.wrAck) := by
  have hitem := fabItem_write f a stamp hs.write
  have hblk : paBlock (fabItem f a (lineNo f.addr) stamp).pa = lineBlk f.addr := by rw [hitem]; exact paBlock_linePa f.addr
  have hnotwin : r.twinFor (lineBlk f.addr) (fabItem f a (lineNo f.addr) stamp).attr = false := by
    unfold Run.twinFor fabItem
    rcases hs.alone with h | h <;> simp [h]
  generalize hit : fabItem f a (lineNo f.addr) stamp = it at *
  have htake : r.fabAccess m it f = (bufferWrite r m it).tellDone m (.fab f) it.tin := by
    rw [fabAccess_write r m it f hs.write hs.rest.sweep hs.twin (by subst hit; exact hs.kind),
      show fabItem f it.attr (lineNo f.addr) it.tin = it by subst hit; rfl]
    exact takeWrite_fab r m it f (by rw [hitem]) (by rw [hitem]) hs.rest.wbuf hs.rest.rsvs hs.free (by rw [hblk]; exact hnotwin)
  have hscene : scene (r.fabAccess m it f) = (scene r).served m it (r.mkReply f Op.wrAck) := by
    rw [htake, scene_tellDone, scene_bufferWrite, mkReply_congr (congrArg Scene.myId (scene_bufferWrite r m it))]
    · rfl
    · exact (congrArg Scene.run (scene_bufferWrite r m it)).trans hs.run
  have hroom : (r.fabAccess m it f).c.rooms[m] = withWrite r.c.rooms[m] it r.c.cc := by
    have h := congrArg (fun x => x.rooms[m]) hscene
    simpa [scene, Scene.served] using h
  rw [cohPoll_quiet _ m (by rw [hroom]; exact hs.rest.cohs) (by rw [hroom]; exact hs.rest.snoopQ)
    (by rw [hroom]; exact hs.rest.scnBad) (by rw [hroom]; exact hs.rest.trks), hscene]

theorem scene_fabEnter_write {m : Fin 64} {f : FMsg} (stamp : Stamp)
    (hs : ServesWrite r m f (r.region (blkRegion (lineBlk f.addr))).attr) (hfits : r.fabFits f = true) :
    scene (r.fabEnter m f stamp {}) = (scene r).served m
      (fabItem f (r.region (blkRegion (lineBlk f.addr))).attr (lineNo f.addr) stamp) (r.mkReply f Op.wrAck) := by
  have hpulse : scene (r.pulse m 0x01) = scene r := scene_pulse r m 0x01 1
  have hregion : (r.pulse m 0x01).region = r.region := congrArg Scene.region hpulse
  have hfits' : (r.pulse m 0x01).fabFits f = true :=
    (fabFits_congr hregion (congrArg Scene.myId hpulse) (congrArg (fun x => x.fab.peers) hpulse) f).trans hfits
  unfold Run.fabEnter
  dsimp only
  rw [if_pos hfits', hregion]
  generalize hit : fabItem f (r.region (blkRegion (lineBlk f.addr))).attr (lineNo f.addr) stamp = it
  have hups : scene ((r.pulse m 0x01).upsets m it {}) = scene r := (scene_upsets_none _ m it).trans hpulse
  have hs' := hs.congr (x := r.c.fab) hups
  rw [if_neg (by rw [show (((r.pulse m 0x01).upsets m it {}).room m).waiters = [] from hs'.rest.waiters]; simp), ← hit]
  rw [← hit] at hups hs'
  rw [scene_fabAccess_write hs', hups, mkReply_congr (congrArg Scene.myId hups)]

/-! ## The whole request -/

/-- The delivered message has had its slot: its Door keeps it until the Room retires it (R223). -/
def kept (m : Fin 64) (f : FMsg) (stamp : Stamp) (d : Nat) : Run :=
  ((r.grant m.val (0x48 + d)).unbox f).modFab fun x => { x with kept := x.kept ++ [(f, stamp, d)] }

theorem scene_kept (m : Fin 64) (f : FMsg) (stamp : Stamp) (d : Nat) :
    scene (kept r m f stamp d) = { scene r with fab := (kept r m f stamp d).c.fab } := by
  have hm : (kept r m f stamp d).m = r.m := rfl
  unfold scene Run.region Run.myId Run.fld Run.reg
  rw [hm]
  rfl

theorem delivered_op {s : State} {f : FMsg} {op : BitVec 8} {stamp : Stamp} {d : Nat} (h : delivered s f op stamp d) :
    f.op = op := by
  by_contra hne
  simp [delivered, Run.inboxOf, hne] at h

/-- A delivered request enters an idle Room in its slot. -/
theorem fabRequest_enters {s : State} {f : FMsg} {op : BitVec 8} {stamp : Stamp} {d : Nat} (u : Upset)
    (hbox : delivered s f op stamp d) (hserves : (Run.start s).fabServes = true)
    (hslot : slotFor s ((Run.start s).roomFor f).val (0x48 + d)) (hidle : idleRoom s ((Run.start s).roomFor f)) :
    (Run.start s).fabRequest f op u =
      (kept (Run.start s) ((Run.start s).roomFor f) f stamp d).fabEnter ((Run.start s).roomFor f) f stamp u := by
  obtain ⟨⟨hfence, -⟩, hopen, -⟩ := hidle
  have hmode : (Run.start s).mode ≠ .safe := by
    intro h
    simp [Run.fabServes, h] at hserves
  unfold Run.fabRequest
  rw [show (Run.start s).inboxOf f op = some (stamp, d) from hbox]
  dsimp only
  rw [if_neg hmode, if_neg (by rw [hserves, hfence, show ((Run.start s).room _).closed = false from hopen]; simp),
    inSlot_of_grant _ _ hslot]
  rfl

theorem servesWrite_of_idleRoom {s : State} {m : Fin 64} {f : FMsg} {a : Attr} {d : Nat}
    (hwrite : isFabWrite f.op) (hslot : slotFor s m.val (0x48 + d)) (hidle : idleRoom s m) (htwin : f.twin = false)
    (hkind : a.kind = kindPrivate ∨ f.op = Op.mirrorWr)
    (halone : a.mirror = false ∨ (Run.start s).isHome (lineBlk f.addr) = false) : ServesWrite (Run.start s) m f a := by
  have hrun : s.c.tt.run = true := by
    simp only [slotFor, Run.canGrant, Run.unused, Bool.and_eq_true] at hslot
    exact hslot.1.1
  have hrest := atRest_of_idleRoom hidle
  obtain ⟨-, -, -, -, -, -, -, -, -, -, -, -, -, hfree⟩ := hidle
  exact ⟨hwrite, hrest, hfree, hrun, htwin, hkind, halone⟩

theorem scene_fabRequest_write {s : State} {f : FMsg} {op : BitVec 8} {stamp : Stamp} {d : Nat} (hop : isFabWrite op) :
    let r := Run.start s
    let m := r.roomFor f
    let a := (r.region (blkRegion (lineBlk f.addr))).attr
    delivered s f op stamp d → r.fabServes = true → slotFor s m.val (0x48 + d) → idleRoom s m → r.fabFits f = true →
    (a.kind = kindPrivate ∨ op = Op.mirrorWr) → f.twin = false → (a.mirror = false ∨ r.isHome (lineBlk f.addr) = false) →
    scene (r.fabRequest f op {}) = { scene r with fab := (kept r m f stamp d).c.fab }.served m
      (fabItem f a (lineNo f.addr) stamp) (r.mkReply f Op.wrAck) := by
  intro r m a hbox hserves hslot hidle hfits hkind htwin halone
  obtain rfl : f.op = op := delivered_op hbox
  have hkept := scene_kept r m f stamp d
  have hregion : (kept r m f stamp d).region = r.region := congrArg Scene.region hkept
  have hmyId : (kept r m f stamp d).myId = r.myId := congrArg Scene.myId hkept
  have hs : ServesWrite (kept r m f stamp d) m f a :=
    (servesWrite_of_idleRoom hop hslot hidle htwin hkind halone).congr hkept
  have hfits' : (kept r m f stamp d).fabFits f = true := (fabFits_congr hregion hmyId rfl f).trans hfits
  rw [fabRequest_enters {} hbox hserves hslot hidle, scene_fabEnter_write _ stamp (hregion ▸ hs) hfits', hkept, hregion,
    mkReply_congr hmyId]

/-- A command that is such a request, met by no upset, writes the home. -/
theorem writesTheHome_of_fabRequest {i : Instr} {f : FMsg} {op : BitVec 8} (hop : isFabWrite op)
    (hexec : ∀ s, exec i s = .next (Run.finish s ((Run.start s).fabRequest f op {}))) : writesTheHome i f op := by
  intro s stamp d r b m a hbox hserves hslot hidle hfits hkind htwin hmirror hhome
  have halone : a.mirror = false ∨ r.isHome b = false := (em (op = Op.mirrorWr)).symm.imp hmirror hhome
  have hscene := scene_fabRequest_write hop hbox hserves hslot hidle hfits hkind htwin halone
  have hempty : (s.c.rooms[m]).wbuf = [] := (atRest_of_idleRoom hidle).wbuf
  have hitem := fabItem_write f a stamp (delivered_op hbox ▸ hop)
  generalize fabItem f a (lineNo f.addr) stamp = it at hscene hitem
  generalize hack : r.mkReply f Op.wrAck = ack at hscene
  have hnext := hexec s
  generalize (Run.start s).fabRequest f op {} = done at hscene hnext
  have hrooms : done.c.rooms = s.c.rooms.set m.val (withWrite s.c.rooms[m] it s.c.cc) m.isLt := congrArg Scene.rooms hscene
  have hwait : done.c.wait = s.c.wait ++ [⟨72 + m.val, 0x58, .msg ack it.tin, none⟩] := congrArg Scene.wait hscene
  have hfly : done.c.fly = s.c.fly := congrArg Scene.fly hscene
  have hinbox : done.c.fab.inbox = s.c.fab.inbox.eraseP fun e => e.1 = f := congrArg (fun x => x.fab.inbox) hscene
  have hcells : (scene done).cells = [] := congrArg Scene.cells hscene
  have hline : paLine it.pa = f.addr := by rw [hitem]; exact paLine_linePa f.addr
  refine ⟨Run.finish s done, homeEntry s.c.rooms[m] it s.c.cc, hnext, ?_, hline, by rw [hitem]; rfl, by rw [hitem]; rfl,
    by rw [hitem]; rfl, rfl, ⟨ack, it.tin, ⟨hwait, hfly⟩, ?_⟩, hinbox, fun n hn => ?_, congrArg Scene.chans hscene,
    congrArg Scene.porches hscene, keepsCells_of_scene done s hcells⟩
  · have hroom : done.c.rooms[m] = withWrite s.c.rooms[m] it s.c.cc := by simp [hrooms]
    rw [finish_c, hroom, withWrite_wbuf, hempty, List.nil_append]
  · subst hack
    exact ⟨rfl, rfl, rfl, rfl⟩
  · have hne : m.val ≠ n.val := fun e => hn (Fin.ext e.symm)
    simp [hrooms, hne]

/-- Settles O12: WR_U, WB and MIRROR_WR are one request, which an idle Room takes into its buffer and acknowledges. -/
theorem remoteWriteIsAcceptedAndAcknowledged : Obligations.RemoteWriteIsAcceptedAndAcknowledged := fun _ =>
  ⟨writesTheHome_of_fabRequest (.inl rfl) fun _ => rfl, writesTheHome_of_fabRequest (.inr (.inl rfl)) fun _ => rfl,
    writesTheHome_of_fabRequest (.inr (.inr rfl)) fun _ => rfl⟩

end Sys2Proof.Laws
end

section
/-! SUPPORT. The region table in the register map, a management write of one of its words, and what clearing a region's
KIND does where the tables are canonical (R40, R41, R279, R451, R452). -/
namespace Sys2Proof.Laws
open Sys2Proof Sys2Proof.Machine Sys2Proof.Safety

/-! ## Where a region entry lies in the register map -/

/-- How far the last element of an array of registers lies behind its first, at most. -/
def arrSpan : List (Nat × Nat) → Nat
  | [] => 0
  | (n, s) :: arr => n * s + arrSpan arr

theorem le_arrSpan_of_arrFits (arr : List (Nat × Nat)) (rel : Nat) (h : arrFits arr rel = true) : rel ≤ arrSpan arr := by
  induction arr generalizing rel with
  | nil => simpa [arrFits, arrSpan] using h
  | cons x arr ih =>
    obtain ⟨n, s⟩ := x
    simp only [arrFits, Bool.and_eq_true, decide_eq_true_eq] at h
    obtain ⟨hdiv, hrest⟩ := h
    have hle := ih _ hrest
    rcases Nat.eq_zero_or_pos s with rfl | hs
    · simpa [arrSpan] using hle
    · have := (Nat.div_lt_iff_lt_mul hs).mp hdiv
      unfold arrSpan
      omega

/-- A block ends at or below this address. -/
def blockEndsBy (b : RegBlock) (a : Nat) : Bool :=
  if b.stride = 0 then b.regs.all fun d => decide (b.base + d.off + arrSpan d.arr < a)
  else decide (b.base + b.stride * b.count ≤ a)

theorem find_none_of_endsBy {b : RegBlock} {a top : Nat} (hb : blockEndsBy b top = true) (ha : top ≤ a) : b.find a = none := by
  unfold blockEndsBy at hb
  unfold RegBlock.find RegBlock.rel
  split at hb
  next hs =>
    rw [List.all_eq_true] at hb
    have hfits : (b.regs.find? fun d => d.fits (a - b.base)) = none := by
      refine List.find?_eq_none.mpr fun d hd hfit => ?_
      have hend := of_decide_eq_true (hb d hd)
      simp only [RegDef.fits, Bool.and_eq_true, decide_eq_true_eq] at hfit
      have := le_arrSpan_of_arrFits _ _ hfit.2
      omega
    split
    next hrel =>
      split at hrel
      · cases hrel
      · cases hrel
        exact hfits
    next => rfl
  next hs =>
    have hend := of_decide_eq_true hb
    have hpast : ¬(a - b.base) / b.stride < b.count := by
      rw [Nat.div_lt_iff_lt_mul (Nat.pos_of_ne_zero hs), Nat.mul_comm]
      omega
    rw [if_neg (by omega), if_neg hs, if_neg hpast]

/-- The block of the region table. -/
def regionBlock : RegBlock := ⟨0x1000000, 0x40, 262144, RegTable.regs_1000000_0⟩

/-- It is the last block of the map, and the others end below it. -/
theorem blocks_end_below_regions : ∀ b ∈ RegTable.blocks.dropLast, blockEndsBy b 0x1000000 = true := by decide +kernel

theorem regDef_region {a : Nat} (h : 0x1000000 ≤ a) : regDef a = regionBlock.find a := by
  have hblocks : RegTable.blocks = RegTable.blocks.dropLast ++ [regionBlock] := rfl
  have hnone : (RegTable.blocks.dropLast.findSome? fun b => b.find a) = none :=
    List.findSome?_eq_none_iff.mpr fun b hb => find_none_of_endsBy (blocks_end_below_regions b hb) h
  unfold regDef
  rw [hblocks, List.findSome?_append, hnone]
  simp

/-- Word 0 of a region entry (R40). -/
def rgnAttr : RegDef :=
  ⟨"RGN_ATTR", 0x0, [], false, false,
    [⟨1, 0, .rw, 0x0, none⟩, ⟨2, 2, .rw, 0x0, none⟩, ⟨3, 3, .rw, 0x0, none⟩, ⟨4, 4, .rw, 0x0, none⟩]⟩

theorem regDef_rgnBase (n : BitVec 18) : regDef (rgnBase n) = some rgnAttr := by
  have hrel : regionBlock.rel (rgnBase n) = some 0 := by
    have hdiff : rgnBase n - 0x1000000 = n.toNat * 0x40 := Nat.add_sub_cancel_left ..
    have hn := n.isLt
    unfold RegBlock.rel regionBlock
    simp only [hdiff, Nat.mul_mod_left]
    rw [if_neg (by unfold rgnBase; omega), if_neg (by decide), if_pos (by omega)]
  rw [regDef_region (by unfold rgnBase; omega)]
  unfold RegBlock.find
  rw [hrel]
  rfl

theorem rgnOf_rgnBase (n : BitVec 18) : rgnOf (rgnBase n) = n := by
  unfold rgnOf rgnBase
  rw [show (0x1000000 + n.toNat * 0x40 - 0x1000000) / 0x40 = n.toNat by omega, BitVec.ofNat_toNat, BitVec.setWidth_eq]

theorem regReset_rgnBase (n : BitVec 18) : regReset (rgnBase n) = 0 := by
  unfold regReset
  rw [if_neg (by unfold rgnBase; omega), regDef_rgnBase]
  rfl

theorem regMask_rgnBase (n : BitVec 18) : regMask (rgnBase n) = 0x1F := by
  unfold regMask
  rw [if_neg (by unfold rgnBase; omega), if_neg (by unfold rgnBase; omega), regDef_rgnBase]
  rfl

/-! ## A management write of a register -/

theorem aliasOf_high {a : Nat} (h : 0x1A0000 ≤ a) : aliasOf a = (a, .plain) := by
  have hblock : aliasBlock a = false := by
    unfold aliasBlock
    simp only [Bool.or_eq_false_iff, decide_eq_false_iff_not]
    omega
  unfold aliasOf
  rw [hblock]
  rfl

/-- The core has taken the request of port `g` out of its crossing. -/
def heardRun (s : State) (g : MgPort) : Run := (Run.start s).took (.regReq g) 1

/-- A full-word write of a register of the region table reaches it. -/
theorem mgmtWrite_region {s : State} {g : MgPort} {a : Nat} {v : Word} {d : RegDef} (hready : mgmtReady s)
    (hlo : 0x1000000 ≤ a) (hhi : a < 0x2000000) (h4 : a % 4 = 0) (hd : regDef a = some d) :
    (Run.start s).mgmtWrite g (BitVec.ofNat 26 a) 0xF v = (heardRun s g).wrReg (.port g)
      { d := d, a := a, old := (Run.start s).reg a, new := d.written .plain ((Run.start s).reg a) v.toNat } := by
  obtain ⟨hoff, haux, himg, -⟩ := hready
  have ha : (BitVec.ofNat 26 a).toNat = a := by simp; omega
  have hoff' : (heardRun s g).mode ≠ .off := hoff
  have haux' : (heardRun s g).mode ≠ .aux := haux
  have himg' : (heardRun s g).c.img.busy = false := himg
  unfold Run.mgmtWrite
  rw [if_neg (by simp [show (Run.start s).mode ≠ .off from hoff])]
  dsimp only
  rw [ha, if_pos (by simp [h4])]
  show (heardRun s g).mgmtStore (.port g) a v.toNat = _
  unfold Run.mgmtStore
  rw [aliasOf_high (by omega)]
  dsimp only
  rw [if_neg hoff', if_neg (by simp [haux']), if_neg (by simp [haux']), if_neg (by simp [himg']), if_neg (by omega),
    if_neg (by omega), if_neg (by omega), hd]
  dsimp only
  rw [if_neg (by omega)]
  rfl


/-! ## A region's KIND is cleared -/

theorem written_rgnAttr_zero (old : Nat) : rgnAttr.written .plain old 0 % 2 ^ 5 = 0 := by
  have hmask : rgnAttr.writable = 2 ^ 5 - 1 := by decide
  show mixWord old 0 rgnAttr.writable % 2 ^ 5 = 0
  unfold mixWord
  rw [hmask, Nat.zero_and, Nat.or_zero, Nat.and_two_pow_sub_one_eq_mod, Nat.xor_mod_two_pow, Nat.mod_mod, Nat.xor_self]

/-- A region entry whose word 0 ends in five zeros is no region's. -/
theorem kind_ofWords {w : Nat} (h : w % 2 ^ 5 = 0) (w1 w2 : Nat) : (Region.ofWords w w1 w2).attr.kind = 0 := by
  show BitVec.ofNat 2 w = 0
  apply BitVec.eq_of_toNat_eq
  simp
  omega

theorem holdsFrame_of_kind (r : Run) (n : BitVec 18) {x : Region} (h : x.attr.kind = 0) : r.holdsFrame n x = false := by
  unfold Run.holdsFrame
  simp [h]

/-- The write that clears word 0 of region `n`, whatever it held. -/
def clearWr (n : BitVec 18) (old : Nat) : Wr :=
  { d := rgnAttr, a := rgnBase n, old := old, new := rgnAttr.written .plain old 0 }

theorem wrBad_clear (r : Run) (w : Writer) (n : BitVec 18) (old : Nat) : r.wrBad w (clearWr n old) = none := by
  have hmod : rgnBase n % 0x40 = 0 := by unfold rgnBase; omega
  have hrgn : r.rgnBad (clearWr n old) = false := by
    have hkind : (r.rgnAfter (clearWr n old)).attr.kind = 0 := by
      unfold Run.rgnAfter
      refine kind_ofWords ?_ _ _
      dsimp only
      rw [if_pos (show (clearWr n old).a % 0x40 = 4 * 0 from hmod)]
      exact written_rgnAttr_zero old
    unfold Run.rgnBad
    simp [hkind]
  have hrange : (clearWr n old).rangeBad = false := rfl
  have hjoin : r.joinBad w (clearWr n old) = false := rfl
  unfold Run.wrBad
  rw [hrgn, hrange, hjoin]
  simp [clearWr, rgnAttr]

/-- With no commit lap under way, a configuration that has become dirty shows in the CRC engine only (R468). -/
theorem configDirty_idle (r : Run) (b : Bool) (h : r.c.crc.busy = false) :
    ∃ k, r.when b Run.configDirty = r.modCrc fun _ => k := by
  cases b with
  | false => exact ⟨r.c.crc, rfl⟩
  | true =>
    refine ⟨{ r.c.crc with dirty := true }, ?_⟩
    show r.configDirty = _
    unfold Run.configDirty
    rw [if_neg (by simp [h])]
    rfl

/-- What word 0 of region `n` becomes, and that the entry then reads as no region's. -/
theorem region_cleared (r : Run) (n : BitVec 18) {v : Nat} (hv : v % 2 ^ 5 = 0) (hwf : mwf regReset r.m.regs = true) :
    w32 v &&& regMask (rgnBase n) = 0 ∧ ((r.setReg (rgnBase n) v).region n).attr.kind = 0 := by
  have hword : w32 v &&& regMask (rgnBase n) = 0 := by
    rw [regMask_rgnBase]
    apply BitVec.eq_of_toNat_eq
    show v % 2 ^ 32 &&& (2 ^ 5 - 1) = 0
    rw [Nat.and_two_pow_sub_one_eq_mod]
    omega
  refine ⟨hword, kind_ofWords ?_ _ _⟩
  unfold Run.reg
  rw [reg_setReg_self r hwf, hword]
  rfl


/-- The frame of a region that this House held, and that is no region's any more, leaves the frame map (R279). -/
theorem frameSync_cleared (r : Run) (n : BitVec 18) (old : Region) {new : Region} (h : new.attr.kind = 0) :
    r.frameSync n old new = if r.holdsFrame n old then r.st (.frame old.frame 0) else r := by
  have hnew : ∀ r : Run, r.holdsFrame n new = false := fun r => holdsFrame_of_kind r n h
  unfold Run.frameSync
  simp only [hnew, Bool.false_and, Bool.not_false, Bool.and_true, Bool.false_eq_true, if_false]

/-- Word 0 of the entry has been stored, and the CRC engine is left as `k`. -/
def clearedRun (r : Run) (n : BitVec 18) (old : Nat) (k : CrcEng) : Run :=
  (r.setReg (rgnBase n) (clearWr n old).new).modCrc fun _ => k

theorem holdsFrame_clearedRun (r : Run) (n : BitVec 18) (old : Nat) (k : CrcEng) (x : Region) :
    (clearedRun r n old k).holdsFrame n x = r.holdsFrame n x := by
  have hid : (clearedRun r n old k).reg 0x10 = r.reg 0x10 := reg_setReg_ne r (by unfold rgnBase; omega)
  unfold Run.holdsFrame Run.myId Run.fld
  rw [hid]

theorem wrReg_clear (r : Run) (w : Writer) (n : BitVec 18) (old : Nat) (hcrc : r.c.crc.busy = false)
    (hwf : mwf regReset r.m.regs = true) : ∃ k, r.wrReg w (clearWr n old) =
      if r.holdsFrame n (r.region n) then (clearedRun r n old k).st (.frame (r.region n).frame 0) else clearedRun r n old k := by
  obtain ⟨k, hk⟩ := configDirty_idle (r.setReg (rgnBase n) (clearWr n old).new)
    ((old ^^^ (clearWr n old).new) &&& crcMask (rgnBase n) ≠ 0) hcrc
  have hstore : r.wrStore (clearWr n old) = clearedRun r n old k := by
    unfold clearedRun Run.wrStore
    rw [← hk, show cmdBits (clearWr n old).d.name = 0 from rfl, Nat.and_zero, Nat.xor_zero]
    dsimp only
    rw [if_neg (by simp [clearWr, rgnAttr])]
    rfl
  have hlate : (decide (0x1000000 ≤ (clearWr n old).a)) = true := decide_eq_true (Nat.le_add_right ..)
  have hgone : ((clearedRun r n old k).region n).attr.kind = 0 := (region_cleared r n (written_rgnAttr_zero old) hwf).2
  refine ⟨k, ?_⟩
  unfold Run.wrReg
  rw [wrBad_clear]
  dsimp only
  unfold Run.wrDo
  rw [if_neg (by simp [clearWr, rgnAttr]), if_pos hlate, hstore, show rgnOf (clearWr n old).a = n from rgnOf_rgnBase n]
  dsimp only
  rw [frameSync_cleared _ n _ hgone, holdsFrame_clearedRun]

/-- R41, R279: where the tables are canonical, clearing the KIND of a region takes its frame out of the frame map when this
House held it. -/
theorem clearedRegion_leavesFrameMap (s : State) (g : MgPort) (n : BitVec 18) (hready : mgmtReady s) (hwf : storesWf s) :
    let r := Run.start s
    ∃ t, exec (.regionEntryWrite g (BitVec.ofNat 26 (rgnBase n)) 0xF 0) s = .next t ∧ regIs s t (rgnBase n) 0 ∧
      (r.holdsFrame n (r.region n) = true → t.m.frames = merase s.m.frames (r.region n).frame) ∧
      (r.holdsFrame n (r.region n) = false → t.m.frames = s.m.frames) ∧ t.m.dram = s.m.dram ∧
      t.c = { heard s g with crc := t.c.crc } := by
  intro r
  have ⟨_, _, _, hcrc⟩ := hready
  have hbase : 0x1000000 ≤ rgnBase n ∧ rgnBase n < 0x2000000 ∧ rgnBase n % 4 = 0 := by unfold rgnBase; omega
  obtain ⟨hlo, hhi, h4⟩ := hbase
  have ha : (BitVec.ofNat 26 (rgnBase n)).toNat = rgnBase n := by simp; omega
  have hnames : namesReg ["RGN_ATTR", "RGN_TENANT", "RGN_PLACE"] (BitVec.ofNat 26 (rgnBase n)).toNat = true := by
    unfold namesReg
    rw [ha, aliasOf_high (by omega), regDef_rgnBase]
    rfl
  obtain ⟨k, hwrite⟩ := wrReg_clear (heardRun s g) (.port g) n (r.reg (rgnBase n)) hcrc hwf.1
  have hexec : exec (.regionEntryWrite g (BitVec.ofNat 26 (rgnBase n)) 0xF 0) s =
      .next (Run.finish s ((heardRun s g).wrReg (.port g) (clearWr n (r.reg (rgnBase n))))) := by
    show Host.Outcome.next (Run.finish s (r.namedWrite _ g _ _ _)) = _
    unfold Run.namedWrite
    rw [if_pos hnames, mgmtWrite_region hready hlo hhi h4 (regDef_rgnBase n)]
    rfl
  have hregs : ∀ t : State, t.m.regs = mset (regReset (rgnBase n)) s.m.regs (rgnBase n)
      (w32 (clearWr n (r.reg (rgnBase n))).new &&& regMask (rgnBase n)) → regIs s t (rgnBase n) 0 := fun t ht => ht.trans
    (congrArg (mset _ _ _) (region_cleared (heardRun s g) n (written_rgnAttr_zero (r.reg (rgnBase n))) hwf.1).1)
  rw [hexec, hwrite, show (heardRun s g).holdsFrame n ((heardRun s g).region n) = r.holdsFrame n (r.region n) from rfl]
  cases hold : r.holdsFrame n (r.region n) with
  | true => exact ⟨_, rfl, hregs _ rfl, fun _ => rfl, nofun, rfl, rfl⟩
  | false => exact ⟨_, rfl, hregs _ rfl, nofun, fun _ => rfl, rfl, rfl⟩

end Sys2Proof.Laws
end

section
/-! SUPPORT. The obligation about the tables of windows, regions and classes, which fails on a register table that lists
a region entry twice. -/
namespace Sys2Proof.Laws
open Sys2Proof Sys2Proof.Machine Sys2Proof.Safety

/-- A House in RUN whose register table lists word 0 of region 0 twice, KIND = Direct each time, and whose frame map has
the region's frame 3. No canonical table lists a key twice, and commands keep the tables canonical (`finish_wf`). -/
def regionListedTwice : State :=
  { c := { mod := { mode := .run } }
    m := { regs := [(0x400, 0x10001), (rgnBase 0, 1), (rgnBase 0, 1), (rgnBase 0 + 8, 0x30000)], frames := [(3, 1)] } }

/-- The write of 0 to word 0 of region 0 takes one of the two listings away; the other one is read from then on. -/
def regionListedOnce : State :=
  Run.finish regionListedTwice ((Run.start regionListedTwice).namedWrite ["RGN_ATTR", "RGN_TENANT", "RGN_PLACE"] .a
    (BitVec.ofNat 26 (rgnBase 0)) 0xF 0)

theorem regionListedTwice_held : mgmtReady regionListedTwice ∧
    (Run.start regionListedTwice).holdsFrame 0 ((Run.start regionListedTwice).region 0) = true ∧
    ((Run.start regionListedTwice).region 0).frame = 3 := by decide +kernel

theorem regionListedOnce_frame : mget 0 regionListedOnce.m.frames 3 ≠ 0 := by decide +kernel

/-- Refutes O38: its clause on regions does not ask for canonical tables. Where the register table lists word 0 of a region
twice, the write of 0 removes the first listing only, the region still reads as held, and its frame stays in the frame map.
With canonical tables the clause holds: `clearedRegion_leavesFrameMap`. -/
theorem not_tablesAreWritten : ¬ Obligations.TablesAreWritten := by
  rintro ⟨-, hregion, -⟩
  obtain ⟨hready, hheld, hframe⟩ := regionListedTwice_held
  obtain ⟨t, hexec, -, htaken, -⟩ := hregion regionListedTwice .a 0 hready
  have ht : regionListedOnce = t := Host.Outcome.next.inj hexec
  have hgone : t.m.frames = merase regionListedTwice.m.frames 3 := hframe ▸ htaken hheld
  have hread : mget 0 regionListedOnce.m.frames 3 = 0 := by rw [ht, hgone]; rfl
  exact regionListedOnce_frame hread

end Sys2Proof.Laws
end

section
/-! SUPPORT. What a Room does with a host's plain read, with a tracker that nothing waits on, and with an event of its own:
the rules that the obligations about the Rooms share. -/
namespace Sys2Proof.Laws
open Sys2Proof Sys2Proof.Machine Sys2Proof.Safety

variable (r : Run)

/-- A loop whose body does nothing does nothing. -/
theorem forEach_fixed {α : Type} (f : α → Run → Run) (xs : List α) (h : ∀ x ∈ xs, f x r = r) : r.forEach xs f = r := by
  induction xs with
  | nil => rfl
  | cons x xs ih =>
    show (f x r).forEach xs f = r
    rw [h x List.mem_cons_self]
    exact ih fun y hy => h y (List.mem_cons_of_mem _ hy)

theorem modRoom_congr (m : Fin 64) {f g : Room → Room} (h : f r.c.rooms[m] = g r.c.rooms[m]) : r.modRoom m f = r.modRoom m g :=
  congrArg (r.setRoom m) h

/-! ## Data for a host -/

/-- A request that asks for no copy leaves the Screen as it is (R139). -/
theorem recordThen_untracked (m : Fin 64) (it : Item) (ans : Option (LineData × Bool)) (f : Run → Run)
    (h : it.keep = .no) : r.recordThen m it ans f = f r := by
  have hrecord : r.scnRecord m it = .ok r := by
    unfold Run.scnRecord
    split
    · exact if_pos h
    · rfl
  unfold Run.recordThen
  rw [hrecord]

/-- A host read that leaves no copy behind: MemRd with MetaValue No-Op. -/
structure PlainRead (it : Item) (uid : Nat) (p : Fin 8) (k : Fin 2) : Prop where
  src : it.src = .host uid p k
  op : it.op = .memRd
  meta' : it.meta' = .noOp

theorem PlainRead.keep {it : Item} {uid : Nat} {p : Fin 8} {k : Fin 2} (h : PlainRead it uid p k) : it.keep = .no := by
  unfold Item.keep
  rw [h.op, h.meta']

/-- While the Timetable runs, data for a host waits at the Room's stop, and retires its request (R211). -/
theorem giveData_plainRead {it : Item} {uid : Nat} {p : Fin 8} {k : Fin 2} (h : PlainRead it uid p k)
    (hrun : r.c.tt.run = true) (m : Fin 64) (d : LineData) (poison : Bool) : r.giveData m it d poison =
      r.post (roomCal m) 0x56 (.ans it.src (.data (chunkOf d (paChunk it.pa)) poison)) (some it.src) := by
  have hop : (it.op = .rsvLoad) = False := by rw [h.op]; simp
  unfold Run.giveData Run.beforeData Run.answerData Run.answer
  rw [recordThen_untracked r m it _ _ h.keep, h.src, h.op]
  simp [hrun, isRead]

/-- And so does a completion, which retires nothing (R211). -/
theorem tellDone_host (hrun : r.c.tt.run = true) (m : Fin 64) (uid : Nat) (p : Fin 8) (k : Fin 2) (tin : Stamp) :
    r.tellDone m (.host uid p k) tin = r.post (roomCal m) 0x56 (.ans (.host uid p k) .done) none :=
  if_pos hrun

/-! ## Trackers -/

/-- When the snoop trackers of a Room still wait for a home transaction of theirs, what can go on are its miss trackers
only: those that nothing needs become free. -/
theorem cohPoll_waiting (m : Fin 64) (hsnoops : (r.c.rooms[m]).snoopQ = []) (hscn : (r.c.rooms[m]).scnBad = [])
    (hcohs : ∀ c ∈ (r.c.rooms[m]).cohs, c.parked = [] ∧ ∃ b rcl, c.job = .home b rcl false) :
    r.cohPoll m = r.trkSweep m := by
  have hgo : r.snoopsGo m = r := by
    unfold Run.snoopsGo
    rw [modRoom_fix r m _ (by rw [← hsnoops]), show (r.room m).snoopQ = [] from hsnoops]
    rfl
  have hpark : (r.forEach (r.room m).cohs fun c r => r.cohUnpark m c.idx) = r := forEach_fixed r _ _ fun c _ => by
    unfold Run.cohUnpark
    split
    next x hx =>
      have hx := (hcohs x (List.mem_of_find?_eq_some hx)).1
      rw [if_pos (by simp [hx])]
    next => rfl
  have hend : (r.forEach (r.room m).cohs fun c r => r.cohEnd m c) = r := forEach_fixed r _ _ fun c hc => by
    obtain ⟨-, b, rcl, hjob⟩ := hcohs c hc
    unfold Run.cohEnd
    rw [hjob]
  have hsweeps : r.forEach (r.room m).scnBad (fun x r => r.scnSweepGo m x) = r := by
    rw [show (r.room m).scnBad = [] from hscn]
    rfl
  unfold Run.cohPoll
  simp only [hgo, hsweeps, hpark, hend]

/-- The Room with these miss trackers. -/
def setTrks (m : Fin 64) (ts : List Trk) : Run := r.modRoom m fun y => { y with trks := ts }

@[simp] theorem setTrks_c (m : Fin 64) (ts : List Trk) :
    (setTrks r m ts).c = { r.c with rooms := r.c.rooms.set m.val { r.c.rooms[m] with trks := ts } m.isLt } := rfl
@[simp] theorem setTrks_m (m : Fin 64) (ts : List Trk) : (setTrks r m ts).m = r.m := rfl
@[simp] theorem setTrks_log (m : Fin 64) (ts : List Trk) : (setTrks r m ts).log = r.log := rfl

theorem room_setTrks (m : Fin 64) (ts : List Trk) : (setTrks r m ts).c.rooms[m] = { r.c.rooms[m] with trks := ts } :=
  room_modRoom_self r m _

theorem modTrk_single {m : Fin 64} {t : Trk} (f : Trk → Trk) (h : (r.c.rooms[m]).trks = [t]) :
    r.modTrk m t.idx f = setTrks r m [f t] := by
  refine modRoom_congr r m ?_
  rw [h, List.map_singleton, if_pos rfl]

theorem find_trk {m : Fin 64} {t : Trk} (h : (r.c.rooms[m]).trks = [t]) :
    (r.room m).trks.find? (fun x => x.idx = t.idx) = some t := by
  rw [show (r.room m).trks = [t] from h]
  exact List.find?_cons_of_pos (by simp)

/-- The Room without waiters, which no longer closes it. -/
def emptied (m : Fin 64) : Run := r.modRoom m fun y => { y with waiters := [], closed := false }

@[simp] theorem emptied_c (m : Fin 64) : (emptied r m).c =
    { r.c with rooms := r.c.rooms.set m.val { r.c.rooms[m] with waiters := [], closed := false } m.isLt } := rfl
@[simp] theorem emptied_m (m : Fin 64) : (emptied r m).m = r.m := rfl
@[simp] theorem emptied_log (m : Fin 64) : (emptied r m).log = r.log := rfl

theorem room_emptied (m : Fin 64) : (emptied r m).c.rooms[m] = { r.c.rooms[m] with waiters := [], closed := false } :=
  room_modRoom_self r m _

theorem pullWaiters_all (m : Fin 64) (f : Waiter → Bool) (h : ∀ w ∈ (r.c.rooms[m]).waiters, f w = true) :
    r.pullWaiters m f = (emptied r m, (r.c.rooms[m]).waiters) := by
  have hleft : (r.c.rooms[m]).waiters.filter (fun w => !(f w)) = [] := by simpa [List.filter_eq_nil_iff] using h
  have hrun : (r.pullWaiters m f).1 = emptied r m := modRoom_congr (f := fun y =>
      { y with waiters := y.waiters.filter fun w => !(f w)
               closed := y.closed && decide (480 < (y.waiters.filter fun w => !(f w)).length) }) r m <| by
    rw [hleft, List.length_nil, show decide (480 < 0) = false from rfl, Bool.and_false]
  exact Prod.ext hrun (List.filter_eq_self.mpr h)

/-- A tracker that waits for nothing more, and that no waiter of the Room needs, is freed. -/
theorem trkSweep_idle (m : Fin 64) (t : Trk) (htrks : (r.c.rooms[m]).trks = [t]) (hidle : t.idle = true)
    (hwaiters : (r.c.rooms[m]).waiters = []) : r.trkSweep m = setTrks r m [] := by
  refine modRoom_congr r m ?_
  generalize r.c.rooms[m] = y at *
  simp [htrks, hidle, Room.mudWaits, hwaiters]

/-- A tracker whose last fill has come or timed out, in a Room where nothing else goes on, is freed. -/
theorem trkSettle_idle (m : Fin 64) (t : Trk) (htrks : (r.c.rooms[m]).trks = [t]) (hidle : t.idle = true)
    (hplace : t.place = none) (hwaiters : (r.c.rooms[m]).waiters = []) (hcohs : (r.c.rooms[m]).cohs = [])
    (hsnoops : (r.c.rooms[m]).snoopQ = []) (hscn : (r.c.rooms[m]).scnBad = []) :
    r.trkSettle m t.idx = setTrks r m [] := by
  obtain ⟨⟨⟨⟨⟨hpend, hevict⟩, -⟩, -⟩, -⟩, hheld⟩ : ((((t.pend = [] ∧ t.evicting = false) ∧ _) ∧ _) ∧ _) ∧ t.held = [] := by
    simpa [Trk.idle] using hidle
  have hsame : r.modTrk m t.idx (fun t => { t with held := [], place := none }) = r := by
    rw [modTrk_single r _ htrks, ← hplace, ← hheld]
    exact modRoom_fix r m _ (by rw [← htrks])
  have hqueue : (r.modRoom m fun y => { y with snoopQ := y.snoopQ ++ t.held }) = r :=
    modRoom_fix r m _ (by rw [hheld, List.append_nil])
  unfold Run.trkSettle
  rw [find_trk r htrks]
  simp only [hpend, hevict, hplace, List.isEmpty_nil, Bool.not_true, Bool.or_self, Bool.false_eq_true, if_false, hsame, hqueue]
  rw [cohPoll_waiting r m hsnoops hscn (by rw [hcohs]; simp), trkSweep_idle r m t htrks hidle hwaiters]

/-- A tracker that waits for one fill, and for nothing else. -/
structure OneFill (tr : Trk) (l : Fin 16) (by' : Nat) : Prop where
  pend : tr.pend = [(l, by')]
  twins : tr.twins = []
  place : tr.place = none
  grant : tr.grant = .none
  upg : tr.upg = 0
  evicting : tr.evicting = false
  held : tr.held = []

/-! ## Events -/

theorem evUnit_room (m : Fin 64) : evUnit (m.val / 16) (m.val % 16) = some (unitRoom m) := by
  unfold evUnit unitRoom
  rw [if_pos (by omega), Nat.div_add_mod]

/-- The Fuse box has the event. -/
def withEvent (e : Event) : Run := r.modFbx fun f => { f with reported := f.reported ++ [e] }

@[simp] theorem withEvent_c (e : Event) :
    (withEvent r e).c = { r.c with fbx := { r.c.fbx with reported := r.c.fbx.reported ++ [e] } } := rfl
@[simp] theorem withEvent_m (e : Event) : (withEvent r e).m = r.m := rfl
@[simp] theorem withEvent_log (e : Event) : (withEvent r e).log = r.log := rfl

/-- An event of a Room that is not fenced is reported (R369). -/
theorem rmEvent_open (m : Fin 64) (code : Nat) (addr : Option PoolAddr) (key cause : Nat) (path : List UnitNo)
    (h : r.fenced (unitRoom m) = false) :
    ∃ e : Event, r.rmEvent m code addr key cause path = withEvent r e ∧ e.code = code ∧ e.src = m.val / 16 := by
  refine ⟨_, report_open r _ fun u hu => ?_, rfl, rfl⟩
  obtain rfl : unitRoom m = u := Option.some.inj ((evUnit_room m).symm.trans hu)
  exact h

/-- A count of a Room is no part of the scene. -/
theorem scene_rmCount (m : Fin 64) {off : Nat} (n : Nat) (h : off < 0x10000) : scene (r.rmCount m off n) = scene r :=
  scene_setReg r _ (isCount_rmBase m h)

end Sys2Proof.Laws
end

section
/-! SUPPORT. The performance counters: a count touches the counters and the interrupts they raise, and nothing else. -/
namespace Sys2Proof.Laws
open Sys2Proof Sys2Proof.Machine Sys2Proof.Safety

/-- What the performance counters of the Rooms may change: which of them have counted in this cc, the management ports'
causes, the counters, and store operations that touch no cell. -/
structure Tally where
  pulsed : List Nat
  mgA : Mg
  mgB : Mg
  pmc : SMap (BitVec 49)
  ops : List StoreOp
  cellFree : ∀ o ∈ ops, Laws.cellFree o = true

variable (r : Run)

/-- The command at work with the counters as they have become. -/
def tallied (x : Tally) : Run :=
  ⟨{ r.c with pulsed := x.pulsed, mgA := x.mgA, mgB := x.mgB }, { r.m with pmc := x.pmc }, x.ops ++ r.log⟩

@[simp] theorem tallied_c (x : Tally) : (tallied r x).c = { r.c with pulsed := x.pulsed, mgA := x.mgA, mgB := x.mgB } := rfl
@[simp] theorem tallied_m (x : Tally) : (tallied r x).m = { r.m with pmc := x.pmc } := rfl
@[simp] theorem tallied_log (x : Tally) : (tallied r x).log = x.ops ++ r.log := rfl

/-- Counting changes nothing but the counters. -/
def Counts (r r' : Run) : Prop := ∃ x, r' = tallied r x

theorem Counts.pulsed (ks : List Nat) : Counts r { r with c := { r.c with pulsed := ks } } :=
  ⟨⟨ks, r.c.mgA, r.c.mgB, r.m.pmc, [], by simp⟩, rfl⟩

theorem Counts.refl : Counts r r := ⟨⟨r.c.pulsed, r.c.mgA, r.c.mgB, r.m.pmc, [], by simp⟩, rfl⟩

variable {r}

theorem Counts.trans {r' r'' : Run} (h : Counts r r') (h' : Counts r' r'') : Counts r r'' := by
  obtain ⟨x, rfl⟩ := h
  obtain ⟨y, rfl⟩ := h'
  refine ⟨⟨y.pulsed, y.mgA, y.mgB, y.pmc, y.ops ++ x.ops, fun o ho => ?_⟩, ?_⟩
  · exact (List.mem_append.mp ho).elim (y.cellFree o) (x.cellFree o)
  · simp [tallied]

theorem Counts.forEach {α : Type} (f : α → Run → Run) (h : ∀ x r, Counts r (f x r)) (xs : List α) :
    Counts r (r.forEach xs f) := by
  induction xs generalizing r with
  | nil => exact .refl r
  | cons x xs ih => exact (h x r).trans (ih (r := f x r))

theorem pmcAdd_counts (r : Run) (m : Fin 64) (k n : Nat) : Counts r (r.pmcAdd m k n) := by
  unfold Run.pmcAdd Run.when
  extract_lets key v c wraps ovf stored
  have hops : ∀ o ∈ [StoreOp.pmc key (BitVec.ofNat 49 (ovf + c % 2 ^ 48))], cellFree o = true := by simp [cellFree]
  split
  · exact ⟨⟨_, _, _, _, _, hops⟩, rfl⟩
  · exact ⟨⟨_, _, _, _, _, hops⟩, rfl⟩

theorem pmcSignal_counts (r : Run) (m : Fin 64) (k n : Nat) (edge : Bool) : Counts r (r.pmcSignal m k n edge) := by
  unfold Run.pmcSignal
  extract_lets key again counted
  have hcounted : Counts r counted := by
    unfold counted
    split
    · split
      · exact .refl r
      · exact pmcAdd_counts r m k _
    · exact pmcAdd_counts r m k n
  split
  · exact hcounted
  · exact hcounted.trans (Counts.pulsed _ _)

/-- A performance event of a Room is counted (R495). -/
theorem pulse_counts (r : Run) (m : Fin 64) (code n : Nat) : Counts r (r.pulse m code n) := by
  unfold Run.pulse
  split
  · exact .refl r
  · refine Counts.forEach _ (fun k r => ?_) _
    dsimp only
    split
    · exact pmcSignal_counts r m k n _
    · exact .refl r

end Sys2Proof.Laws
end

section
/-! SUPPORT. The obligation about fills and snoops of other Houses that stay unanswered (R77, R155). -/
namespace Sys2Proof.Laws
open Sys2Proof Sys2Proof.Machine Sys2Proof.Safety Sys2Proof.Claim

variable (r : Run)

/-! ## A fill that times out (R77) -/

/-- A waiter for a line that a timed-out fill brings completes with poison. -/
theorem giveUp_plainRead {it : Item} {uid : Nat} {p : Fin 8} {k : Fin 2} (h : PlainRead it uid p k)
    (hrun : r.c.tt.run = true) (m : Fin 64) (why : Why) (ans : Option (LineData × Bool)) (dead : Bool) :
    r.giveUp m ⟨it, why, ans⟩ dead =
      r.post (roomCal m) 0x56 (.ans it.src (.data (chunkOf 0 (paChunk it.pa)) true)) (some it.src) := by
  unfold Run.giveUp
  rw [← giveData_plainRead r h hrun]
  simp [Item.writes, Item.reads, Item.owns, isWrite, isRead, h.op, h.meta']

theorem heldLost_none (m : Fin 64) (line : BitVec 40) (h : (r.c.rooms[m]).wbuf = []) : r.heldLost m line = r := by
  unfold Run.heldLost
  rw [show (r.room m).wbuf = [] from h]
  rfl

theorem OneFill.lateLines {tr : Trk} {l : Fin 16} {by' now : Nat} (h : OneFill tr l by') (hlate : by' ≤ now) :
    tr.lateLines now = [l] := by
  simp [Trk.lateLines, h.pend, h.twins, hlate]

theorem OneFill.grantLate {tr : Trk} {l : Fin 16} {by' : Nat} (h : OneFill tr l by') (now : Nat) :
    tr.grantLate now = false := by
  simp [Trk.grantLate, h.grant]

/-- Once that fill has timed out, nothing is left of it. -/
theorem OneFill.timedOut {tr : Trk} {l : Fin 16} {by' now : Nat} (h : OneFill tr l by') (hlate : by' ≤ now) :
    tr.timedOut now = { tr with pend := [] } := by
  obtain ⟨hpend, htwins, -, hgrant, -⟩ := h
  cases tr
  simp_all [Trk.timedOut, Trk.grantLate]

/-- The tracker whose fill has timed out, with the poison of its reader under way. -/
def gaveUp (m : Fin 64) (tr : Trk) (it : Item) : Run :=
  setTrks ((emptied r m).post (roomCal m) 0x56 (.ans it.src (.data (chunkOf 0 (paChunk it.pa)) true)) (some it.src)) m
    [{ tr with pend := [] }]

theorem room_gaveUp (m : Fin 64) (tr : Trk) (it : Item) : (gaveUp r m tr it).c.rooms[m] =
    { r.c.rooms[m] with waiters := [], closed := false, trks := [{ tr with pend := [] }] } := by
  unfold gaveUp
  rw [room_setTrks, post_c, room_emptied]

/-- The tracker's one reader takes poison, and the event is reported. -/
theorem trkTimeout_oneFill {m : Fin 64} {tr : Trk} {l : Fin 16} {by' uid : Nat} {it : Item} {p : Fin 8} {k : Fin 2}
    (hfill : OneFill tr l by') (hread : PlainRead it uid p k) (hline : paLineNo it.pa = l) (hlate : by' ≤ r.now)
    (hrun : r.c.tt.run = true) (htrks : (r.c.rooms[m]).trks = [tr])
    (hwaiters : (r.c.rooms[m]).waiters = [⟨it, .fill tr.idx, none⟩]) (hwbuf : (r.c.rooms[m]).wbuf = []) :
    ∃ addr path, r.trkTimeout m tr =
      ((gaveUp r m tr it).rmEvent m Code.fillTimeout addr 0 0 path).trkSettle m tr.idx := by
  have hpull : (r.pullWaiters m fun w => (w.why = .fill tr.idx && [l].contains (paLineNo w.item.pa)) ||
      (w.why = .grant tr.idx && false)) = (emptied r m, [⟨it, .fill tr.idx, none⟩]) := by
    rw [pullWaiters_all r m _ (by rw [hwaiters]; simp [hline]), hwaiters]
  have hgive : ∀ dead, (emptied r m).giveUp m ⟨it, .fill tr.idx, none⟩ dead = (emptied r m).post (roomCal m) 0x56
      (.ans it.src (.data (chunkOf 0 (paChunk it.pa)) true)) (some it.src) := fun dead =>
    giveUp_plainRead (emptied r m) hread hrun m _ _ dead
  have hheld : ∀ k code x q line, ((emptied r m).post k code x q).heldLost m line = (emptied r m).post k code x q :=
    fun _ _ _ _ _ => heldLost_none _ _ _ (by rw [post_c, room_emptied]; exact hwbuf)
  have htimed : ((emptied r m).post (roomCal m) 0x56 (.ans it.src (.data (chunkOf 0 (paChunk it.pa)) true)) (some it.src)).modTrk
      m tr.idx (fun t => t.timedOut r.now) = gaveUp r m tr it := by
    rw [modTrk_single _ _ (by rw [post_c, room_emptied]; exact htrks), hfill.timedOut hlate]
    rfl
  unfold Run.trkTimeout
  simp only [hfill.lateLines hlate, hfill.grantLate, hpull, Run.forEach, List.foldl_cons, List.foldl_nil, hgive, hheld,
    hfill.twins, List.filter_nil]
  rw [← htimed]
  exact ⟨_, _, rfl⟩

/-- In a quiet Room the tracker is free thereafter. -/
theorem fillTimeout_oneFill {m : Fin 64} {tr : Trk} {l : Fin 16} {by' uid : Nat} {it : Item} {p : Fin 8} {k : Fin 2}
    (hfill : OneFill tr l by') (hread : PlainRead it uid p k) (hline : paLineNo it.pa = l) (hlate : by' ≤ r.now)
    (hrun : r.c.tt.run = true) (hfence : r.fenced (unitRoom m) = false) (hcohs : (r.c.rooms[m]).cohs = [])
    (hsnoops : (r.c.rooms[m]).snoopQ = []) (hscn : (r.c.rooms[m]).scnBad = []) (htrks : (r.c.rooms[m]).trks = [tr])
    (hwaiters : (r.c.rooms[m]).waiters = [⟨it, .fill tr.idx, none⟩]) (hwbuf : (r.c.rooms[m]).wbuf = []) :
    ∃ e : Event, e.code = Code.fillTimeout ∧ e.src = m.val / 16 ∧
      r.fillTimeout m tr.idx = setTrks (withEvent (gaveUp r m tr it) e) m [] := by
  obtain ⟨addr, path, htimeout⟩ := trkTimeout_oneFill r hfill hread hline hlate hrun htrks hwaiters hwbuf
  have hroom := room_gaveUp r m tr it
  have hfind : (r.room m).trks.find? (fun t => t.idx = tr.idx && r.c.tt.run) = some tr := by
    simpa [hrun] using find_trk r htrks
  have hidle : ({ tr with pend := [] } : Trk).idle = true := by
    simp [Trk.idle, hfill.twins, hfill.grant, hfill.upg, hfill.evicting, hfill.held]
  obtain ⟨e, hevent, hcode, hesrc⟩ := rmEvent_open (gaveUp r m tr it) m Code.fillTimeout addr 0 0 path hfence
  refine ⟨e, hcode, hesrc, ?_⟩
  unfold Run.fillTimeout
  rw [hfind]
  dsimp only
  rw [if_pos (by rw [hfill.lateLines hlate]; rfl), htimeout, hevent]
  exact trkSettle_idle _ m { tr with pend := [] } (by rw [withEvent_c, hroom]) hidle hfill.place
    (by rw [withEvent_c, hroom]) (by rw [withEvent_c, hroom]; exact hcohs) (by rw [withEvent_c, hroom]; exact hsnoops)
    (by rw [withEvent_c, hroom]; exact hscn)

theorem timedOutFillPoisonsItsRead : TimedOutFillPoisonsItsRead := by
  intro s m tr l by' it uid p k hrun hquiet htrks hpend hlate htwins hplace hgrant hupg hevict hheld hwaiters hwbuf hline
    hsrc hop hmeta
  have hfill : OneFill tr l by' := ⟨hpend, htwins, hplace, hgrant, hupg, hevict, hheld⟩
  obtain ⟨hfence, hcohs, hsnoops, hscn⟩ := hquiet
  obtain ⟨e, hcode, hesrc, hdone⟩ := fillTimeout_oneFill (Run.start s) hfill ⟨hsrc, hop, hmeta⟩ hline hlate hrun hfence hcohs
    hsnoops hscn htrks hwaiters hwbuf
  refine ⟨_, congrArg (fun r => Host.Outcome.next (Run.finish s r)) hdone, ?_, ?_, ⟨?_, ?_⟩, ⟨e, ?_, hcode, hesrc⟩,
    fun n hn => ?_, ?_, ?_, keepsCells_of_log _ _ (by simp [gaveUp])⟩
  case refine_6 =>
    have hne : m.val ≠ n.val := fun e => hn (Fin.ext e.symm)
    simp [gaveUp, hne]
  all_goals simp [gaveUp, roomCal]

/-! ## Snoops of other Houses (R155) -/

/-- The Room with these snoop trackers. -/
def setCohs (m : Fin 64) (cs : List Coh) : Run := r.modRoom m fun y => { y with cohs := cs }

theorem room_setCohs (m : Fin 64) (cs : List Coh) : (setCohs r m cs).c.rooms[m] = { r.c.rooms[m] with cohs := cs } :=
  room_modRoom_self r m _

theorem modCoh_single {m : Fin 64} {c : Coh} (f : Coh → Coh) (h : (r.c.rooms[m]).cohs = [c]) :
    r.modCoh m c.idx f = setCohs r m [f c] := by
  refine modRoom_congr r m ?_
  rw [h, List.map_singleton, if_pos rfl]

theorem find_coh {m : Fin 64} {c : Coh} (h : (r.c.rooms[m]).cohs = [c]) :
    (r.room m).cohs.find? (fun x => x.idx = c.idx) = some c := by
  rw [show (r.room m).cohs = [c] from h]
  exact List.find?_cons_of_pos (by simp)

/-! ### A House that has not answered in time -/

/-- While the Timetable runs, INV or RECALL waits at the Room's stop; the rest of its sending is counts. -/
theorem scene_sendSnoop (hrun : r.c.tt.run = true) (m : Fin 64) (idx : Nat) (b : Block) (rcl : Bool) (e : BitVec 6) :
    scene (r.sendSnoop m idx b rcl e) = { scene r with wait := (scene r).wait ++ [⟨roomCal m, 0x58,
      .msg (r.mkMsg (if rcl then Op.rcl else Op.inv) e (blkLine b 0) (r.attrOf b) (mkTag m (384 + idx))) r.ftNs, none⟩] } := by
  unfold Run.sendSnoop
  dsimp only
  rw [scene_pulse, scene_rmCount _ _ _ (by decide)]
  unfold Run.hallMsg
  rw [if_pos hrun]
  rfl

/-- A House that has not answered in time, and has not been asked twice, is asked again. -/
theorem invRetry_silent {m : Fin 64} {c : Coh} {i : InvOut} {b : Block} {rcl : Bool} (hrun : r.c.tt.run = true)
    (hcohs : (r.c.rooms[m]).cohs = [c]) (hinvs : c.invs = [i]) (hretried : i.retried = false) (hby : i.retryBy ≤ r.now)
    (hjob : c.job = .home b rcl false) : r.invRetry m c.idx =
      (setCohs r m [{ c with invs := [{ i with retried := true }] }]).sendSnoop m c.idx c.blk rcl i.house := by
  unfold Run.invRetry
  rw [find_coh r hcohs]
  dsimp only
  rw [modCoh_single r _ hcohs, hinvs, hjob]
  simp [hretried, hby, hrun, Run.forEach]

theorem silentSharerIsAskedAgain (s : State) (m : Fin 64) (c : Coh) (i : InvOut) (b : Block) (rcl : Bool)
    (hrun : s.c.tt.run = true) (hcohs : (s.c.rooms[m]).cohs = [c]) (hinvs : c.invs = [i]) (hretried : i.retried = false)
    (hby : i.retryBy ≤ s.c.now) (hjob : c.job = .home b rcl false) :
    ∃ t, exec (.invRetry m c.idx) s = .next t ∧ (t.c.rooms[m]).cohs = [{ c with invs := [{ i with retried := true }] }] ∧
      msgWaits s t (72 + m.val) 0x58 none i.house (if rcl then Op.rcl else Op.inv)
        (fun f => f.addr = blkLine c.blk 0 ∧ f.tag = mkTag m (384 + c.idx) ∧ f.src = (Run.start s).myId) ∧
      onlyRoom s t m ∧ t.c.chans = s.c.chans ∧ t.c.porches = s.c.porches ∧ keepsCells s t := by
  have hdone := invRetry_silent (Run.start s) hrun hcohs hinvs hretried hby hjob
  have hscene := scene_sendSnoop (setCohs (Run.start s) m [{ c with invs := [{ i with retried := true }] }]) hrun m c.idx c.blk
    rcl i.house
  rw [← hdone] at hscene
  have hnext : exec (.invRetry m c.idx) s = .next (Run.finish s ((Run.start s).invRetry m c.idx)) := rfl
  generalize (Run.start s).invRetry m c.idx = done at hscene hnext
  have hrooms : done.c.rooms = s.c.rooms.set m.val { s.c.rooms[m] with cohs := [{ c with invs := [{ i with retried := true }] }] }
    m.isLt := congrArg Scene.rooms hscene
  refine ⟨_, hnext, ?_, ⟨_, _, ⟨congrArg Scene.wait hscene, congrArg Scene.fly hscene⟩, rfl, rfl, rfl, rfl, rfl⟩, fun n hn => ?_,
    congrArg Scene.chans hscene, congrArg Scene.porches hscene, keepsCells_of_scene done s (congrArg Scene.cells hscene)⟩
  · simp [hrooms]
  · have hne : m.val ≠ n.val := fun e => hn (Fin.ext e.symm)
    simp [hrooms, hne]

/-! ### A sharer that never answers -/

theorem dirFind_congr {r r' : Run} (h : r'.m.dir = r.m.dir) (m : Fin 64) (b : Block) : r'.dirFind m b = r.dirFind m b := by
  unfold Run.dirFind Run.dir
  rw [h]

/-- The directory entry without one of its sharers; it goes with the last. -/
def withoutSharer (e : DirEnt) (house : BitVec 6) : DirEnt :=
  if e.sharers &&& ~~~(bit64 house) = 0 then {} else { e with sharers := e.sharers &&& ~~~(bit64 house) }

/-- The House is no longer asked, its loss is an event, and it has left the directory entry. -/
def lostSharer (m : Fin 64) (c : Coh) (v : Event) (w : Nat) (e : DirEnt) (house : BitVec 6) : Run :=
  (withEvent (setCohs r m [{ c with invs := [] }]) v).dirPut m (dirSet c.blk) w (withoutSharer e house)

theorem room_lostSharer (m : Fin 64) (c : Coh) (v : Event) (w : Nat) (e : DirEnt) (house : BitVec 6) :
    (lostSharer r m c v w e house).c.rooms[m] = { r.c.rooms[m] with cohs := [{ c with invs := [] }] } := room_setCohs r m _

theorem invLost_sharer {m : Fin 64} {c : Coh} {i : InvOut} {b : Block} {rcl : Bool} {w : Nat} {e : DirEnt}
    (hfence : r.fenced (unitRoom m) = false) (hcohs : (r.c.rooms[m]).cohs = [c]) (hsnoops : (r.c.rooms[m]).snoopQ = [])
    (hscn : (r.c.rooms[m]).scnBad = []) (hinvs : c.invs = [i]) (hparked : c.parked = []) (hjob : c.job = .home b rcl false)
    (hdir : r.dirFind m c.blk = some (w, e)) (hstate : e.state = 2) :
    ∃ v : Event, v.code = Code.snoopLost ∧ v.src = m.val / 16 ∧
      r.invLost m c i = (lostSharer r m c v w e i.house).trkSweep m := by
  obtain ⟨v, hevent, hcode, hsrc⟩ := rmEvent_open (setCohs r m [{ c with invs := [] }]) m Code.snoopLost (some (blkPa c.blk))
    0 0 (unitRoom m :: (setCohs r m [{ c with invs := [] }]).routePath i.house) hfence
  have hmod : (r.modCoh m c.idx fun c => { c with invs := c.invs.filter fun x => x.house ≠ i.house }) =
      setCohs r m [{ c with invs := [] }] := by
    rw [modCoh_single r _ hcohs, hinvs]
    simp
  have hfound : (withEvent (setCohs r m [{ c with invs := [] }]) v).dirFind m c.blk = some (w, e) :=
    (dirFind_congr rfl m c.blk).trans hdir
  have hroom := room_lostSharer r m c v w e i.house
  have hpoll : (lostSharer r m c v w e i.house).cohPoll m = (lostSharer r m c v w e i.house).trkSweep m := by
    refine cohPoll_waiting _ m (by rw [hroom]; exact hsnoops) (by rw [hroom]; exact hscn) fun x hx => ?_
    rw [hroom] at hx
    obtain rfl := List.mem_singleton.mp hx
    exact ⟨hparked, b, rcl, hjob⟩
  refine ⟨v, hcode, hsrc, ?_⟩
  unfold Run.invLost
  dsimp only
  rw [hmod, hevent, hfound, ← hpoll]
  simp [lostSharer, withoutSharer, hstate]

/-- Such a command does nothing else. -/
theorem snoopLost_sharer {m : Fin 64} {c : Coh} {i : InvOut} (hrun : r.c.tt.run = true) (hcohs : (r.c.rooms[m]).cohs = [c])
    (hinvs : c.invs = [i]) (hby : i.lostBy ≤ r.now) : r.snoopLost m c.idx = r.invLost m c i := by
  unfold Run.snoopLost
  rw [find_coh r hcohs]
  dsimp only
  rw [hinvs, List.find?_cons_of_pos (by simp [hby, hrun])]

theorem silentSharerIsDropped (s : State) (m : Fin 64) (c : Coh) (i : InvOut) (b : Block) (rcl : Bool) (w : Nat) (e : DirEnt)
    (hrun : s.c.tt.run = true) (hfence : (Run.start s).fenced (unitRoom m) = false) (hcohs : (s.c.rooms[m]).cohs = [c])
    (hsnoops : (s.c.rooms[m]).snoopQ = []) (hscn : (s.c.rooms[m]).scnBad = []) (hinvs : c.invs = [i]) (hparked : c.parked = [])
    (hby : i.lostBy ≤ s.c.now) (hjob : c.job = .home b rcl false) (hdir : (Run.start s).dirFind m c.blk = some (w, e))
    (hstate : e.state = 2) :
    ∃ t, exec (.snoopLost m c.idx) s = .next t ∧ (t.c.rooms[m]).cohs = [{ c with invs := [] }] ∧
      t.m.dir = mset {} s.m.dir (dirKey m (dirSet c.blk) w) (withoutSharer e i.house) ∧
      reportedIn s t Code.snoopLost (m.val / 16) ∧ onlyRoom s t m ∧ t.m.dram = s.m.dram ∧ t.m.tags = s.m.tags ∧
      t.c.porches = s.c.porches := by
  obtain ⟨v, hcode, hsrc, hlost⟩ := invLost_sharer (Run.start s) hfence hcohs hsnoops hscn hinvs hparked hjob hdir hstate
  have hdone := (snoopLost_sharer (Run.start s) hrun hcohs hinvs hby).trans hlost
  refine ⟨_, congrArg (fun r => Host.Outcome.next (Run.finish s r)) hdone, ?_, rfl, ⟨v, ?_, hcode, hsrc⟩, fun n hn => ?_, rfl, rfl,
    ?_⟩
  · rw [finish_c, Run.trkSweep, room_modRoom_self, room_lostSharer]
  case refine_3 =>
    rw [finish_c, Run.trkSweep, room_modRoom_ne _ _ hn]
    show (setCohs (Run.start s) m _).c.rooms[n] = _
    exact room_modRoom_ne (Run.start s) _ hn
  all_goals simp [lostSharer, Run.trkSweep, Run.dirPut, setCohs]

theorem silentSharerIsAskedAgainThenDropped : SilentSharerIsAskedAgainThenDropped :=
  ⟨silentSharerIsAskedAgain, silentSharerIsDropped⟩

/-- Settles O22: the reader of a fill that never came takes poison and its tracker frees; a House that does not answer INV or
RECALL is asked twice, with the TAG of the tracker that asks (log entry 13), and then leaves the directory entry. -/
theorem silenceIsTimedOut : Obligations.SilenceIsTimedOut :=
  ⟨timedOutFillPoisonsItsRead, silentSharerIsAskedAgainThenDropped⟩

end Sys2Proof.Laws
end

section
/-! SUPPORT. The obligation about DATA, ACK_O and WR_ACK (R69, R105, R156, R158). -/
namespace Sys2Proof.Laws
open Sys2Proof Sys2Proof.Machine Sys2Proof.Safety Sys2Proof.Claim

variable (r : Run)

/-! ## A delivered answer reaches its Room -/

/-- The delivered answer has been taken out of the inbox, in the slot of its code at Room `m`. -/
def handed (m : Fin 64) (code : Nat) (f : FMsg) : Run := (r.grant m.val code).unbox f

@[simp] theorem handed_c (m : Fin 64) (code : Nat) (f : FMsg) : (handed r m code f).c =
    { r.c with used := (m.val, code) :: r.c.used, fab := { r.c.fab with inbox := r.c.fab.inbox.eraseP fun e => e.1 = f } } :=
  rfl
@[simp] theorem handed_m (m : Fin 64) (code : Nat) (f : FMsg) : (handed r m code f).m = r.m := rfl
@[simp] theorem handed_log (m : Fin 64) (code : Nat) (f : FMsg) : (handed r m code f).log = r.log := rfl

/-- An answer whose Room is not fenced is acted on in its slot (R223). -/
theorem fabAnswer_inSlot {s : State} {f : FMsg} {op : BitVec 8} {stamp : Stamp} {d : Nat} (fill : Bool)
    (act : Run → Fin 64 → Run) (hbox : delivered s f op stamp d) (hfence : (Run.start s).fenced (unitRoom (msgRoom f)) = false)
    (hslot : slotFor s (msgRoom f).val (if fill then 0x50 else 0x48 + d)) : (Run.start s).fabAnswer f op fill act =
      act (handed (Run.start s) (msgRoom f) (if fill then 0x50 else 0x48 + d) f) (msgRoom f) := by
  unfold Run.fabAnswer
  rw [show (Run.start s).inboxOf f op = some (stamp, d) from hbox]
  dsimp only
  rw [if_neg (by simp [hfence]), inSlot_of_grant _ _ hslot]
  rfl

/-- The tracker that a message's TAG and block name (log entry 13). -/
theorem find_msgTrk {m : Fin 64} {f : FMsg} {tr : Trk} (htrks : (r.c.rooms[m]).trks = [tr]) (hidx : tr.idx = msgIdx f)
    (hblk : tr.blk = lineBlk f.addr) :
    (r.room m).trks.find? (fun t => t.idx = msgIdx f && t.blk = lineBlk f.addr) = some tr := by
  rw [show (r.room m).trks = [tr] from htrks]
  exact List.find?_cons_of_pos (by simp [hidx, hblk])

/-! ## DATA (R69, R158) -/

theorem lineNo_paLine (a : PoolAddr) : lineNo (paLine a) = paLineNo a := by
  refine congrArg BitVec.toFin (BitVec.eq_of_getLsbD_eq fun i hi => ?_)
  have h40 : i < 40 := by omega
  simp [paLine, hi, h40]

/-- Without an entry in its write buffer, a Room has no write to put over an arriving line. -/
theorem fillHeld_none (m : Fin 64) (line : BitVec 40) (d : LineData) (poison leaves : Bool)
    (h : (r.c.rooms[m]).wbuf = []) : r.fillHeld m line d poison leaves = r := by
  have hmap : ∀ f : WbEnt → WbEnt, (r.modRoom m fun y => { y with wbuf := y.wbuf.map f }) = r := fun f =>
    modRoom_fix r m _ (by rw [h, List.map_nil, ← h])
  unfold Run.fillHeld Run.when Run.wbHomeward
  simp only [hmap, ite_self]

/-- A line for a tracker without a near copy to fill is not installed (R158). -/
theorem install_none (m : Fin 64) (t : Trk) (l : Fin 16) (d : LineData) (poison covered : Bool) (h : t.place = none) :
    r.install m t l d poison covered = r := by
  unfold Run.install
  rw [h, ite_self]

/-- Nothing stands between a plain read and its line where the Screen has no entry and the Room no snoop tracker. -/
theorem stillClear_plainRead {it : Item} {uid : Nat} {p : Fin 8} {k : Fin 2} (h : PlainRead it uid p k) (m : Fin 64)
    (hscn : r.scnFind m (paGran it.pa) = none) (hcohs : (r.c.rooms[m]).cohs = []) : r.stillClear m it = true := by
  have hplan : r.screenPlan m it = none := by
    unfold Run.screenPlan Run.hostSnoops
    rw [h.src, h.op, hscn]
    simp
  unfold Run.stillClear
  rw [hplan, show (r.room m).cohs = [] from hcohs]
  rfl

theorem fillWaiter_plainRead {it : Item} {uid : Nat} {p : Fin 8} {k : Fin 2} (h : PlainRead it uid p k) (m : Fin 64)
    (why : Why) (ans : Option (LineData × Bool)) (d : LineData) (poison owner rdu : Bool) (hrun : r.c.tt.run = true)
    (hclear : r.stillClear m it = true) : r.fillWaiter m ⟨it, why, ans⟩ d poison owner rdu =
      r.post (roomCal m) 0x56 (.ans it.src (.data (chunkOf d (paChunk it.pa)) poison)) (some it.src) := by
  have howns : it.owns = false := by simp [Item.owns, Item.writes, isWrite, h.op, h.meta']
  have hlisted : it.listed = false := by simp [Item.listed, h.keep]
  have hreads : it.reads = true := by simp [Item.reads, isRead, h.op]
  unfold Run.fillWaiter
  simp only [howns, hlisted, hclear, hreads, Bool.false_and, Bool.not_true, Bool.or_self, Bool.false_eq_true, if_false,
    if_true]
  exact giveData_plainRead r h hrun m d poison

/-- The tracker once its one line has come. -/
def Trk.filled (t : Trk) (l : Fin 16) : Trk := { t with pend := [], upg := clrBit16 t.upg l, rdu := clrBit16 t.rdu l }

/-- The one line of the tracker has come, and its reader has left the Room. -/
def lineCame (m : Fin 64) (tr : Trk) (l : Fin 16) : Run := emptied (setTrks r m [Trk.filled tr l]) m

theorem room_lineCame (m : Fin 64) (tr : Trk) (l : Fin 16) : (lineCame r m tr l).c.rooms[m] =
    { r.c.rooms[m] with trks := [Trk.filled tr l], waiters := [], closed := false } := by
  unfold lineCame
  rw [room_emptied, room_setTrks]

/-- And its answer is under way. -/
def lineGiven (m : Fin 64) (tr : Trk) (f : FMsg) (it : Item) (x : Tally) : Run :=
  (tallied (lineCame r m tr (lineNo f.addr)) x).post (roomCal m) 0x56
    (.ans it.src (.data (chunkOf f.line (paChunk it.pa)) f.poison)) (some it.src)

theorem dataFill_oneFill {m : Fin 64} {tr : Trk} {f : FMsg} {by' uid : Nat} {it : Item} {p : Fin 8} {k : Fin 2}
    (hfill : OneFill tr (lineNo f.addr) by') (hread : PlainRead it uid p k) (hline : paLineNo it.pa = lineNo f.addr)
    (hrun : r.c.tt.run = true) (hcohs : (r.c.rooms[m]).cohs = [])
    (hsnoops : (r.c.rooms[m]).snoopQ = []) (hscn : (r.c.rooms[m]).scnBad = []) (htrks : (r.c.rooms[m]).trks = [tr])
    (hwaiters : (r.c.rooms[m]).waiters = [⟨it, .fill tr.idx, none⟩]) (hwbuf : (r.c.rooms[m]).wbuf = [])
    (hfree : r.scnFind m (paGran it.pa) = none) :
    ∃ x : Tally, r.dataFill m tr f = setTrks (lineGiven r m tr f it x) m [] := by
  have hmod : r.modTrk m tr.idx (fun t => { t with
      pend := t.pend.eraseP fun x => x.1 = lineNo f.addr
      upg := clrBit16 t.upg (lineNo f.addr)
      rdu := clrBit16 t.rdu (lineNo f.addr)
      grant := if f.grant = grantO && t.grant = .asked then .held else t.grant }) =
      setTrks r m [Trk.filled tr (lineNo f.addr)] := by
    rw [modTrk_single r _ htrks]
    simp [Trk.filled, hfill.pend, hfill.grant]
  have hpull : (setTrks r m [Trk.filled tr (lineNo f.addr)]).pullWaiters m (fun w =>
      w.why = .fill tr.idx && paLineNo w.item.pa = lineNo f.addr) =
      (lineCame r m tr (lineNo f.addr), [⟨it, .fill tr.idx, none⟩]) := by
    rw [pullWaiters_all _ m _ (by rw [room_setTrks, hwaiters]; simp [hline]), room_setTrks, hwaiters]
    rfl
  obtain ⟨x, hpulse⟩ := pulse_counts (lineCame r m tr (lineNo f.addr)) m 0x07 1
  have hroom : (lineGiven r m tr f it x).c.rooms[m] =
      { r.c.rooms[m] with trks := [Trk.filled tr (lineNo f.addr)], waiters := [], closed := false } := room_lineCame r m tr _
  have hclear : (tallied (lineCame r m tr (lineNo f.addr)) x).stillClear m it = true :=
    stillClear_plainRead _ hread m hfree (by rw [tallied_c, room_lineCame]; exact hcohs)
  have hgive : ∀ owner rdu, (tallied (lineCame r m tr (lineNo f.addr)) x).fillWaiter m ⟨it, .fill tr.idx, none⟩ f.line f.poison
      owner rdu = lineGiven r m tr f it x := fun owner rdu =>
    fillWaiter_plainRead _ hread m _ _ _ _ _ _ hrun hclear
  have hfind : ((lineGiven r m tr f it x).room m).trks.find? (fun y => y.idx = tr.idx) =
      some (Trk.filled tr (lineNo f.addr)) := find_trk _ (t := Trk.filled tr (lineNo f.addr)) (by rw [hroom])
  have hidle : (Trk.filled tr (lineNo f.addr)).idle = true := by
    simp [Trk.idle, Trk.filled, hfill.twins, hfill.grant, hfill.upg, hfill.evicting, hfill.held, clrBit16]
  have hsettle : (lineGiven r m tr f it x).trkSettle m tr.idx = setTrks (lineGiven r m tr f it x) m [] :=
    trkSettle_idle _ m (Trk.filled tr (lineNo f.addr)) (by rw [hroom]) hidle hfill.place (by rw [hroom])
      (by rw [hroom]; exact hcohs) (by rw [hroom]; exact hsnoops) (by rw [hroom]; exact hscn)
  refine ⟨x, ?_⟩
  unfold Run.dataFill
  simp only [fillHeld_none r m _ _ _ _ hwbuf, install_none r m tr _ _ _ _ hfill.place, hmod, hpull, hpulse, Run.forEach,
    show (r.room m).wbuf = [] from hwbuf, List.find?_nil, List.foldl_cons, List.foldl_nil, hgive, hfill.grant]
  simp [hfind, Trk.filled, hfill.grant, hsettle]

/-- The tracker's line is there: its reader has been answered, and the tracker is free. -/
theorem dataIn_oneFill {m : Fin 64} {tr : Trk} {f : FMsg} {by' uid : Nat} {it : Item} {p : Fin 8} {k : Fin 2}
    (hfill : OneFill tr (lineNo f.addr) by') (hread : PlainRead it uid p k) (hline : paLineNo it.pa = lineNo f.addr)
    (hrun : r.c.tt.run = true) (hcohs : (r.c.rooms[m]).cohs = [])
    (hsnoops : (r.c.rooms[m]).snoopQ = []) (hscn : (r.c.rooms[m]).scnBad = []) (htrks : (r.c.rooms[m]).trks = [tr])
    (hwaiters : (r.c.rooms[m]).waiters = [⟨it, .fill tr.idx, none⟩]) (hwbuf : (r.c.rooms[m]).wbuf = [])
    (hfree : r.scnFind m (paGran it.pa) = none) (hidx : tr.idx = msgIdx f) (hblk : tr.blk = lineBlk f.addr) :
    ∃ x : Tally, r.dataIn m f = setTrks (lineGiven r m tr f it x) m [] := by
  obtain ⟨x, hdata⟩ := dataFill_oneFill r hfill hread hline hrun hcohs hsnoops hscn htrks hwaiters hwbuf hfree
  have hroom : (setTrks (lineGiven r m tr f it x) m []).c.rooms[m] =
      { r.c.rooms[m] with trks := [], waiters := [], closed := false } := by
    rw [room_setTrks]
    exact congrArg (fun y : Room => { y with trks := [] }) (room_lineCame r m tr _)
  refine ⟨x, ?_⟩
  unfold Run.dataIn
  rw [find_msgTrk r htrks hidx hblk]
  dsimp only
  rw [if_pos (by simp [hfill.pend]), hdata]
  exact cohPoll_quiet _ m (by rw [hroom]; exact hcohs) (by rw [hroom]; exact hsnoops) (by rw [hroom]; exact hscn)
    (by rw [hroom])

theorem dataAnswersTheWaitingRead : DataAnswersTheWaitingRead := by
  intro s f stamp d tr by' it uid p k r m hbox hidx hquiet hslot htrks htr hblk hpend htwins hplace hgrant hupg hevict hheld
    hwaiters hwbuf hfree hsrc hop hmeta hline
  have hfill : OneFill tr (lineNo f.addr) by' := ⟨hpend, htwins, hplace, hgrant, hupg, hevict, hheld⟩
  have hrun : s.c.tt.run = true := by
    simp only [slotFor, Run.canGrant, Run.unused, Bool.and_eq_true] at hslot
    exact hslot.1.1
  obtain ⟨hfence, hcohs, hsnoops, hscn⟩ := hquiet
  obtain ⟨x, hdata⟩ := dataIn_oneFill (handed r m 0x50 f) hfill ⟨hsrc, hop, hmeta⟩ ((lineNo_paLine it.pa).symm.trans (congrArg lineNo hline)) hrun hcohs hsnoops hscn
    htrks hwaiters hwbuf hfree htr hblk
  have hdone : r.dataMsg f = setTrks (lineGiven (handed r m 0x50 f) m tr f it x) m [] := by
    unfold Run.dataMsg
    rw [if_neg hidx, fabAnswer_inSlot true _ hbox hfence hslot]
    exact hdata
  refine ⟨_, congrArg (fun r => Host.Outcome.next (Run.finish s r)) hdone, ?_, ?_, ⟨?_, ?_⟩, ?_, fun n hn => ?_, ?_, ?_,
    keepsCells_of_log _ _ (by simpa [lineGiven, lineCame, r] using x.cellFree)⟩
  case refine_6 =>
    have hne : m.val ≠ n.val := fun e => hn (Fin.ext e.symm)
    simp [lineGiven, lineCame, r, hne]
  all_goals simp [lineGiven, lineCame, r, roomCal, unboxed]

/-! ## ACK_O (R156) -/

/-- A tracker whose ownership has come, and that nobody waits on, is free. -/
theorem ackOIn_asked {m : Fin 64} {f : FMsg} {tr : Trk} (hcohs : (r.c.rooms[m]).cohs = [])
    (hsnoops : (r.c.rooms[m]).snoopQ = []) (hscn : (r.c.rooms[m]).scnBad = []) (htrks : (r.c.rooms[m]).trks = [tr])
    (hwaiters : (r.c.rooms[m]).waiters = []) (hidx : tr.idx = msgIdx f) (hblk : tr.blk = lineBlk f.addr)
    (htwins : tr.twins = []) (hgrant : tr.grant = .asked) (hpend : tr.pend = []) (hplace : tr.place = none)
    (hevict : tr.evicting = false) (hheld : tr.held = []) :
    ∃ x : Tally, r.ackOIn m f = setTrks (setTrks (emptied (tallied (setTrks r m [{ tr with upg := 0, grant := .held }]) x) m) m
      [{ tr with upg := 0, grant := .none }]) m [] := by
  obtain ⟨x, hpulse⟩ := pulse_counts (setTrks r m [{ tr with upg := 0, grant := .held }]) m 0x07 1
  refine ⟨x, ?_⟩
  generalize hr₁ : tallied (setTrks r m [{ tr with upg := 0, grant := .held }]) x = r₁ at *
  have hroom₁ : r₁.c.rooms[m] = { r.c.rooms[m] with trks := [{ tr with upg := 0, grant := .held }] } := by
    subst hr₁
    exact room_setTrks r m _
  have hpull : r₁.pullWaiters m (fun w => w.why = .grant tr.idx) = (emptied r₁ m, []) := by
    rw [pullWaiters_all r₁ m _ (by rw [hroom₁, hwaiters]; simp), hroom₁, hwaiters]
  have hmod : (emptied r₁ m).modTrk m tr.idx (fun t => if t.grant = .held then { t with grant := .none } else t) =
      setTrks (emptied r₁ m) m [{ tr with upg := 0, grant := .none }] :=
    modTrk_single _ (t := { tr with upg := 0, grant := .held }) _ (by rw [room_emptied, hroom₁])
  have hroom : ∀ ts, (setTrks (emptied r₁ m) m ts).c.rooms[m] =
      { r.c.rooms[m] with trks := ts, waiters := [], closed := false } := fun ts => by
    rw [room_setTrks, room_emptied, hroom₁]
  have hidle : ({ tr with upg := 0, grant := .none } : Trk).idle = true := by
    simp [Trk.idle, htwins, hpend, hevict, hheld]
  have hsettle : (setTrks (emptied r₁ m) m [{ tr with upg := 0, grant := .none }]).trkSettle m tr.idx =
      setTrks (setTrks (emptied r₁ m) m [{ tr with upg := 0, grant := .none }]) m [] :=
    trkSettle_idle _ m { tr with upg := 0, grant := .none } (by rw [hroom]) hidle hplace (by rw [hroom])
      (by rw [hroom]; exact hcohs) (by rw [hroom]; exact hsnoops) (by rw [hroom]; exact hscn)
  have hgrants : r₁.runGrant m tr.idx = setTrks (setTrks (emptied r₁ m) m [{ tr with upg := 0, grant := .none }]) m [] := by
    unfold Run.runGrant
    simp only [hpull, Run.forEach, List.foldl_nil, hmod, hsettle]
  unfold Run.ackOIn
  rw [find_msgTrk r htrks hidx hblk]
  dsimp only
  rw [if_pos hgrant, modTrk_single r _ htrks, hpulse, hgrants]
  exact cohPoll_quiet _ m (by rw [room_setTrks, hroom]; exact hcohs) (by rw [room_setTrks, hroom]; exact hsnoops)
    (by rw [room_setTrks, hroom]; exact hscn) (by rw [room_setTrks])

/-- A calendar grants only while the Timetable runs. -/
theorem run_of_slotFor {s : State} {k code : Nat} (h : slotFor s k code) : s.c.tt.run = true := by
  simp only [slotFor, Run.canGrant, Run.unused, Bool.and_eq_true] at h
  exact h.1.1

theorem ownershipAckEndsItsTracker : OwnershipAckEndsItsTracker := by
  intro s f stamp d tr m hbox hquiet hslot htrks hidx hblk htwins hgrant hpend hplace hevict hheld hwaiters
  obtain ⟨hfence, hcohs, hsnoops, hscn⟩ := hquiet
  obtain ⟨x, hack⟩ := ackOIn_asked (handed (Run.start s) m (0x48 + d) f) hcohs hsnoops hscn htrks hwaiters hidx hblk htwins
    hgrant hpend hplace hevict hheld
  have hdone := (fabAnswer_inSlot false (fun r m => r.ackOIn m f) hbox hfence hslot).trans hack
  refine ⟨_, congrArg (fun r => Host.Outcome.next (Run.finish s r)) hdone, ?_, ?_, fun n hn => ?_, ⟨?_, ?_, ?_⟩, ?_, ?_,
    keepsCells_of_log _ _ (by simpa using x.cellFree)⟩
  case refine_3 =>
    have hne : m.val ≠ n.val := fun e => hn (Fin.ext e.symm)
    simp [hne]
  all_goals simp [unboxed]

/-! ## WR_ACK (R105) -/

/-- The Room with these write buffer entries. -/
def setWbuf (m : Fin 64) (es : List WbEnt) : Run := r.modRoom m fun y => { y with wbuf := es }

@[simp] theorem setWbuf_c (m : Fin 64) (es : List WbEnt) :
    (setWbuf r m es).c = { r.c with rooms := r.c.rooms.set m.val { r.c.rooms[m] with wbuf := es } m.isLt } := rfl

theorem room_setWbuf (m : Fin 64) (es : List WbEnt) : (setWbuf r m es).c.rooms[m] = { r.c.rooms[m] with wbuf := es } :=
  room_modRoom_self r m _

theorem modWb_single {m : Fin 64} {e : WbEnt} (f : WbEnt → WbEnt) (h : (r.c.rooms[m]).wbuf = [e]) :
    r.modWb m e.seq f = setWbuf r m [f e] := by
  refine modRoom_congr r m ?_
  rw [h, List.map_singleton, if_pos rfl]

theorem view_ite {β : Type} (f : Run → β) {p : Prop} [Decidable p] {a b : Run} {x : β} (ha : f a = x) (hb : f b = x) :
    f (if p then a else b) = x := by
  split
  · exact ha
  · exact hb

/-- The end of jobs of all Rooms shows in the jobs' own state, the Fuse box and the Timetable's requests only. -/
theorem scene_jobsCheck : scene r.jobsCheck = scene r := by
  have hrequest : ∀ (r : Run) t, scene (r.ttRequest t) = scene r := fun r t => by
    unfold Run.ttRequest
    split <;> rfl
  have hreturn : ∀ r : Run, scene r.returnCheck = scene r := fun r => by
    unfold Run.returnCheck
    extract_lets moved
    have hmoved : scene moved = scene r := view_ite scene rfl rfl
    split
    · exact (hrequest moved _).trans hmoved
    · exact hmoved
  unfold Run.jobsCheck
  extract_lets c₁ drained c₂ swept c₃ x₃ flushed joined
  have hdrained : scene drained = scene r := view_ite scene rfl rfl
  have hswept : scene swept = scene drained := view_ite scene rfl rfl
  have hflushed : scene flushed = scene swept := view_ite scene rfl rfl
  have hjoined : scene joined = scene flushed := view_ite scene rfl rfl
  rw [hreturn, hjoined, hflushed, hswept, hdrained]

/-- Without a barrier at a Porch, none is met. -/
theorem barsCheck_none (h : ∀ q : Fin 8, (r.c.porches[q]).bars = []) : r.barsCheck = r := by
  have hnone : (allPorches.filter fun p => (r.porch p).bars.any fun b => b.kind = .sync) = [] :=
    List.filter_eq_nil_iff.mpr fun q _ => by
      rw [show (r.porch q).bars = [] from h q]
      simp
  unfold Run.barsCheck
  rw [hnone]
  rfl

/-- The entry, when its home has acknowledged it. -/
def WbEnt.acked (w : WbEnt) : WbEnt := { w with needAck := false }

/-- The entry once its writer has been told. -/
def WbEnt.told (w : WbEnt) : WbEnt := { w with needAck := false, srcs := [] }

/-- The acknowledged entry's writer has its completion under way. -/
def ackTold (m : Fin 64) (w : WbEnt) (src : Src) : Run :=
  (setWbuf (setWbuf r m [WbEnt.acked w]) m [WbEnt.told w]).post (roomCal m) 0x56 (.ans src .done) none

/-- The entry is done, and free. -/
def ackFreed (m : Fin 64) (w : WbEnt) (src : Src) : Run := (ackTold r m w src).wbSweep m

theorem room_ackFreed (m : Fin 64) (w : WbEnt) (src : Src) (hdone : (WbEnt.told w).done = true) :
    ∃ n, (ackFreed r m w src).c.rooms[m] = { r.c.rooms[m] with wbuf := [], wbFreed := n } := by
  have htold : (ackTold r m w src).c.rooms[m] = { r.c.rooms[m] with wbuf := [WbEnt.told w] } := by
    unfold ackTold
    rw [post_c, room_setWbuf, room_setWbuf]
  unfold ackFreed Run.wbSweep Run.wbFree
  rw [room_modRoom_self, htold]
  simp only [List.filter_cons, hdone, Bool.not_true, Bool.false_eq_true, if_false, List.filter_nil]
  exact ⟨_, rfl⟩

theorem wbAcked_forward {m : Fin 64} {w : WbEnt} {uid : Nat} {p : Fin 8} {k : Fin 2} (hrun : r.c.tt.run = true)
    (hcohs : (r.c.rooms[m]).cohs = []) (hsnoops : (r.c.rooms[m]).snoopQ = []) (hscn : (r.c.rooms[m]).scnBad = [])
    (hwbuf : (r.c.rooms[m]).wbuf = [w]) (hst : w.st = .issued) (hcel : w.needCel = false) (htwin : w.needTwin = false)
    (hlater : w.twinLater = false) (hsrcs : w.srcs = [.host uid p k]) (hbars : ∀ q : Fin 8, (r.c.porches[q]).bars = []) :
    r.wbAcked m w false false = ((ackFreed r m w (.host uid p k)).trkSweep m).jobsCheck := by
  have hmod : r.modWb m w.seq (fun e => { e with needAck := false }) = setWbuf r m [WbEnt.acked w] := modWb_single r _ hwbuf
  have htell : (setWbuf r m [WbEnt.acked w]).modWb m w.seq (fun e => { e with srcs := [] }) =
      setWbuf (setWbuf r m [WbEnt.acked w]) m [WbEnt.told w] :=
    modWb_single _ (e := WbEnt.acked w) _ (by rw [room_setWbuf])
  have hanswer : (setWbuf (setWbuf r m [WbEnt.acked w]) m [WbEnt.told w]).tellDone m (.host uid p k) w.tin =
      ackTold r m w (.host uid p k) := 
    tellDone_host (setWbuf (setWbuf r m [WbEnt.acked w]) m [WbEnt.told w]) hrun m uid p k w.tin
  obtain ⟨n, hroom⟩ := room_ackFreed r m w (.host uid p k) (by simp [WbEnt.done, WbEnt.told, hst, hcel, htwin, hlater])
  have hkick : (ackFreed r m w (.host uid p k)).twinKick m w.line = ackFreed r m w (.host uid p k) :=
    twinKick_none _ m _ (by rw [hroom]; simp)
  have hpoll : (ackFreed r m w (.host uid p k)).cohPoll m = (ackFreed r m w (.host uid p k)).trkSweep m :=
    cohPoll_waiting _ m (by rw [hroom]; exact hsnoops) (by rw [hroom]; exact hscn) (by rw [hroom, hcohs]; simp)
  have hends : (((ackFreed r m w (.host uid p k)).trkSweep m).jobsCheck).barsCheck =
      ((ackFreed r m w (.host uid p k)).trkSweep m).jobsCheck := by
    refine barsCheck_none _ fun q => ?_
    have hporches : (((ackFreed r m w (.host uid p k)).trkSweep m).jobsCheck).c.porches =
      ((ackFreed r m w (.host uid p k)).trkSweep m).c.porches := congrArg Scene.porches (scene_jobsCheck _)
    rw [hporches]
    simpa [ackFreed, ackTold, Run.wbSweep, Run.wbFree, Run.trkSweep] using hbars q
  unfold Run.wbAcked
  simp only [Bool.false_eq_true, if_false, Run.when, Bool.false_and, hmod, htwin, hlater, Bool.not_false, Bool.and_self, if_true,
    htell, hsrcs, Run.forEach, List.foldl_cons, List.foldl_nil, hanswer]
  show (((ackFreed r m w _).twinKick m w.line).cohPoll m).jobsCheck.barsCheck = _
  rw [hkick, hpoll, hends]

theorem wrAckIn_forward {m : Fin 64} {f : FMsg} {w : WbEnt} (hwbuf : (r.c.rooms[m]).wbuf = [w]) (hidx : msgIdx f = 320 + w.idx)
    (hlt : w.idx < 64) (hline : w.line = f.addr) (htwin : w.needTwin = false) (hack : w.needAck = true) (hgrant : f.grant = 0) :
    r.wrAckIn m f = r.wbAcked m w false false := by
  have hfind : (r.room m).wbuf.find? (fun e => e.idx = msgIdx f - 320 && e.line = f.addr) = some w := by
    rw [show (r.room m).wbuf = [w] from hwbuf]
    exact List.find?_cons_of_pos (by simp [hidx, hline])
  unfold Run.wrAckIn
  dsimp only
  rw [if_pos (by simp; omega), hfind]
  dsimp only
  rw [if_neg (by simp [htwin]), if_pos hack]
  simp [hgrant]

theorem writeAckFreesTheForward : WriteAckFreesTheForward := by
  intro s f stamp d w uid p k m hbox hquiet hslot hwbuf _ hidx hlt hline hst hcel hack htwin hlater hsrcs hgrant _ _ hbars
  obtain ⟨hfence, hcohs, hsnoops, hscn⟩ := hquiet
  have hdone := calc (Run.start s).fabAnswer f Op.wrAck false (fun r m => r.wrAckIn m f)
      _ = (handed (Run.start s) m (0x48 + d) f).wrAckIn m f := fabAnswer_inSlot false _ hbox hfence hslot
      _ = (handed (Run.start s) m (0x48 + d) f).wbAcked m w false false :=
        wrAckIn_forward _ hwbuf hidx hlt hline htwin hack hgrant
      _ = _ := wbAcked_forward (handed (Run.start s) m (0x48 + d) f) (run_of_slotFor hslot) hcohs hsnoops hscn hwbuf hst hcel
        htwin hlater hsrcs hbars
  obtain ⟨n, hroom⟩ := room_ackFreed (handed (Run.start s) m (0x48 + d) f) m w (.host uid p k)
    (by simp [WbEnt.done, WbEnt.told, hst, hcel, htwin, hlater])
  have hscene := scene_jobsCheck ((ackFreed (handed (Run.start s) m (0x48 + d) f) m w (.host uid p k)).trkSweep m)
  rw [← hdone] at hscene
  have hnext : exec (.wrAck f) s =
    .next (Run.finish s ((Run.start s).fabAnswer f Op.wrAck false fun r m => r.wrAckIn m f)) := rfl
  generalize (Run.start s).fabAnswer f Op.wrAck false (fun r m => r.wrAckIn m f) = done at hscene hnext
  generalize hfreed : ackFreed (handed (Run.start s) m (0x48 + d) f) m w (.host uid p k) = freed at *
  have hrooms : done.c.rooms = (freed.trkSweep m).c.rooms := congrArg Scene.rooms hscene
  have hwait : done.c.wait = freed.c.wait := congrArg Scene.wait hscene
  have hfly : done.c.fly = freed.c.fly := congrArg Scene.fly hscene
  have hfab : done.c.fab = freed.c.fab := congrArg Scene.fab hscene
  have hporches : done.c.porches = freed.c.porches := congrArg Scene.porches hscene
  have hchans : done.c.chans = freed.c.chans := congrArg Scene.chans hscene
  have hcells : (scene done).cells = [] := (congrArg Scene.cells hscene).trans (by subst hfreed; rfl)
  refine ⟨_, hnext, ?_, ⟨?_, ?_⟩, ?_, fun n hn => ?_, ?_, ?_, keepsCells_of_scene done s hcells⟩
  · rw [finish_c, hrooms, Run.trkSweep, room_modRoom_self, hroom]
  case refine_5 =>
    rw [finish_c, hrooms, Run.trkSweep, room_modRoom_ne _ _ hn]
    have hne : m.val ≠ n.val := fun e => hn (Fin.ext e.symm)
    simp [← hfreed, ackFreed, ackTold, Run.wbSweep, Run.wbFree, hne]
  all_goals simp [unboxed, hwait, hfly, hfab, hporches, hchans, ← hfreed, ackFreed, ackTold, Run.wbSweep, Run.wbFree, roomCal]

/-- Settles O13: DATA answers its reader, ACK_O ends the wait for ownership, and WR_ACK frees the forward and tells its writer.
A message finds its tracker or entry by its TAG (log entry 13). -/
theorem answersEndTheirTrackers : Obligations.AnswersEndTheirTrackers :=
  ⟨dataAnswersTheWaitingRead, ownershipAckEndsItsTracker, writeAckFreesTheForward⟩

end Sys2Proof.Laws
end

section
/-! SUPPORT. What counting, reporting and metering leave alone, in a Room and in the tables of lines and tags. -/
namespace Sys2Proof.Laws
open Sys2Proof Sys2Proof.Machine Sys2Proof.Safety

/-! ## The tables that hold cells -/

theorem apply_cells_congr {m m' : Stores} (h : cellTables m = cellTables m') (o : StoreOp) :
    cellTables (m.apply o) = cellTables (m'.apply o) := by
  simp only [cellTables, Prod.mk.injEq] at h ⊢
  obtain ⟨⟨hdram, hremap⟩, ⟨htags, hplru, hpan⟩, ⟨hscn, hdir⟩, hkeys, hframes⟩ := h
  cases o with
  | drop t lo hi => cases t <;> simp_all [Stores.apply]
  | _ => simp_all [Stores.apply]

theorem applyAll_cells_congr {m m' : Stores} (h : cellTables m = cellTables m') (os : List StoreOp) :
    cellTables (m.applyAll os) = cellTables (m'.applyAll os) := by
  induction os generalizing m m' with
  | nil => exact h
  | cons o os ih => exact ih (apply_cells_congr h o)

/-- The tables of cells depend on the operations that touch cells only. -/
theorem applyAll_filter_cells (m : Stores) (os : List StoreOp) :
    cellTables (m.applyAll os) = cellTables (m.applyAll (os.filter fun o => !(cellFree o))) := by
  induction os generalizing m with
  | nil => rfl
  | cons o os ih =>
    cases hfree : cellFree o with
    | true =>
      rw [List.filter_cons_of_neg (by simp [hfree])]
      exact (applyAll_cells_congr (apply_cells m o hfree) os).trans (ih m)
    | false =>
      rw [List.filter_cons_of_pos (by simp [hfree])]
      exact ih (m.apply o)

/-- What a command leaves of the tables of cells, by the operations that touched them. -/
theorem finish_cells (s : State) (r : Run) {os : List StoreOp} (h : (r.log.filter fun o => !(cellFree o)) = os) :
    cellTables (Run.finish s r).m = cellTables (s.m.applyAll os.reverse) := by
  rw [finish_m, applyAll_filter_cells, List.filter_reverse, h]

/-! ## Counts, events and meters -/

/-- Only counts, meters and events have changed, and what a tenant that goes over its quota sets off in the Rooms: their trim
(R356). -/
structure Minor (r r' : Run) : Prop where
  rooms : ∀ n : Fin 64, ∃ w c, r'.c.rooms[n] = { r.c.rooms[n] with trimWork := w, trimClean := c }
  chans : r'.c.chans = r.c.chans
  events : ∃ es, r'.c.fbx = { r.c.fbx with reported := r.c.fbx.reported ++ es }
  cells : (r'.log.filter fun o => !(cellFree o)) = r.log.filter fun o => !(cellFree o)

variable {r : Run}

theorem Minor.refl (r : Run) : Minor r r := ⟨fun _ => ⟨_, _, rfl⟩, rfl, ⟨[], by simp⟩, rfl⟩

theorem Minor.trans {r' r'' : Run} (h : Minor r r') (h' : Minor r' r'') : Minor r r'' := by
  obtain ⟨es, hes⟩ := h.events
  obtain ⟨es', hes'⟩ := h'.events
  refine ⟨fun n => ?_, h'.chans.trans h.chans, ⟨es ++ es', by rw [hes', hes]; simp⟩, h'.cells.trans h.cells⟩
  obtain ⟨w, c, hroom⟩ := h.rooms n
  obtain ⟨w', c', hroom'⟩ := h'.rooms n
  exact ⟨w', c', by rw [hroom', hroom]⟩

theorem Minor.forEach {α : Type} (f : α → Run → Run) (h : ∀ x r, Minor r (f x r)) (xs : List α) : Minor r (r.forEach xs f) := by
  induction xs generalizing r with
  | nil => exact .refl r
  | cons x xs ih => exact (h x r).trans (ih (r := f x r))

theorem Minor.when (b : Bool) (f : Run → Run) (h : ∀ r, Minor r (f r)) : Minor r (r.when b f) := by
  cases b
  · exact .refl r
  · exact h r

theorem Minor.ite {p : Prop} [Decidable p] {a b : Run} (ha : Minor r a) (hb : Minor r b) : Minor r (if p then a else b) := by
  split
  · exact ha
  · exact hb

theorem minor_st (r : Run) {o : StoreOp} (h : cellFree o = true) : Minor r (r.st o) :=
  ⟨fun _ => ⟨_, _, rfl⟩, rfl, ⟨[], by simp⟩, by simp [Run.st, h]⟩

theorem minor_setReg (r : Run) (a v : Nat) : Minor r (r.setReg a v) := minor_st r rfl

theorem minor_report (r : Run) (e : Event) : Minor r (r.report e) := by
  rcases report_cases r e with h | h <;> rw [h]
  · exact minor_setReg r _ _
  · exact ⟨fun _ => ⟨_, _, rfl⟩, rfl, ⟨_, rfl⟩, rfl⟩

theorem minor_of_counts {r' : Run} (h : Counts r r') : Minor r r' := by
  obtain ⟨x, rfl⟩ := h
  have hnone : (x.ops.filter fun o => !(cellFree o)) = [] := List.filter_eq_nil_iff.mpr fun o ho => by simp [x.cellFree o ho]
  exact ⟨fun _ => ⟨_, _, rfl⟩, rfl, ⟨[], by simp⟩, by simp [hnone]⟩

theorem minor_modMtr (r : Run) (f) : Minor r (r.modMtr f) := ⟨fun _ => ⟨_, _, rfl⟩, rfl, ⟨[], by simp⟩, rfl⟩

theorem minor_meterAdd (r : Run) (bank : Bool) (t : Nat) (k : Meter) (n : Nat) : Minor r (r.meterAdd bank t k n) := by
  unfold Run.meterAdd
  exact .ite (.refl r) (minor_st r rfl)

theorem minor_charge (r : Run) (t : BitVec 12) (k : Meter) (n : Nat) (stamp : Stamp) : Minor r (r.charge t k n stamp) := by
  unfold Run.charge
  dsimp only
  exact (minor_meterAdd r _ _ _ _).trans (.when _ _ fun r => minor_modMtr r _)

theorem minor_accrue (r : Run) (t : Nat) (ft : Stamp) : Minor r (r.accrue t ft) := by
  unfold Run.accrue
  dsimp only
  exact (minor_meterAdd r _ _ _ _).trans ((minor_charge _ _ _ _ _).trans (minor_st _ rfl))

theorem minor_trimWake (r : Run) : Minor r r.trimWake := by
  have hwake : ∀ (m : Fin 64) (r : Run), Minor r (r.modRoom m fun y => { y with trimWork := true, trimClean := 0 }) := by
    intro m r
    refine ⟨fun n => ?_, rfl, ⟨[], by simp⟩, rfl⟩
    by_cases h : n = m
    · subst h
      exact ⟨true, 0, room_modRoom_self r n _⟩
    · exact ⟨_, _, room_modRoom_ne r _ h⟩
  exact Minor.forEach _ hwake allRooms

theorem minor_setOcc (r : Run) (t : BitVec 12) (n : Nat) : Minor r (r.setOcc t n) := by
  unfold Run.setOcc
  dsimp only
  exact (minor_accrue r _ _).trans ((minor_st _ rfl).trans (.when _ _ minor_trimWake))

/-- A tag entry is written, with the occupancy of its tenants (R353). -/
theorem setTag_minor (r : Run) (m : Fin 64) (set way : Nat) (e : TagEnt) :
    ∃ r', Minor r r' ∧ r.setTag m set way e = r'.st (.tag (tagKey m set way) e) := by
  unfold Run.setTag
  exact ⟨_, Minor.trans (Minor.ite (minor_setOcc r _ _) (.refl r)) (.ite (minor_setOcc _ _ _) (.refl _)), rfl⟩

theorem minor_countUe (r : Run) (c : Fin 16) (rank : Nat) (lc : BitVec 2) (cause : Nat) (e : ErrPat) (addr : Option PoolAddr) :
    Minor r (r.countUe c rank lc cause e addr) := by
  unfold Run.countUe
  dsimp only
  exact (minor_setReg r _ _).trans ((Minor.when _ _ fun r => minor_setReg r _ _).trans (.when _ _ fun r => minor_report r _))

theorem minor_countCorrected (r : Run) (c : Fin 16) (rank : Nat) (lc : BitVec 2) (e : ErrPat) (count : Bool) :
    Minor r (r.countCorrected c rank lc e count) := by
  unfold Run.countCorrected
  dsimp only
  exact (Minor.when _ _ fun r => minor_setReg r _ _).trans <| .forEach _ (fun _ r =>
    .ite ((minor_setReg r _ _).trans (minor_report _ _)) (.refl r)) _

theorem minor_countRead (r : Run) (c : Fin 16) (rank : Nat) (x : Line) (e : ErrPat) (addr : Option PoolAddr) :
    Minor r (r.countRead c rank x e addr) := by
  unfold Run.countRead
  exact .ite (minor_countUe r _ _ _ _ _ _) (.ite (.refl r) (minor_countCorrected r _ _ _ _ _))

end Sys2Proof.Laws
end

section
/-! SUPPORT. The obligation about victims' lines that come back and tags that are rebuilt (R66, R93). -/
namespace Sys2Proof.Laws
open Sys2Proof Sys2Proof.Machine Sys2Proof.Safety Sys2Proof.Claim

/-! ## A victim's line comes back (R66) -/

/-- Where no tracker waits for the victim's way, the end of its reads at most clears its tag entry. -/
theorem evictEnd_noTrk (r : Run) (m : Fin 64) (set way : Nat) (h : (r.c.rooms[m]).trks = []) :
    r.evictEnd m set way = r ∨ r.evictEnd m set way = r.setTag m set way {} := by
  unfold Run.evictEnd
  dsimp only
  split
  · exact .inl rfl
  · rw [show (r.room m).trks = [] from h]
    exact .inr rfl

/-- The store operation, if any, by which the victim's tag entry is cleared. -/
def clears (m : Fin 64) (set way : Nat) (os : List StoreOp) : Prop := os = [] ∨ os = [.tag (tagKey m set way) {}]

theorem evictEnd_cells (r : Run) (m : Fin 64) (set way : Nat) (h : (r.c.rooms[m]).trks = [])
    (hlog : (r.log.filter fun o => !(cellFree o)) = []) :
    (∃ w c, (r.evictEnd m set way).c.rooms[m] = { r.c.rooms[m] with trimWork := w, trimClean := c }) ∧
      (r.evictEnd m set way).c.chans = r.c.chans ∧
      clears m set way ((r.evictEnd m set way).log.filter fun o => !(cellFree o)) := by
  rcases evictEnd_noTrk r m set way h with hend | hend <;> rw [hend]
  · exact ⟨⟨_, _, rfl⟩, rfl, .inl hlog⟩
  · obtain ⟨r', hminor, htag⟩ := setTag_minor r m set way {}
    rw [htag]
    refine ⟨hminor.rooms m, hminor.chans, .inr ?_⟩
    have hcells := hminor.cells.trans hlog
    show (StoreOp.tag _ _ :: r'.log).filter _ = _
    rw [List.filter_cons_of_pos (by simp [cellFree]), hcells]

/-- The entry once its line has come: newer bytes over the line. -/
def MudEnt.ready (e : MudEnt) (d : LineData) (p : Bool) (cc : Nat) : MudEnt :=
  { e with data := mergeLine d e.data e.wmask, poison := e.poison || (p && e.wmask ≠ fullMask), st := .ready, readyCc := cc }

/-- The returned line has been merged into its entry. -/
def mudMerged (r : Run) (m : Fin 64) (e : MudEnt) (d : LineData) (p : Bool) : Run :=
  r.modMud m e.seq fun e => MudEnt.ready e d p r.c.cc

theorem mudFill_ready {r : Run} {m : Fin 64} {i : Nat} {d : LineData} {p : Bool} {e : MudEnt}
    (hfind : (r.c.rooms[m]).mud.find? (fun e => e.idx = i && e.st = .loading) = some e) (htrks : (r.c.rooms[m]).trks = [])
    (hcohs : (r.c.rooms[m]).cohs = []) (hsnoops : (r.c.rooms[m]).snoopQ = []) (hscn : (r.c.rooms[m]).scnBad = [])
    (hlog : (r.log.filter fun o => !(cellFree o)) = []) :
    (∃ w c, (r.mudFill m i d p).c.rooms[m] = { r.c.rooms[m] with
      mud := (r.c.rooms[m]).mud.map fun x => if x.seq = e.seq then MudEnt.ready x d p r.c.cc else x
      trimWork := w
      trimClean := c }) ∧
      (r.mudFill m i d p).c.chans = r.c.chans ∧
      clears m e.set e.way ((r.mudFill m i d p).log.filter fun o => !(cellFree o)) := by
  have hroom : (mudMerged r m e d p).c.rooms[m] = { r.c.rooms[m] with
      mud := (r.c.rooms[m]).mud.map fun x => if x.seq = e.seq then MudEnt.ready x d p r.c.cc else x } :=
    room_modRoom_self r m _
  obtain ⟨⟨w, c, hended⟩, hchans, hclears⟩ := evictEnd_cells (mudMerged r m e d p) m e.set e.way (by rw [hroom]; exact htrks) hlog
  have hmerged := hended.trans (by rw [hroom])
  have hfill : r.mudFill m i d p = (mudMerged r m e d p).evictEnd m e.set e.way := by
    unfold Run.mudFill
    rw [show (r.room m).mud.find? (fun e => e.idx = i && e.st = .loading) = some e from hfind]
    show ((mudMerged r m e d p).evictEnd m e.set e.way).cohPoll m = _
    exact cohPoll_quiet _ m (by rw [hmerged]; exact hcohs) (by rw [hmerged]; exact hsnoops) (by rw [hmerged]; exact hscn)
      (by rw [hmerged]; exact htrks)
  rw [hfill]
  exact ⟨⟨w, c, hmerged⟩, hchans, hclears⟩

theorem victimLineBecomesReady : VictimLineBecomesReady := by
  intro s m i d p rest e hreturns hquiet hslot hfind htrks
  obtain ⟨hfence, hcohs, hsnoops, hscn⟩ := hquiet
  generalize hr₀ : ((Run.start s).grant m.val 0x53).modRoom m (fun y => { y with returns := rest }) = r₀
  have hroom₀ : r₀.c.rooms[m] = { s.c.rooms[m] with returns := rest } := by
    subst hr₀
    exact room_modRoom_self _ m _
  obtain ⟨x, hpulse⟩ := pulse_counts r₀ m 0x01 1
  have hroom : (tallied r₀ x).c.rooms[m] = { s.c.rooms[m] with returns := rest } := hroom₀
  have hlog : ((tallied r₀ x).log.filter fun o => !(cellFree o)) = [] := by
    subst hr₀
    exact List.filter_eq_nil_iff.mpr fun o ho => by simp_all [x.cellFree o (by simpa using ho)]
  obtain ⟨⟨w, c, hmud⟩, hchans, hclears⟩ := mudFill_ready (i := i) (d := d) (p := p) (e := e) (by rw [hroom]; exact hfind)
    (by rw [hroom]; exact htrks) (by rw [hroom]; exact hcohs) (by rw [hroom]; exact hsnoops) (by rw [hroom]; exact hscn) hlog
  have hdone : (Run.start s).nearReturn m = (tallied r₀ x).mudFill m i d p := by
    unfold Run.nearReturn
    rw [show ((Run.start s).room m).returns = .mud i d p :: rest from hreturns]
    dsimp only
    rw [if_neg (by simp [hfence]), inSlot_of_grant _ _ hslot, hr₀, hpulse]
  have hmem : e ∈ (s.c.rooms[m]).mud := List.mem_of_find?_eq_some hfind
  have hcells := finish_cells s _ (os := ((tallied r₀ x).mudFill m i d p).log.filter fun o => !(cellFree o)) rfl
  refine ⟨_, MudEnt.ready e d p (tallied r₀ x).c.cc, congrArg (fun r => Host.Outcome.next (Run.finish s r)) hdone, ?_, ?_, rfl,
    rfl, rfl, rfl, ?_, ?_⟩
  · rw [finish_c, hmud, hroom]
  · rw [finish_c, hmud, hroom]
    exact List.mem_map.mpr ⟨e, hmem, if_pos rfl⟩
  · have hdram := congrArg (fun x => x.1.1) hcells
    refine hdram.trans ?_
    rcases hclears with h | h <;> rw [h] <;> rfl
  · rw [finish_c, hchans]
    subst hr₀
    rfl

/-! ## A tag entry is rebuilt (R93) -/

/-- Without a shadow that names it, the rebuilt entry is Invalid. -/
theorem tagRebuild_unnamed {r : Run} {m : Fin 64} {x : TagRebuild} {rest : List TagRebuild} {errs : Vector ErrPat 16}
    (hrebuilds : (r.c.rooms[m]).rebuilds = x :: rest) (hfence : r.fenced (unitRoom m) = false)
    (hbusy : r.wayBusy m x.set x.way = false)
    (hnone : ∀ l : Fin 16, (r.shadowAt m x.set x.way l errs[l]).all (fun y => decide (y.1.state ≠ 2)) = true) :
    r.tagRebuild m errs = (((r.forEach allLines fun l r => r.shadowCount m x.set x.way l errs[l]).modRoom m fun y =>
      { y with rebuilds := rest }).setTag m x.set x.way {}).rmEvent m Code.tagRebuilt := by
  unfold Run.tagRebuild
  rw [show (r.room m).rebuilds = x :: rest from hrebuilds]
  dsimp only
  rw [if_neg (by simp [hfence, hbusy])]
  rw [List.filterMap_eq_nil_iff.mpr ?unnamed]
  intro s hs
  obtain ⟨l, -, rfl⟩ := List.mem_map.mp hs
  have hl := hnone l
  dsimp only
  cases hshadow : r.shadowAt m x.set x.way l errs[l] with
  | none => rfl
  | some y =>
    rw [hshadow] at hl
    have hstate : y.1.state ≠ 2 := of_decide_eq_true hl
    exact if_neg fun h => hstate (of_decide_eq_true (Bool.and_eq_true_iff.mp h).1)

theorem rebuildWithoutShadowInvalidates : RebuildWithoutShadowInvalidates := by
  intro s m x rest errs r hrebuilds hfence hbusy hnone
  have hdone := tagRebuild_unnamed hrebuilds hfence hbusy hnone
  have hcounted : Minor r (r.forEach allLines fun l r => r.shadowCount m x.set x.way l errs[l]) := by
    refine Minor.forEach _ (fun l r => ?_) _
    unfold Run.shadowCount
    split
    · exact minor_countRead _ _ _ _ _ _
    · exact .refl r
  generalize (r.forEach allLines fun l r => r.shadowCount m x.set x.way l errs[l]) = r₁ at *
  obtain ⟨r₂, hminor, htag⟩ := setTag_minor (r₁.modRoom m fun y => { y with rebuilds := rest }) m x.set x.way {}
  obtain ⟨es, hes⟩ := hcounted.events
  obtain ⟨es', hes'⟩ := hminor.events
  have hfbx : r₂.c.fbx = { s.c.fbx with reported := s.c.fbx.reported ++ es ++ es' } := by
    rw [hes', modRoom_fbx, hes]
    rfl
  have hfence₂ : (r₂.st (.tag (tagKey m x.set x.way) {})).fenced (unitRoom m) = false := by
    rw [← hfence]
    show r₂.c.fbx.fenced.getLsbD _ = s.c.fbx.fenced.getLsbD _
    rw [hfbx]
  obtain ⟨e, hevent, hcode, hsrc⟩ := rmEvent_open _ m Code.tagRebuilt none 0 0 [] hfence₂
  rw [htag, hevent] at hdone
  have hlog : (withEvent (r₂.st (.tag (tagKey m x.set x.way) {})) e).log.filter (fun o => !(cellFree o)) =
      [.tag (tagKey m x.set x.way) {}] := by
    have hcells : (r₂.log.filter fun o => !(cellFree o)) = [] := hminor.cells.trans hcounted.cells
    show (StoreOp.tag _ _ :: r₂.log).filter _ = _
    rw [List.filter_cons_of_pos (by simp [cellFree]), hcells]
  have hcells := finish_cells s _ hlog
  obtain ⟨w, c, hroom⟩ := hminor.rooms m
  refine ⟨_, congrArg (fun r => Host.Outcome.next (Run.finish s r)) hdone, ?_, congrArg (fun x => x.2.1.1) hcells,
    ⟨es ++ es', e, ?_, hcode, hsrc⟩, congrArg (fun x => x.1.1) hcells⟩
  · show (r₂.c.rooms[m]).rebuilds = rest
    rw [hroom, room_modRoom_self]
  · show r₂.c.fbx.reported ++ [e] = _
    simp [hfbx]

/-- Settles O6: a victim's line that has come makes its Mudroom entry Ready, and a rebuild that no shadow names leaves the entry
Invalid. -/
theorem nearReturnsAndTagRebuild : Obligations.NearReturnsAndTagRebuild :=
  ⟨victimLineBecomesReady, rebuildWithoutShadowInvalidates⟩

end Sys2Proof.Laws
end

section
/-! SUPPORT. The obligation about the commands that begin jobs (R86, R165, R270, R451, R452). -/
namespace Sys2Proof.Laws
open Sys2Proof Sys2Proof.Machine Sys2Proof.Safety Sys2Proof.Claim

/-! ## What a write leaves in its register -/

/-- Bits under the mask come from the written word, the others stay (R452). -/
theorem testBit_mixWord (old v mask i : Nat) :
    (mixWord old v mask).testBit i = if mask.testBit i then v.testBit i else old.testBit i := by
  unfold mixWord
  cases h : mask.testBit i <;> simp [h]

/-- A field that can be written reads as the written word's. -/
theorem bitsOf_mixWord {old v mask hi lo : Nat} (h : ∀ i, lo ≤ i → i ≤ hi → mask.testBit i = true) :
    bitsOf (mixWord old v mask) hi lo = bitsOf v hi lo := by
  refine Nat.eq_of_testBit_eq fun i => ?_
  unfold bitsOf
  simp only [Nat.testBit_mod_two_pow, Nat.testBit_shiftRight, testBit_mixWord]
  by_cases hi' : i < hi + 1 - lo
  · rw [if_pos (h _ (by omega) (by omega))]
  · simp [hi']

/-! ## The registers of these commands -/

/-- CFG_CDRAIN (R86). -/
def cfgCdrain : RegDef := ⟨"CFG_CDRAIN", 0xA00, [], true, false,
  [⟨5, 0, .rw, 0x0, none⟩, ⟨8, 8, .rw, 0x0, none⟩, ⟨16, 16, .ro, 0x0, none⟩, ⟨17, 17, .ro, 0x0, none⟩]⟩

/-- CFG_RJOB (R165). -/
def cfgRjob : RegDef := ⟨"CFG_RJOB", 0xA08, [], true, false,
  [⟨17, 0, .rw, 0x0, none⟩, ⟨19, 18, .rw, 0x0, none⟩, ⟨20, 20, .rw, 0x0, none⟩, ⟨24, 24, .ro, 0x0, none⟩,
    ⟨25, 25, .ro, 0x0, none⟩]⟩

/-- CEL_REBUILD (R270). -/
def celRebuild : RegDef := ⟨"CEL_REBUILD", 0x30, [], true, false,
  [⟨3, 0, .rw, 0x0, none⟩, ⟨4, 4, .rw, 0x0, none⟩, ⟨16, 16, .ro, 0x0, none⟩, ⟨17, 17, .ro, 0x0, none⟩]⟩

/-- The address is that of the register `d`: an aligned word without aliases, below the tenants' tables and outside those of
events. -/
structure IsRegAt (a : BitVec 26) (d : RegDef) : Prop where
  aligned : a.toNat % 4 = 0
  low : a.toNat < 0xC10000
  noEvent : ¬(0x11000 ≤ a.toNat ∧ a.toNat < 0x113FC)
  plain : aliasOf a.toNat = (a.toNat, .plain)
  found : regDef a.toNat = some d

theorem cfgCdrain_at : IsRegAt 0xA00 cfgCdrain := ⟨by decide, by decide, by decide, by decide +kernel, by decide +kernel⟩
theorem cfgRjob_at : IsRegAt 0xA08 cfgRjob := ⟨by decide, by decide, by decide, by decide +kernel, by decide +kernel⟩
theorem celRebuild_at : IsRegAt 0x110030 celRebuild := ⟨by decide, by decide, by decide, by decide +kernel, by decide +kernel⟩

/-! ## A command write -/

/-- The write of `v` to the register `d` at `a`. -/
def cmdWr (s : State) (d : RegDef) (a : BitVec 26) (v : Word) : Wr :=
  { d := d, a := a.toNat, old := (Run.start s).reg a.toNat, new := d.written .plain ((Run.start s).reg a.toNat) v.toNat }

/-- A command write reaches its register (R451). -/
theorem cmdWrite_reaches {s : State} {g : MgPort} {a : BitVec 26} {d : RegDef} {v : Word} {test : Nat → Bool}
    (hready : mgmtReady s) (hreg : IsRegAt a d) (htest : test (cmdWr s d a v).new = true) :
    (Run.start s).cmdWrite d.name test g a v = (heardRun s g).wrReg (.port g) (cmdWr s d a v) := by
  obtain ⟨haligned, hlow, hevent, hplain, hfound⟩ := hreg
  obtain ⟨hoff, haux, himg, -⟩ := hready
  have hnames : namesReg [d.name] a.toNat = true := by
    unfold namesReg
    rw [hplain, hfound]
    simp
  have hafter : (Run.start s).wordAfter a.toNat v.toNat = (cmdWr s d a v).new := by
    unfold Run.wordAfter
    rw [hplain]
    dsimp only
    rw [hfound]
    rfl
  have hoff' : (heardRun s g).mode ≠ .off := hoff
  have haux' : (heardRun s g).mode ≠ .aux := haux
  have himg' : (heardRun s g).c.img.busy = false := himg
  unfold Run.cmdWrite
  rw [if_pos (by simp [hnames, hafter, htest])]
  unfold Run.mgmtWrite
  rw [if_neg (by simp [show (Run.start s).mode ≠ .off from hoff])]
  dsimp only
  rw [if_pos (by simp [haligned])]
  show (heardRun s g).mgmtStore (.port g) a.toNat v.toNat = _
  unfold Run.mgmtStore
  rw [hplain]
  dsimp only
  rw [if_neg hoff', if_neg (by simp [haux']), if_neg (by simp [haux']), if_neg (by simp [himg']), if_neg (by omega),
    if_neg (by omega), if_neg (by omega), hfound]
  dsimp only
  rw [if_neg fun h => hevent ⟨h.1, h.2.1⟩]
  rfl

/-- The word has been stored without its command bits, and the CRC engine is left as `k`. -/
def cmdStored (s : State) (g : MgPort) (x : Wr) (k : CrcEng) : Run :=
  ((heardRun s g).setReg x.a (x.new ^^^ (x.new &&& cmdBits x.d.name))).modCrc fun _ => k

/-- A legal command write is stored, and takes its effect. -/
theorem wrReg_command {s : State} (g : MgPort) {x : Wr} (hready : mgmtReady s) (hlow : x.a < 0xC10000)
    (hlock : x.d.name ≠ "WIN_LOCK") (hways : x.d.name ≠ "RM_WAYDIS") (hlegal : (heardRun s g).wrBad (.port g) x = none) :
    ∃ k, (heardRun s g).wrReg (.port g) x = (cmdStored s g x k).wrEffect (.port g) x := by
  obtain ⟨-, -, -, hcrc⟩ := hready
  obtain ⟨k, hk⟩ := configDirty_idle ((heardRun s g).setReg x.a (x.new ^^^ (x.new &&& cmdBits x.d.name)))
    ((x.old ^^^ (x.new ^^^ (x.new &&& cmdBits x.d.name))) &&& crcMask x.a ≠ 0) hcrc
  have hstore : (heardRun s g).wrStore x = cmdStored s g x k := by
    unfold Run.wrStore cmdStored
    dsimp only
    rw [if_neg hways, hk]
  refine ⟨k, ?_⟩
  unfold Run.wrReg
  rw [hlegal]
  dsimp only
  unfold Run.wrDo
  rw [if_neg hlock, if_neg (by simp; omega), hstore]

/-- What a stored command leaves as it was. -/
theorem scene_cmdStored (s : State) (g : MgPort) (x : Wr) (k : CrcEng) (h : isCount x.a) :
    scene (cmdStored s g x k) = scene (Run.start s) := scene_setReg (heardRun s g) _ h

/-! ## A job in every Room (R83) -/

/-- The Room with the job begun. -/
def Room.withJob (y : Room) (k : JobKind) : Room :=
  { y with jobs := (y.jobs.filter fun j => j.kind ≠ k) ++ [{ kind := k, left := 32768, start := y.walkSet }] }

/-- Jobs begin here: the mode is none of those in which they end at once, and no Room is fenced. -/
def jobsRun (r : Run) : Prop :=
  r.mode ≠ .load ∧ r.mode ≠ .check ∧ r.mode ≠ .fill ∧ ∀ m : Fin 64, r.fenced (unitRoom m) = false

theorem jobStart_runs {r : Run} (h : jobsRun r) (m : Fin 64) (k : JobKind) :
    r.jobStart m k = r.modRoom m fun y => Room.withJob y k := by
  obtain ⟨hload, hcheck, hfill, hfence⟩ := h
  unfold Run.jobStart
  rw [if_neg (by simp [hload, hcheck, hfill, hfence m])]
  rfl

theorem jobsStart_runs {r : Run} (k : JobKind) (h : jobsRun r) (ms : List (Fin 64)) (hnodup : ms.Nodup) :
    ∃ ys, (r.forEach ms fun m r => r.jobStart m k) = { r with c := { r.c with rooms := ys } } ∧
      ∀ n : Fin 64, ys[n] = if n ∈ ms then Room.withJob r.c.rooms[n] k else r.c.rooms[n] := by
  induction ms generalizing r with
  | nil => exact ⟨r.c.rooms, rfl, fun n => by simp⟩
  | cons m ms ih =>
    obtain ⟨hm, hnodup⟩ := List.nodup_cons.mp hnodup
    obtain ⟨ys, hrun, hys⟩ := ih (r := r.modRoom m fun y => Room.withJob y k) h hnodup
    refine ⟨ys, ?_, fun n => ?_⟩
    · show (r.jobStart m k).forEach ms _ = _
      rw [jobStart_runs h, hrun]
      rfl
    · rw [hys n]
      by_cases hn : n = m
      · subst hn
        rw [if_neg hm, if_pos List.mem_cons_self, room_modRoom_self]
      · rw [room_modRoom_ne r _ hn]
        simp [hn]

/-- Every Room has the job. -/
theorem allJobs_run {r : Run} (k : JobKind) (h : jobsRun r) :
    ∃ ys, (r.forEach allRooms fun m r => r.jobStart m k) = { r with c := { r.c with rooms := ys } } ∧
      ∀ n : Fin 64, ys[n] = Room.withJob r.c.rooms[n] k := by
  obtain ⟨ys, hrun, hys⟩ := jobsStart_runs k h allRooms (List.nodup_finRange 64)
  exact ⟨ys, hrun, fun n => (hys n).trans (if_pos (List.mem_finRange n))⟩

/-- A kind of job goes on while a Room that is not fenced runs one. -/
theorem allEnded_of_job {r : Run} {f : JobKind → Bool} (m : Fin 64) (hfence : r.fenced (unitRoom m) = false) {j : Job}
    (hj : j ∈ (r.c.rooms[m]).jobs) (hf : f j.kind = true) : r.allEnded f = false := by
  have hroom : (r.room m).jobs.any (fun j => f j.kind) = true := List.any_eq_true.mpr ⟨j, hj, hf⟩
  refine List.all_eq_false.mpr ⟨m, List.mem_finRange m, ?_⟩
  rw [if_neg (by simp [hfence]), hroom]
  decide

theorem mem_withJob (y : Room) (k : JobKind) : ∃ j ∈ (Room.withJob y k).jobs, j.kind = k :=
  ⟨{ kind := k, left := 32768, start := y.walkSet }, by simp [Room.withJob], rfl⟩

/-! ## The end of other jobs -/

/-- A Room that is not fenced runs a job of this kind. -/
def RunsJob (r : Run) (f : JobKind → Bool) : Prop :=
  ∃ m : Fin 64, r.fenced (unitRoom m) = false ∧ ∃ j ∈ (r.c.rooms[m]).jobs, f j.kind = true

theorem allEnded_of_runsJob {r : Run} {f : JobKind → Bool} (h : RunsJob r f) : r.allEnded f = false := by
  obtain ⟨m, hfence, j, hj, hf⟩ := h
  exact allEnded_of_job m hfence hj hf

/-- The state of a class drain. -/
def drainState (r : Run) : Bool × Bool := (r.c.cdrainBusy, r.c.cdrainDone)

/-- The return of a unit shows in the Fuse box and the Timetable's requests only. -/
theorem returnCheck_jobs (r : Run) : (drainState r.returnCheck, r.returnCheck.c.rjob) = (drainState r, r.c.rjob) := by
  unfold Run.returnCheck
  extract_lets moved
  have hmoved : (drainState moved, moved.c.rjob) = (drainState r, r.c.rjob) :=
    view_ite (fun r => (drainState r, r.c.rjob)) rfl rfl
  refine view_ite (fun r => (drainState r, r.c.rjob)) ?_ hmoved
  unfold Run.ttRequest
  exact view_ite (fun r => (drainState r, r.c.rjob)) hmoved hmoved

/-- A class drain that still runs in a Room goes on, when other jobs end. -/
theorem jobsCheck_cdrain {r : Run} (h : RunsJob r (·.isDrain)) : drainState r.jobsCheck = drainState r := by
  unfold Run.jobsCheck
  extract_lets c₁ drained c₂ swept c₃ x₃ flushed joined
  have hdrained : drained = r := if_neg (by simp [allEnded_of_runsJob h])
  have hswept : drainState swept = drainState drained := view_ite drainState rfl rfl
  have hflushed : drainState flushed = drainState swept := view_ite drainState rfl rfl
  have hjoined : drainState joined = drainState flushed := view_ite drainState rfl rfl
  rw [(Prod.mk.inj (returnCheck_jobs joined)).1, hjoined, hflushed, hswept, hdrained]

/-- So does a FLUSH. -/
theorem jobsCheck_flush {r : Run} (hop : r.c.rjob.resilver = false) (h : RunsJob r (·.isFlush)) :
    r.jobsCheck.c.rjob = r.c.rjob := by
  unfold Run.jobsCheck
  extract_lets c₁ drained c₂ swept c₃ x₃ flushed joined
  have hdrained : drained.c.rjob = r.c.rjob ∧ RunsJob drained (·.isFlush) := by
    unfold drained
    split <;> exact ⟨rfl, h⟩
  obtain ⟨hrjob, hruns⟩ : swept.c.rjob = r.c.rjob ∧ RunsJob swept (·.isFlush) := by
    unfold swept
    split <;> exact hdrained
  have hflushed : flushed = swept := if_neg (by simp [hrjob, hop, allEnded_of_runsJob hruns])
  have hjoined : joined.c.rjob = flushed.c.rjob := view_ite (fun r => r.c.rjob) rfl rfl
  rw [(Prod.mk.inj (returnCheck_jobs joined)).2, hjoined, hflushed, hrjob]

/-! ## A legal command -/

/-- A write without a field out of range, and without a condition broken, is legal. -/
theorem wrBad_none {r : Run} {w : Writer} {x : Wr} (hlow : x.a < 0x1000000)
    (hname : x.d.name ∉ ["PCH_WSEGs_DPA", "PCH_WSEGs_SIZE", "PCH_WSEGs_POOL", "TNT_CLS_CTRL"])
    (hfields : ∀ f ∈ x.d.fields, f.legal = none) (hjoin : r.joinBad w x = false) : r.wrBad w x = none := by
  have hrange : x.rangeBad = false := List.any_eq_false.mpr fun f hf => by simp [hfields f hf]
  simp only [List.mem_cons, List.not_mem_nil, or_false, not_or] at hname
  obtain ⟨hdpa, hsize, hpool, hcls⟩ := hname
  unfold Run.wrBad
  rw [if_neg (by simp [hdpa, hsize, hpool]), if_neg (by simp; omega), if_neg (by simp [hcls]), if_neg (by simp [hrange, hjoin])]

/-- A command bit of a register is that of the written word. -/
theorem bit_cmdWr (s : State) {d : RegDef} (a : BitVec 26) (v : Word) {i : Nat} (hwm : d.wm = false)
    (hw : d.writable.testBit i = true) : (cmdWr s d a v).bit i = v.getLsbD i := by
  unfold Wr.bit cmdWr RegDef.written
  simp [hwm, testBit_mixWord, hw, BitVec.testBit_toNat]

theorem fld_cmdWr (s : State) {d : RegDef} (a : BitVec 26) (v : Word) {hi lo : Nat} (hwm : d.wm = false)
    (hw : ∀ i, lo ≤ i → i ≤ hi → d.writable.testBit i = true) : (cmdWr s d a v).fld hi lo = bitsOf v.toNat hi lo := by
  unfold Wr.fld cmdWr RegDef.written
  simp [hwm, bitsOf_mixWord hw]

/-- A legal command is stored, and takes its effect. -/
theorem command_runs {s : State} {g : MgPort} {a : BitVec 26} {d : RegDef} {v : Word} {test : Nat → Bool} (hready : mgmtReady s)
    (hreg : IsRegAt a d) (hname : d.name ∉ ["PCH_WSEGs_DPA", "PCH_WSEGs_SIZE", "PCH_WSEGs_POOL", "TNT_CLS_CTRL", "WIN_LOCK", "RM_WAYDIS"])
    (hfields : ∀ f ∈ d.fields, f.legal = none) (htest : test (cmdWr s d a v).new = true)
    (hjoin : (heardRun s g).joinBad (.port g) (cmdWr s d a v) = false) :
    ∃ k, (Run.start s).cmdWrite d.name test g a v = (cmdStored s g (cmdWr s d a v) k).wrEffect (.port g) (cmdWr s d a v) := by
  have hlow : (cmdWr s d a v).a < 0xC10000 := hreg.low
  simp only [List.mem_cons, List.not_mem_nil, or_false, not_or] at hname
  obtain ⟨hdpa, hsize, hpool, hcls, hlock, hways⟩ := hname
  have hlegal : (heardRun s g).wrBad (.port g) (cmdWr s d a v) = none :=
    wrBad_none (by omega) (by simp [cmdWr, hdpa, hsize, hpool, hcls]) hfields hjoin
  obtain ⟨k, hk⟩ := wrReg_command g hready hlow hlock hways hlegal
  exact ⟨k, (cmdWrite_reaches hready hreg htest).trans hk⟩

/-- The lowest bits of a word, as a field and as a bit vector. -/
theorem ofNat_bitsOf (v : Word) {n : Nat} : BitVec.ofNat (n + 1) (bitsOf v.toNat n 0) = v.extractLsb' 0 (n + 1) := by
  refine BitVec.eq_of_toNat_eq ?_
  simp [bitsOf]

/-! ## The commands -/

theorem runsJob_withJob {r : Run} {f : JobKind → Bool} {k : JobKind} {ys : Vector Room 64} (h : jobsRun r) (hf : f k = true)
    (hys : ∀ n : Fin 64, ys[n] = Room.withJob r.c.rooms[n] k) : RunsJob { r with c := { r.c with rooms := ys } } f := by
  obtain ⟨-, -, -, hfence⟩ := h
  obtain ⟨j, hj, hkind⟩ := mem_withJob r.c.rooms[(0 : Fin 64)] k
  exact ⟨0, hfence 0, j, (hys 0) ▸ hj, hkind ▸ hf⟩

theorem scene_withRooms (r : Run) (ys : Vector Room 64) :
    scene { r with c := { r.c with rooms := ys } } = { scene r with rooms := ys } := rfl

/-- A class drain begins its job in every Room (R86). -/
theorem classDrainGo_begins {r : Run} (h : jobsRun r) (cls : Nat) :
    drainState (r.classDrainGo cls) = (true, false) ∧
      ∃ ys, scene (r.classDrainGo cls) = { scene r with rooms := ys } ∧
        ∀ m : Fin 64, ys[m] = Room.withJob r.c.rooms[m] (.classDrain (BitVec.ofNat 6 cls)) := by
  let begun : Run := { r with c := { r.c with cdrainBusy := true, cdrainDone := false } }
  have hbegun : jobsRun begun := h
  obtain ⟨ys, hrun, hys⟩ := allJobs_run (.classDrain (BitVec.ofNat 6 cls)) hbegun
  have hgo : r.classDrainGo cls = (begun.forEach allRooms fun m r => r.jobStart m (.classDrain (BitVec.ofNat 6 cls))).jobsCheck := rfl
  rw [hgo, hrun]
  refine ⟨jobsCheck_cdrain (runsJob_withJob hbegun rfl hys), ys, ?_, hys⟩
  have hscene : scene begun = scene r := rfl
  rw [scene_jobsCheck, scene_withRooms, hscene]

/-- A FLUSH begins its job in every Room (R165). -/
theorem flushGo_begins {r : Run} (h : jobsRun r) (n : BitVec 18) :
    (r.flushGo n).c.rjob = { busy := true, region := n } ∧
      ∃ ys, scene (r.flushGo n) = { scene r with rooms := ys } ∧
        ∀ m : Fin 64, ys[m] = Room.withJob r.c.rooms[m] (.flush n) := by
  let begun : Run := { r with c := { r.c with rjob := { busy := true, region := n } } }
  have hbegun : jobsRun begun := h
  obtain ⟨ys, hrun, hys⟩ := allJobs_run (.flush n) hbegun
  have hgo : r.flushGo n = (begun.forEach allRooms fun m r => r.jobStart m (.flush n)).jobsCheck := rfl
  rw [hgo, hrun]
  refine ⟨jobsCheck_flush rfl (runsJob_withJob hbegun rfl hys), ys, ?_, hys⟩
  have hscene : scene begun = scene r := rfl
  rw [scene_jobsCheck, scene_withRooms, hscene]

theorem classDrainBegins (s : State) (g : MgPort) (v : Word) (hready : mgmtReady s) (hruns : jobsRun (Run.start s))
    (hidle : s.c.cdrainBusy = false) (hgo : v.getLsbD 8 = true) :
    ∃ t, exec (.classDrainGo g 0xA00 v) s = .next t ∧ t.c.cdrainBusy = true ∧ t.c.cdrainDone = false ∧
      (∀ m : Fin 64, t.c.rooms[m] = Room.withJob s.c.rooms[m] (.classDrain (v.extractLsb' 0 6))) ∧
      t.c.chans = s.c.chans ∧ t.c.porches = s.c.porches ∧ keepsCells s t := by
  have hbit : (cmdWr s cfgCdrain 0xA00 v).bit 8 = true := (bit_cmdWr s _ v rfl (by decide)).trans hgo
  have hcls : BitVec.ofNat 6 ((cmdWr s cfgCdrain 0xA00 v).fld 5 0) = v.extractLsb' 0 6 := by
    rw [fld_cmdWr s _ v rfl (by decide)]
    exact ofNat_bitsOf v
  have hjoin : (heardRun s g).joinBad (.port g) (cmdWr s cfgCdrain 0xA00 v) = false :=
    show (_ && s.c.cdrainBusy) = false by rw [hidle, Bool.and_false]
  obtain ⟨k, hk⟩ := command_runs (test := fun w => w.testBit 8) hready cfgCdrain_at (by decide) (by decide) hbit hjoin
  have heffect : (cmdStored s g (cmdWr s cfgCdrain 0xA00 v) k).wrEffect (.port g) (cmdWr s cfgCdrain 0xA00 v) =
      (cmdStored s g (cmdWr s cfgCdrain 0xA00 v) k).classDrainGo ((cmdWr s cfgCdrain 0xA00 v).fld 5 0) := if_pos hbit
  have hstored : jobsRun (cmdStored s g (cmdWr s cfgCdrain 0xA00 v) k) := hruns
  have hscene := scene_cmdStored s g (cmdWr s cfgCdrain 0xA00 v) k (show isCount 0xA00 from ⟨by decide, by decide⟩)
  obtain ⟨hstate, ys, hend, hys⟩ := classDrainGo_begins hstored ((cmdWr s cfgCdrain 0xA00 v).fld 5 0)
  have hnext : exec (.classDrainGo g 0xA00 v) s =
    .next (Run.finish s ((Run.start s).cmdWrite cfgCdrain.name (fun w => w.testBit 8) g 0xA00 v)) := rfl
  rw [hk, heffect] at hnext
  rw [hscene] at hend
  generalize (cmdStored s g (cmdWr s cfgCdrain 0xA00 v) k).classDrainGo ((cmdWr s cfgCdrain 0xA00 v).fld 5 0) = done at *
  obtain ⟨hbusy, hdone⟩ := Prod.mk.inj hstate
  have hrooms : done.c.rooms = ys := congrArg Scene.rooms hend
  refine ⟨_, hnext, hbusy, hdone, fun m => ?_, congrArg Scene.chans hend, congrArg Scene.porches hend,
    keepsCells_of_scene done s (congrArg Scene.cells hend)⟩
  rw [finish_c, hrooms, hys m, hcls]
  rfl

/-- CFG_RJOB takes the word's command, operation and region (R165). -/
theorem rjobWr (s : State) (v : Word) :
    (cmdWr s cfgRjob 0xA08 v).bit 20 = v.getLsbD 20 ∧
      bitsOf (cmdWr s cfgRjob 0xA08 v).new 19 18 = (v.extractLsb' 18 2).toNat ∧
      BitVec.ofNat 18 (cmdWr s cfgRjob 0xA08 v).new = v.extractLsb' 0 18 := by
  refine ⟨bit_cmdWr s _ v rfl (by decide), ?_, ?_⟩
  · exact (fld_cmdWr s (d := cfgRjob) 0xA08 v rfl (by decide)).trans (by simp [bitsOf])
  · have hregion : bitsOf (cmdWr s cfgRjob 0xA08 v).new 17 0 = bitsOf v.toNat 17 0 := fld_cmdWr s (d := cfgRjob) 0xA08 v rfl (by decide)
    refine Eq.trans ?_ ((congrArg (BitVec.ofNat 18) hregion).trans (ofNat_bitsOf v))
    refine BitVec.eq_of_toNat_eq ?_
    simp [bitsOf]

/-- The test for the operation of a region job's word. -/
theorem rjobTest {w n : Nat} (hgo : w.testBit 20 = true) (hop : bitsOf w 19 18 = n) :
    (w.testBit 20 && decide (bitsOf w 19 18 = n)) = true := by simp [hgo, hop]

theorem rjobLegal_flush {r : Run} {w : Nat} (hop : bitsOf w 19 18 = 0) : r.rjobLegal w = true := by
  simp [Run.rjobLegal, hop]

theorem rjobLegal_resilver {r : Run} {w : Nat} (hop : bitsOf w 19 18 = 1) (hhome : rgnHome (BitVec.ofNat 18 w) = r.myId)
    (hmirror : (r.region (BitVec.ofNat 18 w)).attr.mirror = true) : r.rjobLegal w = true := by
  simp [Run.rjobLegal, hop, hhome, hmirror]

/-- A legal region job is accepted while none runs. -/
theorem rjob_accepted {s : State} {g : MgPort} {v : Word} (hidle : s.c.rjob.busy = false)
    (hlegal : (heardRun s g).rjobLegal (cmdWr s cfgRjob 0xA08 v).new = true) :
    (heardRun s g).joinBad (.port g) (cmdWr s cfgRjob 0xA08 v) = false := by
  show (!((heardRun s g).rjobLegal (cmdWr s cfgRjob 0xA08 v).new) || (_ && s.c.rjob.busy)) = false
  rw [hlegal, hidle, Bool.and_false]
  rfl

theorem flushBegins (s : State) (g : MgPort) (v : Word) (hready : mgmtReady s) (hruns : jobsRun (Run.start s))
    (hidle : s.c.rjob.busy = false) (hgo : v.getLsbD 20 = true) (hop : v.extractLsb' 18 2 = 0) :
    ∃ t, exec (.flush g 0xA08 v) s = .next t ∧ t.c.rjob = { busy := true, region := v.extractLsb' 0 18 } ∧
      (∀ m : Fin 64, t.c.rooms[m] = Room.withJob s.c.rooms[m] (.flush (v.extractLsb' 0 18))) ∧
      t.c.chans = s.c.chans ∧ t.c.porches = s.c.porches ∧ keepsCells s t := by
  obtain ⟨hbit, hfield, hregion⟩ := rjobWr s v
  rw [hgo] at hbit
  rw [hop] at hfield
  obtain ⟨k, hk⟩ := command_runs (test := fun w => w.testBit 20 && bitsOf w 19 18 = 0) hready cfgRjob_at (by decide) (by decide)
    (rjobTest hbit hfield) (rjob_accepted hidle (rjobLegal_flush hfield))
  have heffect : (cmdStored s g (cmdWr s cfgRjob 0xA08 v) k).wrEffect (.port g) (cmdWr s cfgRjob 0xA08 v) =
      (cmdStored s g (cmdWr s cfgRjob 0xA08 v) k).flushGo (v.extractLsb' 0 18) := by
    rw [← hregion]
    exact (if_pos hbit).trans (if_pos hfield)
  have hstored : jobsRun (cmdStored s g (cmdWr s cfgRjob 0xA08 v) k) := hruns
  have hscene := scene_cmdStored s g (cmdWr s cfgRjob 0xA08 v) k (show isCount 0xA08 from ⟨by decide, by decide⟩)
  obtain ⟨hjob, ys, hend, hys⟩ := flushGo_begins hstored (v.extractLsb' 0 18)
  have hnext : exec (.flush g 0xA08 v) s =
    .next (Run.finish s ((Run.start s).cmdWrite cfgRjob.name (fun w => w.testBit 20 && bitsOf w 19 18 = 0) g 0xA08 v)) := rfl
  rw [hk, heffect] at hnext
  rw [hscene] at hend
  generalize (cmdStored s g (cmdWr s cfgRjob 0xA08 v) k).flushGo (v.extractLsb' 0 18) = done at *
  have hrooms : done.c.rooms = ys := congrArg Scene.rooms hend
  refine ⟨_, hnext, hjob, fun m => ?_, congrArg Scene.chans hend, congrArg Scene.porches hend,
    keepsCells_of_scene done s (congrArg Scene.cells hend)⟩
  rw [finish_c, hrooms, hys m]
  rfl

theorem resilverBegins (s : State) (g : MgPort) (v : Word) (hready : mgmtReady s) (hidle : s.c.rjob.busy = false)
    (hgo : v.getLsbD 20 = true) (hop : v.extractLsb' 18 2 = 1) (hhome : rgnHome (v.extractLsb' 0 18) = (Run.start s).myId)
    (hmirror : ((Run.start s).region (v.extractLsb' 0 18)).attr.mirror = true) :
    ∃ t, exec (.resilver g 0xA08 v) s = .next t ∧ t.c.rjob = { busy := true, resilver := true, region := v.extractLsb' 0 18 } ∧
      t.c.rooms = s.c.rooms ∧ t.c.chans = s.c.chans ∧ keepsCells s t := by
  obtain ⟨hbit, hfield, hregion⟩ := rjobWr s v
  rw [hgo] at hbit
  rw [hop] at hfield
  have hlegal : (heardRun s g).rjobLegal (cmdWr s cfgRjob 0xA08 v).new = true :=
    rjobLegal_resilver hfield (by rw [hregion]; exact hhome) (by rw [hregion]; exact hmirror)
  obtain ⟨k, hk⟩ := command_runs (test := fun w => w.testBit 20 && bitsOf w 19 18 = 1) hready cfgRjob_at (by decide) (by decide)
    (rjobTest hbit hfield) (rjob_accepted hidle hlegal)
  have heffect : (cmdStored s g (cmdWr s cfgRjob 0xA08 v) k).wrEffect (.port g) (cmdWr s cfgRjob 0xA08 v) =
      (cmdStored s g (cmdWr s cfgRjob 0xA08 v) k).resilverGo (v.extractLsb' 0 18) := by
    rw [← hregion]
    exact (if_pos hbit).trans (if_neg (by rw [hfield]; decide))
  have hscene := scene_cmdStored s g (cmdWr s cfgRjob 0xA08 v) k (show isCount 0xA08 from ⟨by decide, by decide⟩)
  have hdone := hk.trans heffect
  generalize cmdStored s g (cmdWr s cfgRjob 0xA08 v) k = stored at hdone hscene
  exact ⟨_, congrArg (fun r => Host.Outcome.next (Run.finish s r)) hdone, rfl, congrArg Scene.rooms hscene,
    congrArg Scene.chans hscene, keepsCells_of_scene _ s (congrArg Scene.cells hscene)⟩

/-- The channel `c` retrains for its rebuild. -/
def rebuilds (r : Run) (c : Fin 16) : Run :=
  (r.modRebuild fun _ => { busy := true, ch := c }).modChan c fun x =>
    { x with trained := false, trainFail := false, ready := false, rebuildPtr := 0 }

theorem rebuildGo_eq {r : Run} {w : Nat} {c : Fin 16} (h : fin16 w = c) : r.rebuildGo w = rebuilds r c := by
  subst h
  rfl

theorem chan_rebuilds (r : Run) (c : Fin 16) : (rebuilds r c).c.chans[c] =
    { r.c.chans[c] with trained := false, trainFail := false, ready := false, rebuildPtr := 0 } := by
  unfold rebuilds
  rw [chan_modChan_self]
  rfl

theorem rebuildLegal_of_lost {r : Run} {w : Nat} {c : Fin 16} (h : fin16 w = c) (hidle : r.c.rebuild.busy = false)
    (hlost : (r.c.chans[c]).lost = true) : r.rebuildLegal w = true := by
  subst h
  have hchan : (r.chan (fin16 w)).lost = true := hlost
  simp [Run.rebuildLegal, hidle, hchan]

theorem rebuildBegins (s : State) (g : MgPort) (v : Word) (hready : mgmtReady s) (hidle : s.c.rebuild.busy = false)
    (hlost : (s.c.chans[(v.extractLsb' 0 4).toFin]).lost = true) (hgo : v.getLsbD 4 = true) :
    ∃ t, exec (.rebuildGo g 0x110030 v) s = .next t ∧ t.c.rebuild = { busy := true, ch := (v.extractLsb' 0 4).toFin } ∧
      t.c.chans[(v.extractLsb' 0 4).toFin] = { s.c.chans[(v.extractLsb' 0 4).toFin] with
        trained := false, trainFail := false, ready := false, rebuildPtr := 0 } ∧
      t.c.rooms = s.c.rooms ∧ keepsCells s t := by
  have hbit : (cmdWr s celRebuild 0x110030 v).bit 4 = true := (bit_cmdWr s _ v rfl (by decide)).trans hgo
  have hch : fin16 ((cmdWr s celRebuild 0x110030 v).fld 3 0) = (v.extractLsb' 0 4).toFin := by
    rw [fld_cmdWr s _ v rfl (by decide)]
    exact congrArg BitVec.toFin (ofNat_bitsOf v (n := 3))
  have hjoin : (heardRun s g).joinBad (.port g) (cmdWr s celRebuild 0x110030 v) = false := by
    have hlegal : (heardRun s g).rebuildLegal ((cmdWr s celRebuild 0x110030 v).fld 3 0) = true :=
      rebuildLegal_of_lost hch hidle hlost
    show (_ && !((heardRun s g).rebuildLegal ((cmdWr s celRebuild 0x110030 v).fld 3 0))) = false
    rw [hlegal, Bool.not_true, Bool.and_false]
  obtain ⟨k, hk⟩ := command_runs (test := fun w => w.testBit 4) hready celRebuild_at (by decide) (by decide) hbit hjoin
  have heffect : (cmdStored s g (cmdWr s celRebuild 0x110030 v) k).wrEffect (.port g) (cmdWr s celRebuild 0x110030 v) =
      rebuilds (cmdStored s g (cmdWr s celRebuild 0x110030 v) k) (v.extractLsb' 0 4).toFin :=
    (if_pos hbit).trans (rebuildGo_eq hch)
  have hscene := scene_cmdStored s g (cmdWr s celRebuild 0x110030 v) k (show isCount 0x110030 from ⟨by decide, by decide⟩)
  have hchans : (cmdStored s g (cmdWr s celRebuild 0x110030 v) k).c.chans = s.c.chans := congrArg Scene.chans hscene
  have hdone := hk.trans heffect
  generalize cmdStored s g (cmdWr s celRebuild 0x110030 v) k = stored at hdone hscene hchans
  refine ⟨_, congrArg (fun r => Host.Outcome.next (Run.finish s r)) hdone, rfl, ?_, congrArg Scene.rooms hscene,
    keepsCells_of_scene _ s (congrArg Scene.cells hscene)⟩
  rw [finish_c, chan_rebuilds, hchans]

/-- Settles O42: each command is stored without its GO bit and starts its work; a kind of job that runs in a Room does not end. -/
theorem jobsBegin : Obligations.JobsBegin :=
  ⟨fun s g v hready hload hcheck hfill hidle hfence hgo =>
      classDrainBegins s g v hready ⟨hload, hcheck, hfill, hfence⟩ hidle hgo,
    fun s g v hready hload hcheck hfill hidle hfence hgo hop =>
      flushBegins s g v hready ⟨hload, hcheck, hfill, hfence⟩ hidle hgo hop,
    resilverBegins, rebuildBegins⟩

end Sys2Proof.Laws
end

section
/-! SUPPORT. The obligation about requests at their home Room (R19, R63, R74, R102, R106). -/
namespace Sys2Proof.Laws
open Sys2Proof Sys2Proof.Machine Sys2Proof.Safety Sys2Proof.Claim

/-! ## What a Room's pass leaves of the Porches -/

/-- Every Porch is as it was, but for what it notes of its requests on their way. -/
def KeptRequests (ps qs : Vector Porch 8) : Prop :=
  ∀ p : Fin 8, qs[p] = { ps[p] with store := qs[p].store } ∧
    ((∀ e ∈ ps[p].store, (e.sent && e.retired) = false) → qs[p].store.map Ent.bare = ps[p].store.map Ent.bare)

theorem KeptRequests.refl (ps : Vector Porch 8) : KeptRequests ps ps := fun _ => ⟨rfl, fun _ => rfl⟩

/-- What is noted of a request says neither that it has completed nor that it has retired. -/
theorem leaves_bare (e : Ent) : ((Ent.bare e).sent && (Ent.bare e).retired) = (e.sent && e.retired) := rfl

theorem KeptRequests.trans {ps qs rs : Vector Porch 8} (h : KeptRequests ps qs) (h' : KeptRequests qs rs) : KeptRequests ps rs := by
  intro p
  obtain ⟨hq, hstore⟩ := h p
  obtain ⟨hr, hstore'⟩ := h' p
  refine ⟨by rw [hr, hq], fun hstay => ?_⟩
  have hstay' : ∀ e ∈ qs[p].store, (e.sent && e.retired) = false := fun e he => by
    have hbare : Ent.bare e ∈ ps[p].store.map Ent.bare := hstore hstay ▸ List.mem_map_of_mem he
    obtain ⟨e₀, he₀, heq⟩ := List.mem_map.mp hbare
    rw [← leaves_bare, ← heq, leaves_bare]
    exact hstay e₀ he₀
  rw [hstore' hstay', hstore hstay]

/-- A note at a request is no more than that. -/
theorem keptRequests_modEnt (r : Run) (p : Fin 8) (uid : Nat) (f : Ent → Ent) (hf : ∀ e, Ent.bare (f e) = Ent.bare e) :
    KeptRequests r.c.porches (r.modEnt p uid f).c.porches := by
  intro q
  unfold Run.modEnt
  by_cases hq : q = p
  · subst hq
    rw [porch_modPorch_self]
    refine ⟨rfl, fun hstay => ?_⟩
    have hbare : ∀ e, Ent.bare (if e.uid = uid then f e else e) = Ent.bare e := fun e => by
      split
      · exact hf e
      · rfl
    rw [List.filter_eq_self.mpr, List.map_map]
    · exact List.map_congr_left fun e _ => hbare e
    · intro e he
      obtain ⟨e₀, he₀, rfl⟩ := List.mem_map.mp he
      rw [← leaves_bare, hbare, leaves_bare, hstay e₀ he₀]
      rfl
  · rw [porch_modPorch_ne r _ hq]
    exact ⟨rfl, fun _ => rfl⟩

/-! ## A waiter with its line (R74) -/

variable (r : Run)

/-- The waiter has left the Room, and its request notes the pass. -/
def reentering (m : Fin 64) (it : Item) : Run := ((r.dropWaiter m 0).pulse m 0x01).passed it

theorem scene_reentering {m : Fin 64} {w : Waiter} {it : Item} {uid : Nat} {p : Fin 8} {k : Fin 2} (hsrc : it.src = .host uid p k)
    (hwaiters : (r.c.rooms[m]).waiters = [w]) : ∃ qs, KeptRequests r.c.porches qs ∧ scene (reentering r m it) =
      { scene (emptied r m) with porches := qs } := by
  have hdrop : r.dropWaiter m 0 = emptied r m := modRoom_congr r m <| by
    generalize r.c.rooms[m] = y at *
    simp [hwaiters]
  have hpulse : scene ((r.dropWaiter m 0).pulse m 0x01) = scene (emptied r m) := by rw [scene_pulse, hdrop]
  unfold reentering Run.passed
  rw [hsrc]
  generalize (r.dropWaiter m 0).pulse m 0x01 = passing at *
  have hporches : passing.c.porches = r.c.porches := congrArg Scene.porches hpulse
  refine ⟨_, hporches ▸ keptRequests_modEnt passing p uid (fun e => { e with passAt := some passing.now }) fun _ => rfl, ?_⟩
  rw [← hpulse]
  rfl

/-- A waiter alone in its Room is first in every order. -/
theorem waiter_alone {y : Room} (w : Waiter) : y.firstOf 0 w = true ∧ y.inTurn 0 w = true := by
  refine ⟨rfl, ?_⟩
  unfold Room.inTurn
  split <;> simp

/-- An answered waiter re-enters in its slot, and takes its line. -/
theorem waiterReentry_answered {m : Fin 64} {w : Waiter} {d : LineData} {bad : Bool} (hwaiters : (r.c.rooms[m]).waiters = [w])
    (hfence : r.fenced (unitRoom m) = false) (hready : r.ready m w = true) (hslot : r.canGrant m.val 0x51 = true)
    (hans : w.ans = some (d, bad)) : r.waiterReentry m 0 {} =
      (((reentering (r.grant m.val 0x51) m w.item).upsets m w.item {}).giveData m w.item d bad).cohPoll m := by
  obtain ⟨hfirst, hturn⟩ := waiter_alone (y := r.room m) w
  unfold Run.waiterReentry
  rw [show (r.room m).waiters[0]? = some w by rw [show (r.room m).waiters = [w] from hwaiters]; rfl]
  dsimp only
  rw [if_neg (by simp [hfence, hready, hfirst, hturn]), inSlot_of_grant _ _ hslot, hans]
  rfl

theorem answeredWaiterCompletes : AnsweredWaiterCompletes := by
  intro s m w d bad uid p k r hwaiters hquiet htrks hready hslot hans hsrc hop hmeta
  obtain ⟨hfence, hcohs, hsnoops, hscn⟩ := hquiet
  obtain ⟨qs, hqs, hscene⟩ := scene_reentering (r.grant m.val 0x51) hsrc hwaiters
  have hups := (scene_upsets_none (reentering (r.grant m.val 0x51) m w.item) m w.item).trans hscene
  have hdone := waiterReentry_answered r hwaiters hfence hready hslot hans
  generalize (reentering (r.grant m.val 0x51) m w.item).upsets m w.item {} = looked at hups hdone
  have hrun : looked.c.tt.run = true := (congrArg Scene.run hups).trans (run_of_slotFor hslot)
  have hrooms : looked.c.rooms = (emptied (r.grant m.val 0x51) m).c.rooms := congrArg Scene.rooms hups
  have hroom : looked.c.rooms[m] = { s.c.rooms[m] with waiters := [], closed := false } := by
    rw [hrooms, room_emptied]
    rfl
  have hwait : looked.c.wait = s.c.wait := congrArg Scene.wait hups
  have hfly : looked.c.fly = s.c.fly := congrArg Scene.fly hups
  have hchans : looked.c.chans = s.c.chans := congrArg Scene.chans hups
  have hporches : looked.c.porches = qs := congrArg Scene.porches hups
  obtain ⟨hcohs', hsnoops', hscn', htrks'⟩ : (looked.c.rooms[m]).cohs = [] ∧ (looked.c.rooms[m]).snoopQ = [] ∧
      (looked.c.rooms[m]).scnBad = [] ∧ (looked.c.rooms[m]).trks = [] := by
    rw [hroom]
    exact ⟨hcohs, hsnoops, hscn, htrks⟩
  rw [giveData_plainRead looked ⟨hsrc, hop, hmeta⟩ hrun m d bad,
    cohPoll_quiet (looked.post _ _ _ _) m hcohs' hsnoops' hscn' htrks'] at hdone
  refine ⟨_, congrArg (fun r => Host.Outcome.next (Run.finish s r)) hdone, congrArg Room.waiters hroom, ⟨?_, hfly⟩,
    fun n hn => ?_, hchans, ?_⟩
  · rw [finish_c, post_c, hwait]
    rfl
  · rw [finish_c, post_c, hrooms]
    exact room_modRoom_ne _ _ hn
  · unfold keepsRequests
    rw [finish_c, post_c, hporches]
    exact hqs

/-! ## A request enters (R61) -/

/-- A host's request of a line whose home is here, in a region without sharers and twin (R22, R64). -/
structure HomeRequest (r : Run) (m : Fin 64) (it : Item) (uid : Nat) (p : Fin 8) (k : Fin 2) : Prop where
  src : it.src = .host uid p k
  op : it.op = .memRd ∨ it.op = .memWr
  meta' : it.meta' = .noOp
  kind : it.attr.kind = kindDirect
  mirror : it.attr.mirror = false
  home : r.isHome (paBlock it.pa) = true
  plain : r.adopted m (paBlock it.pa) it.attr = false
  scn : r.scnFind m (paGran it.pa) = none

/-- What a request that enters its Room leaves changed before it is served: the slot and the transfer it has used, what its
Porch notes of it, and the performance counters. -/
structure Entry where
  used : List (Nat × Nat)
  hall : List Hall
  porches : Vector Porch 8
  tally : Tally

/-- The command at work with the request in the Room. -/
def entered (x : Entry) : Run :=
  tallied { r with c := { r.c with used := x.used, hall := x.hall, porches := x.porches } } x.tally

/-- The counters are no cells. -/
theorem cells_entered (s : State) (x : Entry) : (scene (entered (Run.start s) x)).cells = [] := by
  refine List.filter_eq_nil_iff.mpr fun o ho => ?_
  have hlog : o ∈ x.tally.ops ++ [] := ho
  simpa using x.tally.cellFree o (by simpa using hlog)

theorem HomeRequest.keep {r : Run} {m : Fin 64} {it : Item} {uid : Nat} {p : Fin 8} {k : Fin 2} (h : HomeRequest r m it uid p k) :
    it.keep = .no := by
  unfold Item.keep
  rw [h.meta']
  rcases h.op with hop | hop <;> rw [hop]

/-- The line is served here, as its home. -/
theorem HomeRequest.acts {r : Run} {m : Fin 64} {it : Item} {uid : Nat} {p : Fin 8} {k : Fin 2} (h : HomeRequest r m it uid p k) :
    r.actsHome (paBlock it.pa) it.attr.mirror = true := by
  have hhome : (paBlock it.pa).extractLsb' 30 6 = r.myId := of_decide_eq_true h.home
  unfold Run.actsHome Run.homeOf
  simp [h.mirror, hhome]

/-- Its lookup reads no array that an upset could have touched. -/
theorem upsets_homeRequest {r : Run} {m : Fin 64} {it : Item} {uid : Nat} {p : Fin 8} {k : Fin 2} (h : HomeRequest r m it uid p k) :
    r.upsets m it {} = r := by
  have htags : r.looksUp m it = false := by simp [Run.looksUp, h.acts]
  have hdir : (r.actsHome (paBlock it.pa) it.attr.mirror && it.attr.kind = kindShared) = false := by
    simp [h.kind, kindDirect, kindShared]
  have hscn : ∀ set, r.scnUpsets m set {} = r := fun _ => rfl
  unfold Run.upsets
  simp only [htags, Run.when, hscn, hdir, Bool.false_eq_true, if_false]

/-- In a Room at rest nothing holds it back: it is served at once. -/
theorem access_homeRequest {r : Run} {m : Fin 64} {it : Item} {uid : Nat} {p : Fin 8} {k : Fin 2} (h : HomeRequest r m it uid p k)
    (hrest : AtRest r.c.rooms[m]) : r.access m it = r.serveHome m it := by
  obtain ⟨hload, hstore⟩ : (it.op = .rsvLoad) = False ∧ (it.op = .rsvStore) = False := by
    rcases h.op with hop | hop <;> simp [hop]
  have hheld : ∀ g gs, r.heldBack m it g gs = none := fun g gs => by
    have hdue : r.sweepDue m (paBlock it.pa) = false := by
      unfold Run.sweepDue Run.room
      rw [hrest.sweep]
    have hlooks : r.looksUp m it = false := by simp [Run.looksUp, h.acts]
    have hwhy : r.cohWhy m (paBlock it.pa) g gs = none := by
      unfold Run.cohWhy Run.cohStops Room.scnWaits Run.room
      rw [hrest.cohs, hrest.scnBad]
      simp
    unfold Run.heldBack
    simp only [hdue, hlooks, hwhy, Bool.false_and, Bool.false_eq_true, if_false]
  have hcast : r.castGrans m it = [] := by simp [Run.castGrans, h.plain]
  have hplan : r.screenPlan m it = none := by
    unfold Run.screenPlan Run.hostSnoops
    rw [h.src, h.scn]
    simp [hload]
  have hserve : r.serve m it = r.serveHome m it := by
    unfold Run.serve
    simp [h.acts, hstore]
  have hdir : r.afterScreen m it = r.serve m it := by
    unfold Run.afterScreen
    simp [h.kind, kindDirect, kindShared]
  unfold Run.access
  simp only [hheld, hcast, hplan, hdir, hserve, ite_self]

theorem HomeRequest.entered {r : Run} {m : Fin 64} {it : Item} {uid : Nat} {p : Fin 8} {k : Fin 2}
    (h : HomeRequest r m it uid p k) (x : Entry) : HomeRequest (entered r x) m it uid p k :=
  ⟨h.src, h.op, h.meta', h.kind, h.mirror, h.home, h.plain, h.scn⟩

/-- The Porches once request `uid` of Porch `p` is no longer issued again. -/
def unissued (p : Fin 8) (uid : Nat) : Vector Porch 8 := (r.modEnt p uid fun e => { e with reissue := false }).c.porches

/-- The request has left the Hallway, and its Porch no longer issues it again. -/
def leftHall (m : Fin 64) (p : Fin 8) (uid : Nat) : Run :=
  { r with c := { r.c with
      used := (m.val, 0x40 + p.val) :: r.c.used
      hall := r.c.hall.eraseP fun h => h.p = p && h.m = m
      porches := unissued r p uid } }

theorem enter_homeRequest {r : Run} {m : Fin 64} {it : Item} {uid : Nat} {p : Fin 8} {k : Fin 2} (h : HomeRequest r m it uid p k)
    (hrest : AtRest r.c.rooms[m]) : ∃ x : Entry, x.hall = r.c.hall ∧ KeptRequests r.c.porches x.porches ∧
      r.enter m it = (entered r x).serveHome m it := by
  obtain ⟨y, hpulse⟩ := pulse_counts r m 0x01 1
  let note (e : Ent) : Ent := { e with passAt := some (tallied r y).now }
  let x : Entry := ⟨r.c.used, r.c.hall, ((tallied r y).modEnt p uid note).c.porches, y⟩
  have hpassed : (r.pulse m 0x01).passed it = entered r x := by
    unfold Run.passed
    rw [hpulse, h.src]
    rfl
  refine ⟨x, rfl, keptRequests_modEnt (tallied r y) p uid note fun _ => rfl, ?_⟩
  have hrest' : AtRest (entered r x).c.rooms[m] := hrest
  have hanswers : (entered r x).answersSnoop m it = false := by
    unfold Run.answersSnoop Run.room
    rw [hrest'.cohs, h.src]
    simp
  have hwaiters : ((entered r x).room m).waiters = [] := hrest'.waiters
  unfold Run.enter
  simp only [hpassed, hanswers, hwaiters, List.any_nil, Bool.false_eq_true, if_false]
  exact access_homeRequest (h.entered x) hrest'

/-- A transfer that leaves the Hallway moves no marker in a Room without one. -/
theorem markersMove_none (m : Fin 64) (p : Fin 8) (h : (r.c.rooms[m]).markers = []) : r.markersMove m p = r := by
  unfold Run.markersMove
  extract_lets waits f
  exact modRoom_fix r m _ (by rw [h, List.map_nil, ← h])

/-- The oldest transfer of a Porch enters in its slot. -/
theorem roomEntry_inSlot {m : Fin 64} {p : Fin 8} {it : Item} {uid : Nat} {p' : Fin 8} {k : Fin 2}
    (hfence : r.fenced (unitRoom m) = false) (hopen : (r.c.rooms[m]).closed = false)
    (hfind : (r.c.hall.find? fun h => h.p = p && h.m = m) = some ⟨p, m, it⟩) (hslot : r.canGrant m.val (0x40 + p.val) = true)
    (hsrc : it.src = .host uid p' k) :
    r.roomEntry m p {} = ((((leftHall r m p uid).upsets m it {}).enter m it).cohPoll m).markersMove m p := by
  unfold Run.roomEntry
  rw [if_neg (by rw [hfence, show (r.room m).closed = false from hopen]; simp), hfind]
  dsimp only
  rw [inSlot_of_grant _ _ hslot, hsrc]
  rfl

theorem rooms_leftHall (m : Fin 64) (p : Fin 8) (uid : Nat) : (leftHall r m p uid).c.rooms = r.c.rooms := rfl

theorem HomeRequest.leftHall {r : Run} {m : Fin 64} {it : Item} {uid : Nat} {p p' : Fin 8} {k : Fin 2}
    (h : HomeRequest r m it uid p' k) : HomeRequest (leftHall r m p uid) m it uid p' k :=
  ⟨h.src, h.op, h.meta', h.kind, h.mirror, h.home, h.plain, h.scn⟩

theorem keptRequests_leftHall (m : Fin 64) (p : Fin 8) (uid : Nat) :
    KeptRequests r.c.porches (leftHall r m p uid).c.porches :=
  keptRequests_modEnt r p uid (fun e => { e with reissue := false }) fun _ => rfl

theorem hall_leftHall (m : Fin 64) (p : Fin 8) (uid : Nat) :
    (leftHall r m p uid).c.hall = r.c.hall.eraseP fun h => h.p = p && h.m = m := rfl

theorem entered_leftHall (m : Fin 64) (p : Fin 8) (uid : Nat) (x : Entry) : entered (leftHall r m p uid) x = entered r x := rfl

/-- A host's request of a home line enters its Room in its slot, and is served. -/
theorem roomEntry_homeRequest {s : State} {m : Fin 64} {p : Fin 8} {it : Item} {uid : Nat} {p' : Fin 8} {k : Fin 2}
    (hidle : idleRoom s m) (hfind : (s.c.hall.find? fun h => h.p = p && h.m = m) = some ⟨p, m, it⟩)
    (hslot : slotFor s m.val (0x40 + p.val)) (h : HomeRequest (Run.start s) m it uid p' k) :
    ∃ x : Entry, x.hall = (s.c.hall.eraseP fun h => h.p = p && h.m = m) ∧ KeptRequests s.c.porches x.porches ∧
      (Run.start s).roomEntry m p {} =
        (((entered (Run.start s) x).serveHome m it).cohPoll m).markersMove m p := by
  have hrest : AtRest (leftHall (Run.start s) m p uid).c.rooms[m] := by
    rw [rooms_leftHall]
    exact atRest_of_idleRoom hidle
  obtain ⟨⟨hfence, -⟩, hopen, -⟩ := hidle
  have hleft : HomeRequest (leftHall (Run.start s) m p uid) m it uid p' k := h.leftHall
  obtain ⟨x, hhall, hkept, henter⟩ := enter_homeRequest hleft hrest
  refine ⟨x, hhall.trans (hall_leftHall _ _ _ _), (keptRequests_leftHall _ _ _ _).trans hkept, ?_⟩
  rw [roomEntry_inSlot (Run.start s) hfence hopen hfind hslot h.src, upsets_homeRequest hleft, henter, entered_leftHall]

/-- Where nothing goes on in the Room when the request has been served, the entry ends. -/
theorem entryEnds {m : Fin 64} (p : Fin 8) (hcohs : (r.c.rooms[m]).cohs = []) (hsnoops : (r.c.rooms[m]).snoopQ = [])
    (hscn : (r.c.rooms[m]).scnBad = []) (htrks : (r.c.rooms[m]).trks = []) (hmarkers : (r.c.rooms[m]).markers = []) :
    (r.cohPoll m).markersMove m p = r := by
  rw [cohPoll_quiet r m hcohs hsnoops hscn htrks, markersMove_none r m p hmarkers]

/-! ## A read of a home line (R63, R106) -/

/-- The command with which a Room reads a line for the item. -/
def readCmd (m : Fin 64) (it : Item) : CelCmd :=
  { m := m, idx := (r.homePlace (paBlock it.pa) (paLineNo it.pa)).2, write := false, pa := linePa (paLine it.pa),
    tenant := it.attr.tenant, purpose := some (.item m it true), charge := it.attr.tenant, tin := it.tin }

/-- The read waits at the Room's stop. -/
def readWaits (m : Fin 64) (it : Item) : Run :=
  r.chanCmd m (r.homePlace (paBlock it.pa) (paLineNo it.pa)).1 (readCmd r m it)

theorem serveHome_read {r : Run} {m : Fin 64} {it : Item} {uid : Nat} {p : Fin 8} {k : Fin 2} (h : HomeRequest r m it uid p k)
    (hop : it.op = .memRd) (hwbuf : (r.c.rooms[m]).wbuf = [])
    (hlost : r.lostChan (r.homePlace (paBlock it.pa) (paLineNo it.pa)).1 = false) : r.serveHome m it = readWaits r m it := by
  have hreads : it.reads = true := by simp [Item.reads, hop, isRead]
  have hbuf : (r.room m).wbRead it = .none := by
    unfold Room.wbRead Room.wbOpen
    rw [show (r.room m).wbuf = [] from hwbuf]
    rfl
  unfold Run.serveHome Run.homeRead
  rw [if_pos hreads, h.src]
  dsimp only
  rw [if_neg (by simp), hbuf]
  dsimp only
  rw [if_neg (by simp [hlost])]
  unfold Run.beforeData
  rw [if_neg (by simp [hop]), recordThen_untracked r m it none _ h.keep]
  rfl

theorem room_readWaits (m : Fin 64) (it : Item) : (readWaits r m it).c.rooms[m] = { r.c.rooms[m] with
    outC := (r.c.rooms[m]).outC ++ [.cmd (r.homePlace (paBlock it.pa) (paLineNo it.pa)).1 (readCmd r m it)] } :=
  room_modRoom_self r m _

theorem rooms_readWaits_ne {m n : Fin 64} (it : Item) (h : n ≠ m) : (readWaits r m it).c.rooms[n] = r.c.rooms[n] :=
  room_modRoom_ne r _ h

theorem homeReadGoesToItsChannel : HomeReadGoesToItsChannel := by
  intro s m p it uid p' k r b
  dsimp only
  intro hidle hfind hslot hsrc hop hmeta _ hkind hmirror hhome hplain hscn hlost
  have hreq : HomeRequest r m it uid p' k := ⟨hsrc, .inl hop, hmeta, hkind, hmirror, hhome, hplain.1, hscn⟩
  obtain ⟨x, hhall, hkept, hentry⟩ := roomEntry_homeRequest hidle hfind hslot hreq
  have hrest := atRest_of_idleRoom hidle
  obtain ⟨-, -, -, -, -, -, -, houtC, -, -, -, -, hmarkers, -⟩ := hidle
  have hroom : (readWaits (entered r x) m it).c.rooms[m] = { s.c.rooms[m] with
      outC := [.cmd (r.homePlace b (paLineNo it.pa)).1 (readCmd r m it)] } := by
    rw [room_readWaits, show (entered r x).c.rooms[m] = s.c.rooms[m] from rfl, houtC]
    rfl
  have hends : ((readWaits (entered r x) m it).cohPoll m).markersMove m p = readWaits (entered r x) m it := by
    refine entryEnds _ p ?_ ?_ ?_ ?_ ?_ <;> rw [hroom]
    exacts [hrest.cohs, hrest.snoopQ, hrest.scnBad, hrest.trks, hmarkers]
  rw [serveHome_read (hreq.entered x) hop hrest.wbuf hlost, hends] at hentry
  refine ⟨_, readCmd r m it, congrArg (fun r => Host.Outcome.next (Run.finish s r)) hentry, hhall, congrArg Room.outC hroom,
    rfl, rfl, rfl, rfl, (congrArg Room.waiters hroom).trans hrest.waiters, fun n hn => ?_, rfl, rfl, hkept, ?_⟩
  · exact rooms_readWaits_ne (entered r x) it hn
  · exact keepsCells_of_scene _ s (cells_entered s x)

/-! ## A write of a home line (R19, R102) -/

/-- The entry that an empty write buffer opens for a host's write, which notes the Porch too. -/
def hostEntry (y : Room) (it : Item) (p : Fin 8) (cc : Nat) : WbEnt := { homeEntry y it cc with porches := [p] }

/-- Room `m` has opened the entry, and has noted the greatest number of its entries (R110). -/
def hostOpened (m : Fin 64) (it : Item) (p : Fin 8) : Run :=
  (r.modRoom m fun y => { y with wbuf := y.wbuf ++ [hostEntry r.c.rooms[m] it p r.c.cc], seq := y.seq + 1 }).peak
    (rmBase m + 0x64) 1

/-- Room `m` has the host's write in its buffer. -/
def hostBuffered (m : Fin 64) (it : Item) (p : Fin 8) : Run :=
  (hostOpened r m it p).modRoom m fun y => { y with resils := y.resils.filter fun x => x.line ≠ paLine it.pa }

/-- The Room with the host's write. -/
def withHostWrite (y : Room) (it : Item) (p : Fin 8) (cc : Nat) : Room :=
  { withWrite y it cc with wbuf := y.wbuf ++ [hostEntry y it p cc] }

theorem scene_hostOpened (m : Fin 64) (it : Item) (p : Fin 8) : scene (hostOpened r m it p) =
    scene (r.modRoom m fun y => { y with wbuf := y.wbuf ++ [hostEntry r.c.rooms[m] it p r.c.cc], seq := y.seq + 1 }) :=
  scene_peak _ _ (isCount_rmBase m (by decide))

theorem rsvs_hostOpened (m : Fin 64) (it : Item) (p : Fin 8) :
    ((hostOpened r m it p).c.rooms[m]).rsvs = (r.c.rooms[m]).rsvs := by
  have h := congrArg (fun x => (x.rooms[m]).rsvs) (scene_hostOpened r m it p)
  simpa [scene] using h

theorem scene_hostBuffered (m : Fin 64) (it : Item) (p : Fin 8) : scene (hostBuffered r m it p) =
    { scene r with rooms := (scene r).rooms.set m.val (withHostWrite (scene r).rooms[m] it p (scene r).cc) m.isLt } := by
  unfold hostBuffered
  rw [scene_modRoom, scene_hostOpened, scene_modRoom]
  simp [withHostWrite, withWrite, withEntry, scene]

theorem room_hostBuffered (m : Fin 64) (it : Item) (p : Fin 8) :
    (hostBuffered r m it p).c.rooms[m] = withHostWrite r.c.rooms[m] it p r.c.cc := by
  have h := congrArg (fun x => x.rooms[m]) (scene_hostBuffered r m it p)
  simpa [scene] using h

/-- An empty buffer with room takes a host's write of an unmirrored home line, and its Porch is told at once (R19, R24). -/
theorem accept_host {r : Run} {m : Fin 64} {it : Item} {uid : Nat} {p : Fin 8} {k : Fin 2} (h : HomeRequest r m it uid p k)
    (hop : it.op = .memWr) (hbuf : (r.c.rooms[m]).wbuf = []) (hrsvs : (r.c.rooms[m]).rsvs = []) (hfree : r.wbFull m = false) :
    r.accept m it .home false = some ((hostBuffered r m it p).tellDone m it.src it.tin) := by
  have htwin : r.twinFor (paBlock it.pa) it.attr = false := by simp [Run.twinFor, h.mirror]
  have hrisk : ∀ r : Run, ∀ seq, r.noteRisk m seq it = r := fun r seq => by
    unfold Run.noteRisk
    simp [h.src, srcPorch, h.mirror, Run.when]
  have hbreak : (hostOpened r m it p).rsvBreak m (fun v => v.covers (paLine it.pa)) = hostOpened r m it p :=
    rsvBreak_none _ m _ ((rsvs_hostOpened r m it p).trans hrsvs)
  have hkick : (hostBuffered r m it p).twinKick m (paLine it.pa) = hostBuffered r m it p := twinKick_none _ m _ <| by
    rw [room_hostBuffered, show (withHostWrite r.c.rooms[m] it p r.c.cc).wbuf = r.c.rooms[m].wbuf ++ _ from rfl, hbuf,
      List.nil_append]
    simp only [List.mem_singleton, forall_eq]
    exact ⟨rfl, rfl⟩
  calc r.accept m it .home false
      = some (((((hostOpened r m it p).rsvBreak m fun v => v.covers (paLine it.pa)).modRoom m fun y =>
          { y with resils := y.resils.filter fun x => x.line ≠ paLine it.pa }).twinKick m (paLine it.pa)).tellDone
            m it.src it.tin) := by
        unfold Run.accept
        simp only [Room.wbOpen, Run.room, hbuf, hfree, htwin, h.src, hop, toldAtOnce, hrisk, List.find?_nil]
        simp [hostOpened, hostEntry, homeEntry, h.src, srcPorch]
    _ = some (((hostBuffered r m it p).twinKick m (paLine it.pa)).tellDone m it.src it.tin) := by rw [hbreak]; rfl
    _ = some ((hostBuffered r m it p).tellDone m it.src it.tin) := by rw [hkick]

theorem serveHome_write {r : Run} {m : Fin 64} {it : Item} {uid : Nat} {p : Fin 8} {k : Fin 2} (h : HomeRequest r m it uid p k)
    (hop : it.op = .memWr) (hbuf : (r.c.rooms[m]).wbuf = []) (hrsvs : (r.c.rooms[m]).rsvs = []) (hfree : r.wbFull m = false) :
    r.serveHome m it = (hostBuffered r m it p).tellDone m it.src it.tin := by
  have hreads : it.reads = false := by simp [Item.reads, hop, isRead]
  have hwrites : it.writes = true := by simp [Item.writes, hop, isWrite]
  unfold Run.serveHome Run.takeWrite Run.acceptOr
  rw [if_neg (by simp [hreads]), if_pos hwrites, recordThen_untracked r m it none _ h.keep,
    accept_host h hop hbuf hrsvs hfree]
  dsimp only
  rw [if_neg (by simp [hop])]
  rfl

theorem homeWriteIsAccepted : HomeWriteIsAccepted := by
  intro s m p it uid p' k r b hidle hfind hslot hsrc hop hmeta _ hkind hmirror hhome hplain hscn
  have hreq : HomeRequest r m it uid p' k := ⟨hsrc, .inr hop, hmeta, hkind, hmirror, hhome, hplain.1, hscn⟩
  obtain ⟨x, -, hkept, hentry⟩ := roomEntry_homeRequest hidle hfind hslot hreq
  have hrest := atRest_of_idleRoom hidle
  obtain ⟨-, -, -, -, -, -, -, -, -, -, -, -, hmarkers, hfree⟩ := hidle
  have hscene := scene_hostBuffered (entered r x) m it p'
  have hroom := room_hostBuffered (entered r x) m it p'
  have hsame : (entered r x).c.rooms[m] = s.c.rooms[m] := rfl
  rw [hsame] at hroom
  rw [serveHome_write (hreq.entered x) hop hrest.wbuf hrest.rsvs hfree, hsrc] at hentry
  generalize hostBuffered (entered r x) m it p' = buffered at hscene hroom hentry
  have hrun : buffered.c.tt.run = true := (congrArg Scene.run hscene).trans (run_of_slotFor hslot)
  have hwait : buffered.c.wait = s.c.wait := congrArg Scene.wait hscene
  have hfly : buffered.c.fly = s.c.fly := congrArg Scene.fly hscene
  have hchans : buffered.c.chans = s.c.chans := congrArg Scene.chans hscene
  have hporches : buffered.c.porches = x.porches := congrArg Scene.porches hscene
  have hrooms : buffered.c.rooms = s.c.rooms.set m.val (withHostWrite s.c.rooms[m] it p' s.c.cc) m.isLt :=
    congrArg Scene.rooms hscene
  rw [tellDone_host buffered hrun] at hentry
  have hends : (((buffered.post (roomCal m) 0x56 (.ans (.host uid p' k) .done) none).cohPoll m).markersMove m p) =
      buffered.post (roomCal m) 0x56 (.ans (.host uid p' k) .done) none := by
    refine entryEnds (buffered.post _ _ _ _) p ?_ ?_ ?_ ?_ ?_ <;> rw [post_c, hroom]
    exacts [hrest.cohs, hrest.snoopQ, hrest.scnBad, hrest.trks, hmarkers]
  rw [hends] at hentry
  refine ⟨_, hostEntry s.c.rooms[m] it p' s.c.cc, congrArg (fun r => Host.Outcome.next (Run.finish s r)) hentry, ?_, rfl, rfl,
    rfl, rfl, rfl, rfl, ⟨?_, hfly⟩, fun n hn => ?_, hchans, ?_, ?_⟩
  · rw [finish_c, post_c]
    refine (congrArg Room.wbuf hroom).trans ?_
    show s.c.rooms[m].wbuf ++ _ = _
    rw [hrest.wbuf]
    rfl
  · rw [finish_c, post_c, hwait, hsrc]
    rfl
  · rw [finish_c, post_c, hrooms]
    have hne : m.val ≠ n.val := fun e => hn (Fin.ext e.symm)
    simp [hne]
  · unfold keepsRequests
    rw [finish_c, post_c, hporches]
    exact hkept
  · exact keepsCells_of_scene _ s ((congrArg Scene.cells hscene).trans (cells_entered s x))

/-- Settles O5: in an idle Room a home read becomes its channel's command, and a home write an entry of the buffer that tells its
Porch; a waiter with its line passes it on. -/
theorem roomServesHomeLines : Obligations.RoomServesHomeLines :=
  ⟨homeReadGoesToItsChannel, homeWriteIsAccepted, answeredWaiterCompletes⟩

end Sys2Proof.Laws
end

section
/-! SUPPORT. The obligation about the walker and the trim, which fails on a set that holds a tag entry of an undefined
state. -/
namespace Sys2Proof.Laws
open Sys2Proof Sys2Proof.Machine Sys2Proof.Safety

/-- A House whose Room 0 trims its idle sets. Way 0 of set 0, the set under the trim pointer, has a tag entry whose STATE is
none of the six that have a meaning. -/
def oddTagState : State :=
  { c := { rooms := Vector.replicate 64 { trimWork := true }, tt := { run := true }, slots := [(0, 0xFF)] }
    m := { regs := [(0xC00830, 1)], tags := [(0, { state := 7 })] } }

/-- The visit reads the set's tags and meets the entry. -/
def oddTagVisited : State := Run.finish oddTagState ((Run.start oddTagState).trimVisit 0 {})

theorem oddTagState_quiet : quietRoom oddTagState 0 := by decide +kernel

theorem oddTagState_trims : oddTagState.c.rooms[(0 : Fin 64)].trimWork = true ∧
    (Run.start oddTagState).bit 0xC00830 0 = true ∧ (Run.start oddTagState).canIdle 0 = true := by decide +kernel

theorem oddTagState_idle : oddTagState.c.rooms[(0 : Fin 64)].jobs = [] ∧ oddTagState.c.rooms[(0 : Fin 64)].trks = [] := by
  decide +kernel

/-- The visit finds nothing to do: no entry of the set is live. -/
theorem oddTagState_clean : (Run.start oddTagState).trimWays 0 0 = [] ∧ (Run.start oddTagState).trimOver 0 0 = none := by
  decide +kernel

theorem oddTagVisited_reported : oddTagVisited.c.fbx.reported.length = 1 := by decide +kernel

/-- Refutes O28: its clause on the trim says that a visit with nothing to do changes the Room and the calendar only. A visit
reads the tags of its set, and the read of an entry whose STATE has no meaning is an event at the Fuse box. -/
theorem not_walkerAndTrimMoveOn : ¬ Obligations.WalkerAndTrimMoveOn := by
  rintro ⟨-, htrim⟩
  obtain ⟨hwork, hbit, hcan⟩ := oddTagState_trims
  obtain ⟨hjobs, htrks⟩ := oddTagState_idle
  obtain ⟨hways, hover⟩ := oddTagState_clean
  obtain ⟨t, hexec, hsame, -⟩ := htrim oddTagState 0 oddTagState_quiet hwork hbit hcan hjobs htrks hways hover
  have ht : oddTagVisited = t := Host.Outcome.next.inj hexec
  have hnone : oddTagVisited.c.fbx.reported = [] := by rw [ht, hsame]; rfl
  have hone := oddTagVisited_reported
  rw [hnone] at hone
  exact absurd hone (by decide)

end Sys2Proof.Laws
end

section
/-! SUPPORT. The obligation about image loads and the self-test, which fails on a register table that lists a register
twice. -/
namespace Sys2Proof.Laws
open Sys2Proof Sys2Proof.Machine Sys2Proof.Safety

/-- A House in RUN whose register table lists IMG_SPI_CMD twice: opcode 1, and behind it opcode 7. -/
def spiListedTwice : State := { c := { mod := { mode := .run } }, m := { regs := [(0x260, 1), (0x260, 7)] } }

/-- An SPI command of opcode 0 without address and data. The write stores 0 but for GO, which no bit of the register keeps:
it takes the first listing away, and the command that is sent is read from the second. -/
def spiSentOnce : State :=
  Run.finish spiListedTwice ((Run.start spiListedTwice).cmdWrite "IMG_SPI_CMD" (fun w => w.testBit 20) .a 0x260 0x100000)

theorem spiListedTwice_held : mgmtOpen spiListedTwice ∧ spiListedTwice.c.img.spiBusy = false := by decide +kernel

theorem spiSentOnce_side : spiSentOnce.c.out.side = [[7]] := by decide +kernel

/-- Refutes O45: its clause on the start of an SPI command does not ask for canonical tables. Where the register table lists
IMG_SPI_CMD twice, a command of opcode 0 removes the first listing only, and the opcode of the second is sent. -/
theorem not_imagesAndSelfTest : ¬ Obligations.ImagesAndSelfTest := by
  rintro ⟨-, -, -, -, hspi, -⟩
  obtain ⟨hopen, hbusy⟩ := spiListedTwice_held
  obtain ⟨t, hexec, hctl, -⟩ := hspi spiListedTwice .a 0x100000 hopen hbusy (by decide) (by decide)
  have ht : spiSentOnce = t := Host.Outcome.next.inj hexec
  have hside : spiSentOnce.c.out.side = [[0]] := by rw [ht, hctl]; rfl
  exact absurd (spiSentOnce_side.symm.trans hside) (by decide)

end Sys2Proof.Laws
end

section
/-! SUPPORT. What a transfer that sets out over the Hallway leaves (R17, R236), and the obligation about writes that go home
(R105, R127, R132). -/
namespace Sys2Proof.Laws
open Sys2Proof Sys2Proof.Machine Sys2Proof.Safety Sys2Proof.Claim

/-! ## A transfer sets out -/

/-- What a transfer meets as it sets out, and what it changes: transfers on their way and those that wait, the lanes taken in
this cc, and the cc. -/
def traffic (c : Ctl) : List Fly × Nat × List Xfer × List (Nat × Nat × Nat) × Nat := (c.fly, c.flyNo, c.wait, c.lanes, c.cc)

/-- What a collision does to a transfer is no more than damage. -/
theorem map_clean_damaged (fs : List Fly) (p : Fly → Bool) :
    (fs.map fun f => if p f then { f with bad := true } else f).map Fly.clean = fs.map Fly.clean := by
  rw [List.map_map]
  refine List.map_congr_left fun f _ => ?_
  show Fly.clean (if p f then { f with bad := true } else f) = Fly.clean f
  split <;> rfl

/-- A list has a hit when one of its members is one. -/
theorem hits_nonempty {α β : Type} (p : α → Bool) (f : α → β) (xs : List α) :
    (!((xs.filter p).map f).isEmpty) = xs.any p := by
  induction xs with
  | nil => rfl
  | cons x xs ih => cases h : p x <;> simp [h] at ih ⊢; exact ih

@[simp] theorem launch_rooms (r : Run) (k j : Nat) (x : Load) (queued : Bool) :
    (r.launch k j x queued).c.rooms = r.c.rooms := rfl
@[simp] theorem launch_chans (r : Run) (k j : Nat) (x : Load) (queued : Bool) :
    (r.launch k j x queued).c.chans = r.c.chans := rfl
@[simp] theorem launch_porches (r : Run) (k j : Nat) (x : Load) (queued : Bool) :
    (r.launch k j x queued).c.porches = r.c.porches := rfl

/-- A launched transfer sets out, whatever else the command has done and goes on to do. -/
theorem setsOut_launch {s t : State} {r : Run} {k j : Nat} {x : Load} {queued : Bool} (hr : traffic r.c = traffic s.c)
    (ht : traffic t.c = traffic (r.launch k j x queued).c) : setsOut s t k j x queued := by
  simp only [traffic, Prod.mk.injEq] at hr ht
  obtain ⟨hfly, hno, hwait, hlanes, hcc⟩ := hr
  obtain ⟨htfly, htno, htwait, -, -⟩ := ht
  refine ⟨_, _, htfly, ?_, ?_, ?_, ?_, htwait.trans hwait⟩
  · rw [map_clean_damaged, hfly]
  · rw [← hno, ← hcc]
    rfl
  · rw [← hlanes]
    exact hits_nonempty _ _ _
  · rw [htno, ← hno]
    rfl

/-! ## A Mudroom line goes home (R127, R132) -/

variable (r : Run)

/-- The Room with these Mudroom entries. -/
def setMud (m : Fin 64) (es : List MudEnt) : Run := r.modRoom m fun y => { y with mud := es }

theorem room_setMud (m : Fin 64) (es : List MudEnt) : (setMud r m es).c.rooms[m] = { r.c.rooms[m] with mud := es } :=
  room_modRoom_self r m _

theorem modMud_single {m : Fin 64} {e : MudEnt} (f : MudEnt → MudEnt) (h : (r.c.rooms[m]).mud = [e]) :
    r.modMud m e.seq f = setMud r m [f e] :=
  modRoom_congr r m <| by rw [h, List.map_singleton, if_pos rfl]

/-- The next request to House `e` has taken its number (R310). -/
def numbered (e : BitVec 6) : Run :=
  r.modPeer e fun p => { p with txEseq := p.txEseq.set 0 ((r.peer e).txEseq[0] + 1) }

theorem number_request (f : FMsg) (h : opClass f.op = 0) :
    r.number f = (numbered r f.dst, { f with eseq := (r.peer f.dst).txEseq[0] }) := by
  simp [Run.number, numbered, fin3, h]

/-- A request takes its number on its way to the Door of its route. -/
theorem msgGo_request {k : Nat} {f : FMsg} {d : Fin 8} (stamp : Stamp) (queued : Bool) (hclass : opClass f.op = 0)
    (hdead : r.dead f.dst = false) (hroute : r.route f.dst = .go d) : r.msgGo k f stamp queued =
      (numbered r f.dst).launch k (doorCal d) (.msg { f with eseq := (r.peer f.dst).txEseq[0] } stamp) queued := by
  unfold Run.msgGo
  rw [if_neg (ne_true_of_eq_false hdead), hroute, number_request r f hclass]

/-- The entry, when its line has set out. -/
def MudEnt.gone (e : MudEnt) : MudEnt := { e with st := .writing, owners := [] }

/-- The House that the entry's line goes home to. -/
def mudHome (e : MudEnt) : BitVec 6 := r.homeOf (lineBlk e.line) e.attr.mirror

/-- The write-back of the entry's line (R127). -/
def wbMsg (m : Fin 64) (e : MudEnt) : FMsg :=
  { r.mkMsg Op.wb (mudHome r e) e.line e.attr (mkTag m (256 + e.idx)) with
    line := e.data, poison := e.poison, eseq := (r.peer (mudHome r e)).txEseq[0] }

/-- The entry's slot has come, and its write-back has its number. -/
def mudNumbered (m : Fin 64) (e : MudEnt) : Run :=
  numbered (setMud (r.grant (roomCal m) 0x58) m [MudEnt.gone e]) (mudHome r e)

theorem rooms_mudNumbered (m : Fin 64) (e : MudEnt) :
    (mudNumbered r m e).c.rooms = (setMud (r.grant (roomCal m) 0x58) m [MudEnt.gone e]).c.rooms := rfl

/-- The write-back has set out for Door `d`, by way of the home-write queue. -/
def mudSent (m : Fin 64) (e : MudEnt) (d : Fin 8) : Run :=
  ((mudNumbered r m e).launch (roomCal m) (doorCal d) (.msg (wbMsg r m e) r.ftNs) true).modRoom m
    fun y => { y with homeQ := y.homeQ.add r.c.flyNo }

/-- An eligible entry alone in its Room, whose home is another House with a route, sends its line in its slot. -/
theorem mudWrite_routed {m : Fin 64} {e : MudEnt} {d : Fin 8} (hmud : (r.c.rooms[m]).mud = [e])
    (helig : r.mudEligible m e = true) (hfence : r.fenced (unitRoom m) = false) (hslot : r.canGrant (roomCal m) 0x58 = true)
    (hother : mudHome r e ≠ r.myId) (hdead : r.dead (mudHome r e) = false) (hroute : r.route (mudHome r e) = .go d)
    (howners : e.owners = []) : r.mudWrite m = mudSent r m e d := by
  have hfind : ((r.room m).mud.find? fun e => r.mudEligible m e) = some e := by
    rw [show (r.room m).mud = [e] from hmud, List.find?_cons_of_pos helig]
  have hsend : r.canSend (r.homeOf (lineBlk e.line) e.attr.mirror) = true := by
    unfold Run.canSend
    rw [show r.route (r.homeOf _ _) = .go d from hroute]
    simp
  unfold Run.mudWrite
  rw [hfind]
  refine (if_neg (by simp [hfence, hsend])).trans ((inSlot_of_grant r _ hslot).trans
    ((if_neg (ne_true_of_eq_false hdead)).trans ((if_neg hother).trans ?_)))
  extract_lets marked retired f no sent
  have hretired : retired = setMud (r.grant (roomCal m) 0x58) m [MudEnt.gone e] := by
    unfold retired marked
    rw [howners]
    exact modMud_single (r.grant _ _) _ hmud
  have hsent : sent = (mudNumbered r m e).launch (roomCal m) (doorCal d) (.msg (wbMsg r m e) r.ftNs) true := by
    unfold sent f
    rw [hretired]
    exact msgGo_request _ _ true rfl hdead hroute
  have hno : no = r.c.flyNo := by
    unfold no
    rw [hretired]
    rfl
  rw [hno, hsent]
  exact if_pos (decide_eq_true (Nat.succ_ne_self _))

theorem room_mudSent (m : Fin 64) (e : MudEnt) (d : Fin 8) : (mudSent r m e d).c.rooms[m] =
    { r.c.rooms[m] with mud := [MudEnt.gone e], homeQ := (r.c.rooms[m]).homeQ.add r.c.flyNo } := by
  unfold mudSent
  rw [room_modRoom_self, launch_rooms, rooms_mudNumbered, room_setMud]
  rfl

theorem rooms_mudSent_ne {m n : Fin 64} (e : MudEnt) (d : Fin 8) (h : n ≠ m) :
    (mudSent r m e d).c.rooms[n] = r.c.rooms[n] := by
  unfold mudSent
  rw [room_modRoom_ne _ _ h, launch_rooms, rooms_mudNumbered]
  exact room_modRoom_ne _ _ h

theorem chans_mudSent (m : Fin 64) (e : MudEnt) (d : Fin 8) : (mudSent r m e d).c.chans = r.c.chans := by
  simp [mudSent, mudNumbered, numbered, Run.modPeer, setMud]

theorem porches_mudSent (m : Fin 64) (e : MudEnt) (d : Fin 8) : (mudSent r m e d).c.porches = r.c.porches := by
  simp [mudSent, mudNumbered, numbered, Run.modPeer, setMud]

theorem mudroomLineGoesHome : MudroomLineGoesHome := by
  intro s m e d r dst hmud helig hfence hslot hother hrouted howners
  obtain ⟨hdead, hroute⟩ := hrouted
  have hdone := mudWrite_routed r hmud helig hfence hslot hother hdead hroute howners
  have hroom := room_mudSent r m e d
  refine ⟨_, wbMsg r m e, r.ftNs, congrArg (fun r => Host.Outcome.next (Run.finish s r)) hdone,
    setsOut_launch (r := mudNumbered r m e) rfl rfl, rfl, rfl, rfl, rfl, rfl, rfl, rfl, congrArg Room.homeQ hroom,
    ⟨_, congrArg Room.mud hroom, rfl, rfl⟩, fun n hn => rooms_mudSent_ne r e d hn, chans_mudSent r m e d,
    porches_mudSent r m e d, ?_⟩
  exact keepsCells_of_log s _ fun o ho => absurd ho List.not_mem_nil

/-! ## A whole home line drains (R105) -/

theorem modRoom_modRoom (m : Fin 64) (f g : Room → Room) : (r.modRoom m f).modRoom m g = r.modRoom m fun y => g (f y) := by
  simp [Run.modRoom, Run.setRoom, Run.room]

/-- The only transfer that has joined those of its Room in a step goes at once, and the others stay. -/
theorem outNow_toChan (m : Fin 64) (o : ChanOut) : (r.toChan m o).outNow m (r.room m).outC.length = r.outSend m o := by
  have hjoined : ((r.toChan m o).room m).outC = (r.room m).outC ++ [o] := congrArg Room.outC (room_modRoom_self r m _)
  unfold Run.outNow
  rw [hjoined, List.drop_left]
  unfold Run.toChan
  rw [modRoom_modRoom, modRoom_fix]
  · rfl
  · show { r.c.rooms[m] with outC := ((r.c.rooms[m]).outC ++ [o]).take (r.c.rooms[m]).outC.length } = r.c.rooms[m]
    rw [List.take_left]

/-- An entry without requests has none to retire. -/
theorem wbRetire_free {m : Fin 64} {e : WbEnt} (hwbuf : (r.c.rooms[m]).wbuf = [e]) (howners : e.owners = []) :
    r.wbRetire m e.seq = r := by
  have hfind : ((r.room m).wbuf.find? fun x => x.seq = e.seq) = some e := by
    rw [show (r.room m).wbuf = [e] from hwbuf]
    simp
  unfold Run.wbRetire
  rw [hfind, modWb_single r _ hwbuf]
  dsimp only
  rw [howners, show ({ e with owners := [] } : WbEnt) = e by cases e; subst howners; rfl]
  exact modRoom_fix r m (fun y => { y with wbuf := [e] }) (by rw [← hwbuf])

/-- The entry, when its line has set out. -/
def WbEnt.gone (e : WbEnt) : WbEnt := { e with st := .issued }

/-- The channel of the entry's line at home. -/
def homeChan (e : WbEnt) : Fin 16 := (r.homePlace (lineBlk e.line) (lineNo e.line)).1

/-- The Cellar write of the entry's line to its home frame. -/
def homeWriteCmd (m : Fin 64) (e : WbEnt) : CelCmd :=
  { m := m, idx := (r.homePlace (lineBlk e.line) (lineNo e.line)).2, write := true, pa := linePa e.line,
    tenant := e.attr.tenant, data := e.data, md := homeMeta e.attr.tenant (r.cls e.attr.cls).lcode e.poison,
    wb := some e.seq, charge := e.attr.tenant, tin := e.tin }

/-- The entry's slot has come. -/
def lineIssued (m : Fin 64) (e : WbEnt) : Run := setWbuf (r.grant (roomCal m) 0x57) m [WbEnt.gone e]

/-- Its line has set out for its channel. -/
def lineSent (m : Fin 64) (e : WbEnt) : Run :=
  (lineIssued r m e).launch (roomCal m) (chanCal (homeChan r e)) (.cel (homeChan r e) (homeWriteCmd r m e))

theorem room_lineIssued (m : Fin 64) (e : WbEnt) :
    (lineIssued r m e).c.rooms[m] = { r.c.rooms[m] with wbuf := [WbEnt.gone e] } := room_setWbuf (r.grant _ _) m _

theorem rooms_lineSent_ne {m n : Fin 64} (e : WbEnt) (h : n ≠ m) : (lineSent r m e).c.rooms[n] = r.c.rooms[n] := by
  unfold lineSent
  rw [launch_rooms]
  exact room_modRoom_ne _ _ h

/-- A whole line goes home as one write, on a channel that is not lost. -/
theorem drainHome_whole {m : Fin 64} {e : WbEnt} (hmask : e.mask = fullMask) (hchan : r.lostChan (homeChan r e) = false) :
    r.drainHome m e = r.toChan m (.cmd (homeChan r e) (homeWriteCmd r m e)) :=
  (if_pos hmask).trans (if_neg (ne_true_of_eq_false hchan))

/-- An eligible entry alone in its Room, whose whole line goes to a channel that is not lost, drains in its slot. -/
theorem wbDrain_whole {m : Fin 64} {e : WbEnt} (hwbuf : (r.c.rooms[m]).wbuf = [e]) (helig : r.wbEligible m e = true)
    (hfence : r.fenced (unitRoom m) = false) (hslot : r.canGrant (roomCal m) 0x57 = true) (hhome : e.home = true)
    (hfwd : e.fwd = false) (hmask : e.mask = fullMask) (hchan : r.lostChan (homeChan r e) = false) (howners : e.owners = []) :
    r.wbDrain m 0 = lineSent r m e := by
  have hroom : (r.room m).wbuf = [e] := hwbuf
  have hfirst : r.wbFirst m e = true := by simp [Run.wbFirst, hroom]
  unfold Run.wbDrain
  rw [hroom, List.filter_cons_of_pos helig]
  refine (if_neg (by simp [hfence, hfirst])).trans ?_
  rw [hfwd]
  refine (inSlot_of_grant r _ hslot).trans ?_
  extract_lets n issued
  have hissued : issued = lineIssued r m e := modWb_single (r.grant _ _) _ hwbuf
  have hn : n = ((lineIssued r m e).room m).outC.length := by
    rw [show (lineIssued r m e).room m = _ from room_lineIssued r m e]
    rfl
  rw [if_neg Bool.false_ne_true, if_pos hhome, hissued, hn, drainHome_whole (lineIssued r m e) hmask hchan, outNow_toChan]
  exact wbRetire_free (e := WbEnt.gone e) (lineSent r m e) (congrArg Room.wbuf (room_lineIssued r m e)) howners

theorem wholeHomeLineDrains : WholeHomeLineDrains := by
  intro s m w r
  generalize hplace : r.homePlace (lineBlk w.line) (lineNo w.line) = place
  obtain ⟨c, idx⟩ := place
  obtain rfl : homeChan r w = c := congrArg Prod.fst hplace
  obtain rfl : (homeWriteCmd r m w).idx = idx := congrArg Prod.snd hplace
  intro hwbuf helig hfence hslot hhome hfwd hmask hchan howners
  have hdone := wbDrain_whole r hwbuf helig hfence hslot hhome hfwd hmask hchan howners
  have hroom : (lineSent r m w).c.rooms[m] = { s.c.rooms[m] with wbuf := [WbEnt.gone w] } := room_lineIssued r m w
  refine ⟨_, homeWriteCmd r m w, congrArg (fun r => Host.Outcome.next (Run.finish s r)) hdone,
    setsOut_launch (r := lineIssued r m w) rfl rfl, rfl, rfl, rfl, rfl, rfl, ⟨_, congrArg Room.wbuf hroom, rfl, rfl⟩,
    (congrArg Room.outC hroom).trans rfl, fun n hn => rooms_lineSent_ne r w hn, ?_, ?_, ?_⟩
  · simp [lineSent, lineIssued, r]
  · simp [lineSent, lineIssued, r]
  · exact keepsCells_of_log s _ fun o ho => absurd ho List.not_mem_nil

/-- Settles O10: a whole home line drains as one write toward its channel, and a Mudroom line as one WB toward its home. -/
theorem writesGoHome : Obligations.WritesGoHome := ⟨wholeHomeLineDrains, mudroomLineGoesHome⟩

end Sys2Proof.Laws
end

section
/-! SUPPORT. The obligation about Streaming writes in the Landing (R115–R117, R132). -/
namespace Sys2Proof.Laws
open Sys2Proof Sys2Proof.Machine Sys2Proof.Safety Sys2Proof.Claim

variable (r : Run)

theorem modPorch_modPorch (p : Fin 8) (f g : Porch → Porch) :
    (r.modPorch p f).modPorch p g = r.modPorch p fun x => g (f x) := by
  simp [Run.modPorch, Run.setPorch, Run.porch]

theorem modPorch_congr (p : Fin 8) {f g : Porch → Porch} (h : f r.c.porches[p] = g r.c.porches[p]) :
    r.modPorch p f = r.modPorch p g := congrArg (r.setPorch p) h

/-! ## An entry drains (R116, R132) -/

/-- The Porch with the entry Draining, and its drain noted as sent. -/
def Porch.drains (x : Porch) (p : Fin 8) (e : Land) : Porch :=
  { x with lands := x.lands.map fun y => if y.seq = e.seq then { y with draining := true } else y,
           landSent := x.landSent ++ [{ seq := e.seq, place := x.nextUid, room := e.room, item := e.item p }],
           nextUid := x.nextUid + 1 }

/-- The entry has become Draining in its slot. -/
def landDraining (p : Fin 8) (e : Land) : Run := (r.grant (porchCal p) 0x54).modPorch p fun x => Porch.drains x p e

/-- Where no drain has been called back, the oldest eligible entry sets out in its slot. -/
theorem landDrain_eligible {p : Fin 8} {e : Land} (hagain : ((r.porch p).landSent.any fun d => r.canResend p d) = false)
    (hfirst : ((r.porch p).lands.find? fun e => r.landEligible p e) = some e) (hslot : r.canGrant (porchCal p) 0x54 = true) :
    r.landDrain p = (landDraining r p e).toHallWords p (r.serving e.room) (e.item p) := by
  have hnone : ((r.porch p).landSent.find? fun d => r.canResend p d) = none := by
    rw [List.find?_eq_none]
    exact List.any_eq_false.mp hagain
  unfold Run.landDrain
  rw [hnone, hfirst]
  exact inSlot_of_grant r _ hslot

theorem porch_landDraining (p : Fin 8) (e : Land) :
    (landDraining r p e).c.porches[p] = Porch.drains r.c.porches[p] p e := porch_modPorch_self (r.grant _ _) p _

theorem porch_toHallWords (p : Fin 8) (m : Fin 64) (it : Item) : (r.toHallWords p m it).c.porches[p] =
    { r.c.porches[p] with drainQ := (r.c.porches[p]).drainQ.add r.c.flyNo } := porch_modPorch_self (r.launch _ _ _ true) p _

theorem landingDrainSendsOneWrite : LandingDrainSendsOneWrite := by
  intro s p e r hagain hfirst hslot
  have hporch := porch_toHallWords (landDraining r p e) p (r.serving e.room) (e.item p)
  rw [porch_landDraining] at hporch
  refine ⟨_, e.item p, congrArg (fun r => Host.Outcome.next (Run.finish s r)) (landDrain_eligible r hagain hfirst hslot),
    setsOut_launch (r := landDraining r p e) rfl rfl, congrArg Porch.drainQ hporch, rfl, rfl, rfl, rfl, rfl,
    congrArg Porch.lands hporch, ?_, ?_, ?_, ?_⟩ <;> rfl

/-! ## An acceptance frees its entry (R117) -/

/-- Marking drains as done changes nothing else of a Porch. -/
theorem forEach_modSent (p : Fin 8) (f : LandSent → LandSent) (es : List Land) :
    ∃ ds, (r.forEach es fun e r => r.modSent p e.seq f) = r.modPorch p fun x => { x with landSent := ds } := by
  induction es generalizing r with
  | nil => exact ⟨(r.c.porches[p]).landSent, (modPorch_fix r p _ rfl).symm⟩
  | cons e es ih =>
    obtain ⟨ds, hds⟩ := ih (r.modSent p e.seq f)
    exact ⟨ds, hds.trans (modPorch_modPorch r p _ _)⟩

/-- The Porch without the entries that `f` names, freed in cc `cc`; `ds` are the drains that it still keeps. -/
def Porch.freed (x : Porch) (f : Land → Bool) (cc : Nat) (ds : List LandSent) : Porch :=
  { x with lands := x.lands.filter fun e => !(f e), lndFreed := freedMore x.lndFreed cc (x.lands.filter f).length,
           landSent := ds }

theorem landDrop_eq (p : Fin 8) (f : Land → Bool) :
    ∃ ds, r.landDrop p f = r.modPorch p fun x => Porch.freed x f r.c.cc ds := by
  obtain ⟨ds, hds⟩ := forEach_modSent (r.modPorch p fun x =>
    { x with lands := x.lands.filter fun e => !(f e),
             lndFreed := freedMore x.lndFreed r.c.cc ((r.porch p).lands.filter f).length }) p
    (fun d => { d with done := true }) ((r.porch p).lands.filter f)
  exact ⟨ds, hds.trans (modPorch_modPorch r p _ _)⟩

/-- The first acceptance, of entry `n`, has freed it. -/
def landAcked (p : Fin 8) (n : Nat) (rest : List Nat) (ds : List LandSent) : Run :=
  r.modPorch p fun x => Porch.freed { x with lndAcks := rest } (fun e => e.seq = n) r.c.cc ds

theorem porch_landAcked (p : Fin 8) (n : Nat) (rest : List Nat) (ds : List LandSent) : (landAcked r p n rest ds).c.porches[p] =
    Porch.freed { r.c.porches[p] with lndAcks := rest } (fun e => e.seq = n) r.c.cc ds := porch_modPorch_self r p _

/-- At a quiet Porch nothing follows. -/
theorem landFree_quiet {s : State} {p : Fin 8} {n : Nat} {rest : List Nat} (hacks : (s.c.porches[p]).lndAcks = n :: rest)
    (hquiet : quietPorch s p) : ∃ ds, (Run.start s).landFree p = landAcked (Run.start s) p n rest ds := by
  obtain ⟨hbuf, hbars, hstore⟩ := hquiet
  obtain ⟨ds, hdrop⟩ := landDrop_eq ((Run.start s).modPorch p fun x => { x with lndAcks := rest }) p fun e => e.seq = n
  have hacked : _ = landAcked (Run.start s) p n rest ds := hdrop.trans (modPorch_modPorch _ p _ _)
  refine ⟨ds, ?_⟩
  unfold Run.landFree
  rw [show ((Run.start s).porch p).lndAcks = n :: rest from hacks]
  dsimp only
  rw [hacked]
  refine settle_quiet _ p ?_ ?_ ?_ ?_
  all_goals rw [porch_landAcked]
  · exact hbuf
  · exact hbars
  · intro e he uid q k slot hsrc
    have hplain := (hstore e he).1
    rw [hsrc] at hplain
    exact nomatch hplain
  · exact fun e he => (hstore e he).2

theorem acceptanceFreesLandingEntry : AcceptanceFreesLandingEntry := by
  intro s p n rest hacks hquiet
  obtain ⟨ds, hdone⟩ := landFree_quiet hacks hquiet
  have hporch := porch_landAcked (Run.start s) p n rest ds
  refine ⟨_, congrArg (fun r => Host.Outcome.next (Run.finish s r)) hdone, (congrArg Porch.lands hporch).trans ?_,
    congrArg Porch.lndAcks hporch, rfl, ⟨rfl, rfl, rfl⟩, rfl, rfl⟩
  simp [Porch.freed]

/-! ## A Streaming write completes into the Landing (R115) -/

/-- The Porches have become `ps`; besides, only counts and meters have changed. -/
structure AtPorches (ps : Vector Porch 8) (r r' : Run) : Prop where
  ctl : ∃ x, r'.c = { r.c with porches := ps, mtr := x }
  log : ∃ os, (∀ o ∈ os, cellFree o = true) ∧ r'.log = os ++ r.log

variable {r}

theorem AtPorches.porches {ps : Vector Porch 8} {r' : Run} (h : AtPorches ps r r') : r'.c.porches = ps := by
  obtain ⟨x, hc⟩ := h.ctl
  rw [hc]

theorem AtPorches.trans {ps qs : Vector Porch 8} {r' r'' : Run} (h : AtPorches ps r r') (h' : AtPorches qs r' r'') :
    AtPorches qs r r'' := by
  obtain ⟨x, hc⟩ := h.ctl
  obtain ⟨x', hc'⟩ := h'.ctl
  obtain ⟨os, hos, hlog⟩ := h.log
  obtain ⟨os', hos', hlog'⟩ := h'.log
  refine ⟨⟨x', by rw [hc', hc]⟩, os' ++ os, fun o ho => ?_, by rw [hlog', hlog, List.append_assoc]⟩
  exact (List.mem_append.mp ho).elim (hos' o) (hos o)

theorem AtPorches.refl (r : Run) : AtPorches r.c.porches r r := ⟨⟨_, rfl⟩, [], by simp, rfl⟩

theorem atPorches_modPorch (r : Run) (p : Fin 8) (f : Porch → Porch) :
    AtPorches (r.modPorch p f).c.porches r (r.modPorch p f) := ⟨⟨_, rfl⟩, [], by simp, rfl⟩

theorem atPorches_setReg (r : Run) (a v : Nat) : AtPorches r.c.porches r (r.setReg a v) :=
  ⟨⟨_, rfl⟩, [_], by simp [cellFree], rfl⟩

theorem atPorches_peak (r : Run) (a v : Nat) : AtPorches r.c.porches r (r.peak a v) := by
  unfold Run.peak
  split
  · exact atPorches_setReg r a v
  · exact .refl r

theorem atPorches_meterAdd (r : Run) (bank : Bool) (t : Nat) (k : Meter) (n : Nat) :
    AtPorches r.c.porches r (r.meterAdd bank t k n) := by
  unfold Run.meterAdd
  split
  · exact .refl r
  · exact ⟨⟨_, rfl⟩, [_], by simp [cellFree], rfl⟩

theorem atPorches_charge (r : Run) (t : BitVec 12) (k : Meter) (n : Nat) (stamp : Stamp) :
    AtPorches r.c.porches r (r.charge t k n stamp) := by
  have hadd := atPorches_meterAdd r (r.stampBank stamp) t.toNat k n
  unfold Run.charge Run.when
  extract_lets bank added
  split
  · exact hadd.trans ⟨⟨_, by rw [← hadd.porches]; rfl⟩, [], by simp, rfl⟩
  · exact hadd

theorem atPorches_chargeReq (r : Run) (q : HostReq) (op : ROp) (t : BitVec 12) :
    AtPorches r.c.porches r (r.chargeReq q op t) := by
  unfold Run.chargeReq
  split
  · exact atPorches_charge r _ _ _ _
  · split
    · exact atPorches_charge r _ _ _ _
    · exact .refl r

/-- A request that `h` names is counted as held. -/
def noteHeld (h : Ent → Bool) (e : Ent) : Ent := if h e then { e with held := true } else e

theorem bare_noteHeld (h : Ent → Bool) (e : Ent) : Ent.bare (noteHeld h e) = Ent.bare e := by
  unfold noteHeld
  split <;> rfl

/-- The Porch with these notes. -/
def Porch.noted (x : Porch) (h : Ent → Bool) : Porch := { x with store := x.store.map (noteHeld h) }

theorem noted_none (x : Porch) : Porch.noted x (fun _ => false) = x := by
  unfold Porch.noted
  rw [show noteHeld (fun _ => false) = id from rfl, List.map_id]

/-- A recount of held requests notes them, and no more. -/
theorem ordHolds_notes (r : Run) (p : Fin 8) :
    ∃ h, AtPorches (r.modPorch p fun x => Porch.noted x h).c.porches r (r.ordHolds p) := by
  unfold Run.ordHolds
  extract_lets x held n
  split
  · refine ⟨fun _ => false, ?_⟩
    rw [modPorch_fix r p _ (noted_none _)]
    exact .refl r
  · exact ⟨held, (atPorches_modPorch r p _).trans (atPorches_setReg _ _ _)⟩

/-- The Porch with one request more. -/
def Porch.joined (x : Porch) (e : Ent) : Porch := { x with store := x.store ++ [e], nextUid := x.nextUid + 1 }

/-- A request that is answered as it is admitted joins the store. -/
theorem enqueue_answered (r : Run) (q : HostReq) (it : Item) (a : Ans) (seq : Nat) : ∃ ps h e,
    AtPorches ps r (r.enqueue q it (some a) false (some seq)) ∧
      ps[q.p] = Porch.noted (Porch.joined r.c.porches[q.p] e) h ∧ e.tag = q.tag ∧ e.ans = some a := by
  unfold Run.enqueue
  extract_lets x room e
  change ∃ ps h e', AtPorches ps r ((r.modPorch q.p fun x => Porch.joined x e).ordHolds q.p) ∧ _
  obtain ⟨h, hnote⟩ := ordHolds_notes (r.modPorch q.p fun x => Porch.joined x e) q.p
  refine ⟨_, h, e, (atPorches_modPorch r q.p _).trans hnote, ?_, rfl, rfl⟩
  rw [porch_modPorch_self, porch_modPorch_self]

/-- The entry that a write opens (R115). -/
def landFor (r : Run) (p : Fin 8) (it : Item) : Land :=
  { seq := (r.porch p).nextSeq, line := paLine it.pa, attr := it.attr, oid := it.oid, data := it.data, mask := it.mask,
    poison := it.poison, openedCc := r.c.cc, room := r.roomOf (paBlock it.pa), tin := it.tin, place := (r.porch p).nextUid }

/-- The Porch with this entry alone in its Landing. -/
def Porch.landed (x : Porch) (l : Land) : Porch := { x with lands := [l], nextSeq := x.nextSeq + 1 }

/-- Porch `q.p` takes the Streaming write into its empty Landing: nothing holds the write back, and an entry can be opened. -/
structure TakesLanding (r : Run) (q : HostReq) (pa : PoolAddr) (a : Attr) : Prop where
  store : (r.c.porches[q.p]).store.length < 2048
  lands : (r.c.porches[q.p]).lands = []
  free : takenIn (r.c.porches[q.p]).lndFreed r.c.cc 0 < 128
  noWait : ((r.c.porches[q.p]).store.any fun e => e.landWait) = false
  noOid : r.oidWaits q.p (r.ordId q.p a.tenant (paBlock pa)) = false
  toLanding : toLanding .memWr q.meta' a = true

/-- The write as an item. -/
def wrItem (r : Run) (q : HostReq) (pa : PoolAddr) (a : Attr) : Item := r.mkItem q .memWr pa a (r.porch q.p).nextUid

theorem landInsert_opens {q : HostReq} {pa : PoolAddr} {a : Attr} (h : TakesLanding r q pa a) (it : Item) :
    ∃ r' n, r.landInsert q.p it = some (r', n) ∧
      AtPorches (r.modPorch q.p fun x => Porch.landed x (landFor r q.p it)).c.porches r r' := by
  unfold Run.landInsert
  extract_lets x
  rw [show x.lands = [] from h.lands]
  refine ⟨_, _, if_neg (Nat.not_le.mpr h.free), ?_⟩
  rw [modPorch_congr r q.p (f := fun x => Porch.landed x (landFor r q.p it))
    (g := fun x => { x with lands := x.lands ++ [landFor r q.p it], nextSeq := x.nextSeq + 1 }) (by rw [h.lands]; rfl)]
  exact (atPorches_modPorch r q.p _).trans (atPorches_peak _ _ _)

/-- The write goes into the Landing, and is answered at its Porch (R115). -/
theorem admitReq_landing {q : HostReq} {pa : PoolAddr} {a : Attr} {r' : Run} {n : Nat} (h : TakesLanding r q pa a)
    (hinsert : r.landInsert q.p (wrItem r q pa a) = some (r', n)) : r.admitReq { q := q, op := .memWr } pa a =
      (r'.chargeReq q .memWr a.tenant).enqueue q (wrItem r q pa a) (some .done) false (some n) := by
  have hnone : ∀ p : Ent → Bool, ((r.porch q.p).store.any fun e => e.landWait && p e) = false := by
    have hwait := h.noWait
    simp only [List.any_eq_false] at hwait ⊢
    exact fun p e he hp => hwait e he (Bool.and_eq_true_iff.mp hp).1
  have hroom : (r.oidWaits q.p (r.ordId q.p a.tenant (paBlock pa)) || decide (2048 ≤ (r.porch q.p).store.length)) = false :=
    Bool.or_eq_false_iff.mpr ⟨h.noOid, decide_eq_false (Nat.not_le.mpr h.store)⟩
  unfold Run.admitReq
  refine (if_neg (by simp)).trans ((if_neg (ne_true_of_eq_false hroom)).trans ((if_pos h.toLanding).trans
    ((if_neg ?_).trans ?_)))
  · simp only [Bool.and_assoc, hnone]
    exact Bool.false_ne_true
  · dsimp only
    rw [show r.landInsert q.p (r.mkItem q .memWr pa a (r.porch q.p).nextUid) = some (r', n) from hinsert]
    rfl

/-- What the write leaves of its Porch: its entry, and its answered request. -/
theorem porch_admitReq_landing {q : HostReq} {pa : PoolAddr} {a : Attr} (h : TakesLanding r q pa a) : ∃ ps hold e,
    AtPorches ps r (r.admitReq { q := q, op := .memWr } pa a) ∧
      ps[q.p] = Porch.noted (Porch.joined (Porch.landed r.c.porches[q.p] (landFor r q.p (wrItem r q pa a))) e) hold ∧
      e.tag = q.tag ∧ e.ans = some .done := by
  obtain ⟨inserted, n, hinsert, hopen⟩ := landInsert_opens h (wrItem r q pa a)
  have hcharge := hopen.trans (hopen.porches ▸ atPorches_chargeReq inserted q .memWr a.tenant)
  obtain ⟨ps, hold, e, hjoin, hps, htag, hans⟩ :=
    enqueue_answered (inserted.chargeReq q .memWr a.tenant) q (wrItem r q pa a) .done n
  rw [admitReq_landing h hinsert]
  refine ⟨ps, hold, e, hcharge.trans hjoin, ?_, htag, hans⟩
  rw [hps, hcharge.porches, porch_modPorch_self]

/-! ### The whole write -/

/-- The command at work, once the write's message has come out of its crossing. -/
def wrCame (s : State) (q : HostReq) : Run := (Run.start s).took (.ingress q.p q.k) 2

/-- A write that passes its checks is admitted outside DRAIN. -/
theorem hostReq_admits {s : State} {q : HostReq} {pa : PoolAddr} {a : Attr} (hup : ((Run.start s).link q.p q.k).up = true)
    (hmode : (Run.start s).mode ≠ .drain) (hcheck : (Run.start s).check q = .ok pa a) :
    (Run.start s).hostReq q .memWr = (wrCame s q).admitReq { q := q, op := .memWr } pa a := by
  have htook : (Run.start s).linkTook q.p q.k (isWrite .memWr) = wrCame s q := if_pos hup
  have hlink : (!((wrCame s q).link q.p q.k).up) = false := congrArg not hup
  unfold Run.hostReq Run.ingress
  rw [htook, if_neg (ne_true_of_eq_false hlink)]
  refine (if_neg hmode).trans ?_
  rw [show (wrCame s q).check q = .ok pa a from hcheck]

theorem streamingWriteOpensLanding : StreamingWriteOpensLanding := by
  intro s q pa a r x hup hmode hcheck hstore hlands hfree hwait hoid hland
  have htakes : TakesLanding (wrCame s q) q pa a := ⟨hstore, hlands, hfree, hwait, hoid, hland⟩
  obtain ⟨ps, hold, e, hat, hps, htag, hans⟩ := porch_admitReq_landing htakes
  rw [← hostReq_admits hup hmode hcheck] at hat
  rw [← hat.porches] at hps
  obtain ⟨mtr, hc⟩ := hat.ctl
  obtain ⟨os, hos, hlog⟩ := hat.log
  have hbare := bare_noteHeld hold e
  refine ⟨_, rfl,
    ⟨landFor (wrCame s q) q.p (wrItem (wrCame s q) q pa a), congrArg Porch.lands hps, rfl, rfl, rfl, rfl, rfl⟩,
    ⟨x.store.map (noteHeld hold), noteHeld hold e, (congrArg Porch.store hps).trans ?_, ?_,
      (congrArg Ent.tag hbare).trans htag, (congrArg Ent.ans hbare).trans hans⟩, ?_, ?_, ?_⟩
  · exact List.map_append
  · rw [List.map_map]
    exact List.map_congr_left fun e _ => bare_noteHeld hold e
  · exact congrArg Ctl.xings hc
  · unfold keepsUnits keepsHall
    rw [finish_c, hc]
    exact ⟨rfl, rfl, rfl, ⟨rfl, rfl, rfl⟩, rfl, rfl, rfl⟩
  · exact keepsCells_of_log s _ fun o ho => hos o (by simpa [hlog, wrCame] using ho)

/-- Settles O3: a Streaming write opens its Landing entry and is answered, an entry drains as one write, and an acceptance that
has come back frees its entry. -/
theorem landingHoldsStreamingWrites : Obligations.LandingHoldsStreamingWrites :=
  ⟨streamingWriteOpensLanding, landingDrainSendsOneWrite, acceptanceFreesLandingEntry⟩

end Sys2Proof.Laws
end

section
/-! SUPPORT. The obligation about INV and RECALL and their answers, which fails on a tracker whose back-invalidates have still
to go out. -/
namespace Sys2Proof.Laws
open Sys2Proof Sys2Proof.Machine Sys2Proof.Safety Sys2Proof.Claim

/-- House 1 answers the INV of tracker 0 of Room 0. -/
def invAnswer : FMsg :=
  { dst := 0, src := 1, hops := 0, op := Op.invAck, eseq := 0, tag := mkTag 0 384, addr := 0, tenant := 0, kind := 0,
    mirror := false, poison := false, noinst := false, twin := false, held := false, last := true, grant := 0, mask := 0,
    word4hi := 0, bmask := 0, line := 0 }

/-- The tracker waits for House 1. It also has back-invalidates for granule 0 that have not gone out. -/
def parkedTracker : Coh :=
  { idx := 0, blk := 0, job := .home 0 false false, invs := [{ house := 1, sentAt := 0, retryBy := 0, lostBy := 0 }],
    scnSet := some 0, parked := [0] }

/-- A Porch whose first link has a decoder for the first GiB. -/
def decodingPorch : Porch :=
  { links := #v[{ biBlk := true, decs := Vector.replicate 8 { committed := true, size := 2 ^ 30 } }, {}] }

/-- The registers of window segment 0 of each Porch, which maps the first GiB. -/
def mappedSegments : List (Nat × Word) :=
  (List.range 8).flatMap fun p => [(0x80800 + 0x1000 * p, 0x80000000), (0x80804 + 0x1000 * p, 1)]

/-- A House with that tracker and that answer. A window segment of each Porch maps the granule; all Porches but Porch 0 are
fenced. -/
def parkedState : State :=
  { c := { rooms := (Vector.replicate 64 {}).set 0 { cohs := [parkedTracker] }
           porches := (Vector.replicate 8 {}).set 0 decodingPorch
           fab := { inbox := [(invAnswer, 0, 0)] }, fbx := { fenced := 127#96 <<< 89 }, tt := { run := true },
           slots := [(0, 0x48)] }
    m := { regs := mappedSegments } }

/-- The tracker has taken the answer, and goes on with what it can do. -/
def unparkedState : State :=
  Run.finish parkedState
    ((Run.start parkedState).fabAnswer invAnswer Op.invAck false fun r m => r.invAckIn m invAnswer)

theorem parkedState_answered : delivered parkedState invAnswer Op.invAck 0 0 ∧
    (Run.start parkedState).fenced (unitRoom 0) = false ∧ slotFor parkedState 0 0x48 := by decide +kernel

theorem parkedState_waits : parkedState.c.rooms[(0 : Fin 64)].cohs = [parkedTracker] ∧
    parkedState.c.rooms[(0 : Fin 64)].snoopQ = [] ∧ parkedState.c.rooms[(0 : Fin 64)].scnBad = [] := by decide +kernel

theorem parkedTracker_asked : 384 ≤ msgIdx invAnswer ∧ parkedTracker.idx = msgIdx invAnswer - 384 ∧
    parkedTracker.blk = lineBlk invAnswer.addr ∧
    (parkedTracker.invs.any fun i => i.house = invAnswer.src) = true := by decide +kernel

/-- The back-invalidates of the granule have joined those that wait for a slot, one for each 256 B. -/
theorem unparkedState_sends : unparkedState.c.wait.length = 4 := by decide +kernel

/-- Refutes O14: its clause on an answer without a line says that the Hallway and the registers stay as they are. A tracker
that has still to send the back-invalidates of a parity sweep sends them when the answer comes. -/
theorem not_snoopsAreAnsweredAndCounted : ¬ Obligations.SnoopsAreAnsweredAndCounted := by
  rintro ⟨-, hends, -⟩
  obtain ⟨hin, hup, hslot⟩ := parkedState_answered
  obtain ⟨hcohs, hsnoops, hbad⟩ := parkedState_waits
  obtain ⟨hidx, hself, hblk, hasked⟩ := parkedTracker_asked
  obtain ⟨t, -, hexec, -, -, -, -, -, ⟨-, hwait, -⟩, -⟩ := (hends invAnswer).1 parkedState 0 0 parkedTracker 0 false hin hup
    hslot hcohs hsnoops hbad hidx hself hblk hasked rfl
  have ht : unparkedState = t := Host.Outcome.next.inj hexec
  have hnone : unparkedState.c.wait.length = 0 := by rw [ht, hwait]; rfl
  exact absurd (unparkedState_sends.symm.trans hnone) (by decide)

end Sys2Proof.Laws
end

section
/-! SUPPORT. What the decoder makes of a read that is a codeword as it comes (R248–R250), and a sweep's read of a line that is
not cached (R274). -/
namespace Sys2Proof.Laws
open Sys2Proof Sys2Proof.Machine Sys2Proof.Safety

/-! ## Words without errors -/

theorem gfMulFrom_zero (n : Nat) (b : Gf) : gfMulFrom n 0 b 0 = 0 := by
  induction n generalizing b with
  | zero => rfl
  | succ n ih =>
    unfold gfMulFrom
    rw [show gfShift 0 = 0 from rfl, show (0 ^^^ 0 : Gf) = 0 from rfl, ite_self]
    exact ih _

theorem gfMul_zero (b : Gf) : gfMul 0 b = 0 := gfMulFrom_zero 16 b

theorem polyEval_zeros (k : Nat) (x : Gf) : polyEval (List.replicate k 0) x = 0 := by
  induction k with
  | zero => rfl
  | succ k ih =>
    show 0 ^^^ gfMul (polyEval (List.replicate k 0) x) x = 0
    rw [ih, gfMul_zero]
    rfl

/-- Zeros of the highest degrees do not count. -/
theorem polyEval_append_zeros (p : List Gf) (k : Nat) (x : Gf) : polyEval (p ++ List.replicate k 0) x = polyEval p x := by
  induction p with
  | nil => exact polyEval_zeros k x
  | cons a p ih => exact congrArg (fun y => a ^^^ gfMul y x) ih

theorem polyScale_zero (g : List Gf) : polyScale 0 g = List.replicate g.length 0 := by
  unfold polyScale
  rw [funext gfMul_zero]
  exact List.map_const'

theorem polyAdd_zeros (n k : Nat) : polyAdd (List.replicate n 0) (List.replicate k 0) = List.replicate (max n k) 0 := by
  induction n generalizing k with
  | zero => rw [Nat.zero_max]; rfl
  | succ n ih =>
    cases k with
    | zero => rfl
    | succ k =>
      rw [Nat.succ_max_succ]
      exact congrArg (0 :: ·) (ih k)

/-- Zeros leave the parity of nothing as it is. -/
theorem parityStep_zeros {g : List Gf} {n : Nat} (hg : g.length = n + 2) :
    parityStep g (List.replicate (n + 1) 0) 0 = List.replicate (n + 1) 0 := by
  have hlast : (List.replicate (n + 1) (0 : Gf)).getLastD 0 = 0 := by
    rw [List.getLastD_eq_getLast?, List.getLast?_replicate]
    rfl
  unfold parityStep
  rw [hlast, show (0 ^^^ 0 : Gf) = 0 from rfl]
  dsimp only
  rw [polyScale_zero, List.dropLast_replicate, List.length_dropLast, hg]
  exact (polyAdd_zeros (n + 1) (n + 1)).trans (by rw [Nat.max_self])

theorem foldr_parityStep_zeros {g : List Gf} {n : Nat} (hg : g.length = n + 2) (k : Nat) :
    (List.replicate k 0).foldr (fun a rem => parityStep g rem a) (List.replicate (n + 1) 0) = List.replicate (n + 1) 0 := by
  induction k with
  | zero => rfl
  | succ k ih =>
    rw [List.replicate_succ (n := k), List.foldr_cons, ih]
    exact parityStep_zeros hg

theorem polyMul_zeros (n : Nat) : polyMul (List.replicate n 0) [1] = List.replicate n 0 := by
  induction n with
  | zero => rfl
  | succ n ih =>
    show polyAdd [gfMul 0 1] (0 :: polyMul (List.replicate n 0) [1]) = _
    rw [ih, gfMul_zero, List.replicate_succ]
    cases List.replicate n (0 : Gf) <;> rfl

theorem polyTrim_zeros (n : Nat) : polyTrim (List.replicate n 0) = [] := by
  unfold polyTrim
  rw [List.reverse_replicate, List.dropWhile_replicate, if_pos (by rfl)]
  rfl

/-- Without errors, the locator is 1. -/
theorem euclid_nil (stop k : Nat) (r0 t0 t : List Gf) : euclid stop (k + 1) r0 [] t0 t = (t, []) := by
  unfold euclid
  exact if_pos (.inr rfl)

/-- A word all of whose syndromes are zero is decoded to itself (R249). -/
theorem rsDecode_codeword (n : Nat) (word : List Gf) (h : ∀ j < n, polyEval word (gfExp j) = 0) :
    rsDecode n [] word = some word := by
  have hsynd : (List.range n).map (fun j => polyEval word (gfExp j)) = List.replicate n 0 := by
    rw [List.eq_replicate_iff]
    refine ⟨by simp, fun x hx => ?_⟩
    obtain ⟨j, hj, rfl⟩ := List.mem_map.mp hx
    exact h j (List.mem_range.mp hj)
  have htrim : polyTrim ((polyMul (List.replicate n 0) [1]).take n) = [] := by
    rw [polyMul_zeros, List.take_replicate, Nat.min_self, polyTrim_zeros]
  have hone : ∀ x : Gf, polyEval [1] x ≠ 0 := fun x => by
    show 1 ^^^ gfMul 0 x ≠ 0
    rw [gfMul_zero]
    decide
  have hpsi : polyTrim (polyMul [1] [1]) = [1] := by decide +kernel
  have hfixed : (word.zipIdx.map fun x => x.1) = word := by simp
  have hpairs : word.zip word = word.map fun a => (a, a) := by
    simpa using List.zip_map' (f := id) (g := id) (l := word)
  have hright : ((word.zip word).zipIdx.filter fun x => decide (x.1.1 ≠ x.1.2) && !(([] : List Nat).contains x.2)) = [] := by
    rw [List.filter_eq_nil_iff]
    intro x hx
    obtain ⟨a, -, ha⟩ := List.mem_map.mp (hpairs ▸ List.fst_mem_of_mem_zipIdx hx)
    simp [← ha]
  unfold rsDecode
  simp only [hsynd, List.foldl_nil, htrim, List.length_nil, Nat.add_zero, euclid_nil, hpsi, hone, if_false, hfixed]
  rw [hright]
  exact if_pos (by simp)

/-! ## A line that was read as a codeword of another strength -/

/-- The bits of a line as a read with the errors `e` finds them. -/
def readRaw (x : Line) (e : ErrPat) : Raw :=
  { data := x.raw.data ^^^ (flipsOf e).data, spare := x.raw.spare ^^^ (flipsOf e).spare }

theorem flip_zero (y : Raw) (s : Nat) : y.flip s 0 = y := by
  have hstep : ∀ (i : Nat) (y : Raw), (if s < 128 then
      { y with data := y.data ^^^ (((0 : BitVec 16).extractLsb' (4 * i) 4).setWidth 2048 <<<
        busBit (symDevice s) (s / 4 % 2) (4 * (s % 4) + i)) }
      else { y with spare := y.spare ^^^ (((0 : BitVec 16).extractLsb' (4 * i) 4).setWidth 512 <<<
        busBit (symDevice s) (s / 4 % 2) (4 * (s % 4) + i)) } : Raw) = y := fun i y => by simp
  unfold Raw.flip
  simp only [hstep]
  rfl

/-- Writing back the symbols that a read has changes nothing. -/
theorem foldl_flip_sym (y : Raw) (ps : List Nat) :
    (ps.zip (ps.map y.sym)).foldl (fun y s => y.flip s.1 (y.sym s.1 ^^^ s.2)) y = y := by
  induction ps with
  | nil => rfl
  | cons p ps ih =>
    show (ps.zip (ps.map y.sym)).foldl _ (y.flip p (y.sym p ^^^ y.sym p)) = y
    rw [BitVec.xor_self, show y.flip p 0#16 = y from flip_zero y p]
    exact ih

/-- A read that is a codeword of a strength is taken for a line of that strength, as it is (R249, R250). -/
theorem miscorrect_codeword {x : Line} {e : ErrPat} {lc : BitVec 2}
    (h : ∀ j < paritySyms lc, polyEval ((codePlaces lc).map (readRaw x e).sym) (gfExp j) = 0) :
    ∃ ok, x.miscorrect none e lc = some (x.ofRaw (readRaw x e), ok) := by
  have herased : ((codePlaces lc).zipIdx.filter fun s => decide (none = some (symDevice s.1))).map (·.2) = [] := by simp
  have hmade : ({ data := x.raw.data ^^^ (flipsOf e).data, spare := x.raw.spare ^^^ (flipsOf e).spare } : Raw) =
    readRaw x e := rfl
  unfold Line.miscorrect
  dsimp only
  rw [herased, hmade, rsDecode_codeword _ _ h]
  refine ⟨_, congrArg some (Prod.ext (congrArg x.ofRaw (foldl_flip_sym (readRaw x e) _)) rfl)⟩

/-- The decoder accepts such a read when the metadata word that it finds records that strength, and SCHK passes (R250). -/
theorem decode_codeword {x : Line} {e : ErrPat} {lc : BitVec 2} (hok : schkOk (x.rawWord e) = true)
    (hlc : (metaOf (x.rawWord e)).lcode = lc) (hother : lc ≠ x.md.lcode)
    (h : ∀ j < paritySyms lc, polyEval ((codePlaces lc).map (readRaw x e).sym) (gfExp j) = 0) :
    x.decode none e = some (x.ofRaw (readRaw x e)) := by
  obtain ⟨ok, hmis⟩ := miscorrect_codeword h
  unfold Line.decode Line.decodeAt
  dsimp only
  rw [if_pos hok, hlc, if_neg hother, hmis]
  rfl

/-! ## What a read of a channel leaves alone -/

/-- Nothing has changed that says what a line of channel c reads as, and nothing has joined the transfers that wait. -/
structure ReadsAlike (c : Fin 16) (r r' : Run) : Prop where
  wait : r'.c.wait = r.c.wait
  chans : r'.c.chans = r.c.chans
  dram : r'.m.dram = r.m.dram
  remap : r'.m.remap = r.m.remap
  mark : ∀ rank < 4, r'.mark c rank = r.mark c rank

variable {c : Fin 16} {r : Run}

theorem ReadsAlike.refl (c : Fin 16) (r : Run) : ReadsAlike c r r := ⟨rfl, rfl, rfl, rfl, fun _ _ => rfl⟩

theorem ReadsAlike.trans {r' r'' : Run} (h : ReadsAlike c r r') (h' : ReadsAlike c r' r'') : ReadsAlike c r r'' :=
  ⟨h'.wait.trans h.wait, h'.chans.trans h.chans, h'.dram.trans h.dram, h'.remap.trans h.remap,
    fun rank hr => (h'.mark rank hr).trans (h.mark rank hr)⟩

theorem ReadsAlike.forEach {α : Type} (f : α → Run → Run) (h : ∀ x r, ReadsAlike c r (f x r)) (xs : List α) :
    ReadsAlike c r (r.forEach xs f) := by
  induction xs generalizing r with
  | nil => exact .refl c r
  | cons x xs ih => exact (h x r).trans (ih (r := f x r))

theorem ReadsAlike.when (b : Bool) (f : Run → Run) (h : ∀ r, ReadsAlike c r (f r)) : ReadsAlike c r (r.when b f) := by
  cases b
  · exact .refl c r
  · exact h r

theorem ReadsAlike.line {r' : Run} (h : ReadsAlike c r r') (idx : Nat) : r'.line c idx = r.line c idx := by
  unfold Run.line Run.chan
  rw [h.chans, h.dram, h.remap]

/-- The register is not one of those that mark a device of channel c (R251). -/
def noMark (c : Fin 16) (a : Nat) : Prop := a < celBase c ∨ celBase c + 0x20 ≤ a

theorem readsAlike_setReg (r : Run) {a : Nat} (v : Nat) (h : noMark c a) : ReadsAlike c r (r.setReg a v) := by
  refine ⟨rfl, rfl, rfl, rfl, fun rank hr => ?_⟩
  have hne : celBase c + 4 + 4 * rank ≠ a := by
    unfold noMark at h
    omega
  unfold Run.mark
  rw [reg_setReg_ne r hne]

theorem readsAlike_report (r : Run) (e : Event) : ReadsAlike c r (r.report e) := by
  rcases report_cases r e with h | h <;> rw [h]
  · exact readsAlike_setReg r _ (.inl (by unfold celBase; omega))
  · exact ⟨rfl, rfl, rfl, rfl, fun _ _ => rfl⟩

theorem readsAlike_countCorrected (r : Run) (rank : Nat) (lc : BitVec 2) (e : ErrPat) (count : Bool) :
    ReadsAlike c r (r.countCorrected c rank lc e count) := by
  unfold Run.countCorrected
  dsimp only
  refine (ReadsAlike.when _ _ fun r => readsAlike_setReg r _ (.inr (Nat.le_refl _))).trans (.forEach _ (fun d r => ?_) _)
  split
  · exact (readsAlike_setReg r _ (.inr (by omega))).trans (readsAlike_report _ _)
  · exact .refl c r

theorem readsAlike_charge (r : Run) (t : BitVec 12) (k : Meter) (n : Nat) (stamp : Stamp) :
    ReadsAlike c r (r.charge t k n stamp) := by
  have hadd : ∀ (r : Run) bank, ReadsAlike c r (r.meterAdd bank t.toNat k n) := fun r bank => by
    unfold Run.meterAdd
    split
    · exact .refl c r
    · exact ⟨rfl, rfl, rfl, rfl, fun _ _ => rfl⟩
  unfold Run.charge
  exact (hadd r _).trans (.when _ _ fun r => ⟨rfl, rfl, rfl, rfl, fun _ _ => rfl⟩)

/-- The commands of a read leave, and its line comes back. -/
theorem readsAlike_ddr (r : Run) (idx : Nat) : ReadsAlike c r ((r.ddr c false idx).lineBack c) := by
  unfold Run.ddr Run.when
  rw [if_neg Bool.false_ne_true]
  dsimp only
  split <;> exact ⟨rfl, rfl, rfl, rfl, fun _ _ => rfl⟩

theorem rankOf_lt (x : Chan) (idx : Nat) : x.rankOf idx < 4 := by
  have hbits : x.rankBits ≤ 2 := by
    unfold Chan.rankBits
    split
    · omega
    · split <;> omega
  calc x.rankOf idx < 2 ^ x.rankBits := Nat.mod_lt _ (Nat.two_pow_pos _)
    _ ≤ 2 ^ 2 := Nat.pow_le_pow_right (by decide) hbits

/-! ## The sweep -/

/-- A slot whose line the decoder takes for one that is not cached is left as it is: nothing goes home (R274). -/
theorem wait_sweepSlot {m lost : Fin 64} {set way idx : Nat} {l : Fin 16} {e : ErrPat} {y : Line}
    (hdec : r.decode c ((r.chan c).rankOf idx) (r.line c idx) e = some y) (hstate : y.md.state ≠ 2) :
    ∃ done, r.sweepSlot m lost set way c idx l e = some done ∧ done.c.wait = r.c.wait := by
  refine ⟨r.charge y.md.tenant .cellar 1 r.ftNs, ?_, (readsAlike_charge (c := c) r _ _ _ _).wait⟩
  have hclean : decide (y.md.state = 2) = false := decide_eq_false hstate
  unfold Run.sweepSlot Run.shadow
  rw [hdec]
  simp only [hclean, Bool.false_and, Bool.false_eq_true, if_false]

/-- What the sweep of Room m reads next, in a slot that names it: way `way`, line `line` of its target (R274, R275). -/
structure SweepsNext (r : Run) (m : Fin 64) (way line : Fin 16) (sw : Sweep) : Prop where
  sweep : (r.c.rooms[m]).sweep = some sw
  left : sw.left ≠ 0
  up : r.fenced (unitRoom m) = false
  slot : (way.val, line.val) ∈ (sw.begin sw.target r.nearWays).slots

/-- The channel takes the read in this slot (R244, R275). -/
structure TakesSweep (r : Run) (m : Fin 64) (c : Fin 16) (cell : Nat) : Prop where
  found : r.lostChan c = false
  next : r.nextCmd c m.val = none
  fits : r.recFits c false cell = true
  quiet : r.lineBusy c cell = false
  slot : r.canGrant (160 + c.val) (0x80 + m.val) = true

theorem ReadsAlike.decode {r' : Run} (h : ReadsAlike c r r') {rank : Nat} (hr : rank < 4) (x : Line) (e : ErrPat) :
    r'.decode c rank x e = r.decode c rank x e := by
  unfold Run.decode
  rw [h.mark rank hr]

/-- A read of a line that the decoder accepts counts at most corrections. -/
theorem readsAlike_countRead {rank : Nat} {x y : Line} {e : ErrPat} (hdec : r.decode c rank x e = some y)
    (addr : Option PoolAddr) : ReadsAlike c r (r.countRead c rank x e addr) := by
  unfold Run.countRead
  rw [hdec, if_neg (by simp)]
  split
  · exact .refl c r
  · exact readsAlike_countCorrected r rank _ _ _

/-- The Room once a slot of its sweep has been dealt with, or the run as it was when it could not be. -/
def sweptOr (r : Run) (m : Fin 64) (sw : Sweep) (way line : Nat) (done : Option Run) : Run :=
  match done with
  | some r => (r.modRoom m fun y => { y with sweep := some (sw.took way line) }).jobsCheck
  | none => r

theorem wait_jobsCheck (r : Run) : r.jobsCheck.c.wait = r.c.wait := congrArg Scene.wait (scene_jobsCheck r)

theorem begin_lost (sw : Sweep) (set ways : Nat) : (sw.begin set ways).lost = sw.lost := by
  unfold Sweep.begin
  split <;> rfl

/-- A read that the decoder takes for a line that is not cached has nothing sent home, whatever was written (R274). -/
theorem wait_sweepRead {m : Fin 64} {way line : Fin 16} {e : ErrPat} {sw : Sweep} {cell : Nat} {y : Line}
    (h : SweepsNext r m way line sw) (hcell : r.nearCell sw.lost sw.target way.val = cell) (hchan : r.chanOf cell line = c)
    (htakes : TakesSweep r m c cell)
    (hdec : r.decode c ((r.chan c).rankOf cell) (r.line c cell) (r.errOf c cell e) = some y) (hstate : y.md.state ≠ 2) :
    (r.sweepRead m way line e).c.wait = r.c.wait := by
  let granted := r.grant (160 + c.val) (0x80 + m.val)
  let came := (granted.ddr c false cell).lineBack c
  let counted := came.countRead c ((r.chan c).rankOf cell) (r.line c cell) (r.errOf c cell e) none
  have hrank : (r.chan c).rankOf cell < 4 := rankOf_lt _ _
  have hgranted : ReadsAlike c r granted := ⟨rfl, rfl, rfl, rfl, fun _ _ => rfl⟩
  have hcame : ReadsAlike c r came := hgranted.trans (readsAlike_ddr granted cell)
  have hcounted : ReadsAlike c r counted := hcame.trans (readsAlike_countRead ((hcame.decode hrank _ _).trans hdec) none)
  have hread : counted.decode c ((counted.chan c).rankOf cell) (counted.line c cell) (r.errOf c cell e) = some y := by
    rw [hcounted.line, show counted.chan c = r.chan c from congrArg (fun x => x[c]) hcounted.chans, hcounted.decode hrank, hdec]
  obtain ⟨done, hslot, hwait⟩ := wait_sweepSlot (m := m) (lost := sw.lost) (set := sw.target) (way := way.val) (l := line)
    hread hstate
  have hdone : r.sweepRead m way line e = sweptOr counted m (sw.begin sw.target r.nearWays) way line
      (counted.sweepSlot m sw.lost sw.target way.val c cell line (r.errOf c cell e)) := by
    unfold Run.sweepRead
    rw [show (r.room m).sweep = some sw from h.sweep]
    dsimp only
    rw [if_neg (by simp [h.left, h.up]), begin_lost, hcell, hchan, if_neg (by simpa using h.slot), htakes.found,
      if_neg Bool.false_ne_true, if_neg (by simp [htakes.next, htakes.fits, htakes.quiet]), inSlot_of_grant _ _ htakes.slot]
    unfold sweptOr
    rfl
  calc (r.sweepRead m way line e).c.wait = done.c.wait := by rw [hdone, hslot]; exact wait_jobsCheck _
    _ = counted.c.wait := hwait
    _ = r.c.wait := hcounted.wait

end Sys2Proof.Laws
end

section
/-! SUPPORT. The obligation about RESILVER and the sweep, which fails on errors that turn the metadata word of a line into that
of another strength. -/
namespace Sys2Proof.Laws
open Sys2Proof Sys2Proof.Machine Sys2Proof.Safety Sys2Proof.Claim

/-- A dirty near line of all zeros, written with 24 parity symbols. -/
def sweptLine : Line := { md := { tagSh := 0x400, dirty := true, state := 2, lcode := 2 } }

/-- Twelve symbols in error, as many as 24 parity symbols correct: the four of the metadata word, which becomes that of an
unwritten line with 8 parity symbols, and 8 parity symbols, which become those of that line. -/
def restrengthened : ErrPat :=
  { syms := [(128, 0xd000), (136, 0x5000), (144, 0x5004), (152, 0xd290), (129, 0x6372), (137, 0xa117), (145, 0x32b1),
             (153, 0xa724), (130, 0x2e0f), (138, 0x777a), (146, 0x84e2), (154, 0x73c0)] }

/-- The spare bytes of the line as it was written. -/
def sweptSpare : BitVec 512 :=
  0xacb0f6eb12ac60286709542747bcea21e0c05a6280e30f6b1bb9c69b191ef2f88a7b9171d74bea2b0b8d23e8fbf43108db4d200090000400

/-- The spare bytes of the line as it is read. -/
def readSpare : BitVec 512 :=
  0xacb0f6eb12ac60286709542747bcea21e0c05a6280e30f6b1bb9c69b191ef2f8f209a50f193be884a82b51fbd0e3707a0e10000000000000

/-- The symbols of the codeword with 8 parity symbols that is read, but for zeros of the highest degrees. -/
def readWord : List Gf :=
  [0xbb3a, 0x2fe7, 0x8100, 0xa5d7, 0x9fb4, 0x0038, 0x2598, 0xfa1e, 0, 0x1000, 0xe000, 0]

theorem sweptLine_message :
    ((codePlaces 2).drop 24).map ({ spare := (metaWord sweptLine.md).setWidth 512 } : Raw).sym =
      [0xd000, 0x4000, 0xb004, 0xd290] ++ List.replicate 128 0 := by decide +kernel

theorem length_generator_24 : (generator 24).length = 25 := by decide +kernel

theorem sweptLine_parity :
    (([0xd000, 0x4000, 0xb004, 0xd290] : List Gf).foldr (fun a rem => parityStep (generator 24) rem a)
      (List.replicate 24 0)).zipIdx.foldl (fun y s => y.flip (paritySym s.2) s.1)
      ({ spare := (metaWord sweptLine.md).setWidth 512 } : Raw) = { spare := sweptSpare } := by decide +kernel

theorem raw_sweptLine : sweptLine.raw = { spare := sweptSpare } := by
  show encodeRaw 0 sweptLine.md = _
  unfold encodeRaw
  dsimp only
  rw [show paritySyms sweptLine.md.lcode = 24 from rfl, show sweptLine.md.lcode = 2 from rfl, sweptLine_message,
    List.foldr_append, foldr_parityStep_zeros length_generator_24]
  exact sweptLine_parity

theorem flipsOf_restrengthened : flipsOf restrengthened = { spare := sweptSpare ^^^ readSpare } := by decide +kernel

theorem readRaw_sweptLine : readRaw sweptLine restrengthened = { spare := readSpare } := by
  unfold readRaw
  rw [raw_sweptLine, flipsOf_restrengthened]
  decide +kernel

theorem readWord_zeros :
    (codePlaces 0).map ({ spare := readSpare } : Raw).sym = readWord ++ List.replicate 128 0 := by decide +kernel

/-- What is read is a codeword with 8 parity symbols. -/
theorem readWord_codeword : ∀ j < 8, polyEval readWord (gfExp j) = 0 := by decide +kernel

theorem sweptLine_rawWord : sweptLine.rawWord restrengthened = 0x0e10000000000000#64 := by
  unfold Line.rawWord
  rw [flipsOf_restrengthened]
  decide +kernel

/-- The decoder makes an unwritten line of it. -/
theorem decode_sweptLine :
    sweptLine.decode none restrengthened = some (sweptLine.ofRaw { spare := readSpare }) := by
  rw [← readRaw_sweptLine]
  refine decode_codeword (lc := 0) ?_ ?_ (by decide) fun j hj => ?_
  · rw [sweptLine_rawWord]; decide +kernel
  · rw [sweptLine_rawWord]; decide +kernel
  · rw [readRaw_sweptLine, readWord_zeros, polyEval_append_zeros]
    exact readWord_codeword j hj

theorem state_readSpare : (sweptLine.ofRaw { spare := readSpare }).md.state ≠ 2 := by decide +kernel

/-- A sweep with one slot left. -/
def lastSlotSweep : Sweep := { lost := 0, cur := some 0, slots := [(0, 0)], left := 1 }

/-- A House with one near way, whose Room 0 sweeps, in a command slot of channel 0 that reads. The near line belongs to a
near-cacheable Private region of House 1. -/
def sweptState : State :=
  { c := { rooms := (Vector.replicate 64 {}).set 0 { sweep := some lastSlotSweep }, tt := { run := true },
           slots := [(160, 0x80)] }
    m := { regs := [(0x400, 0x10000), (0x801280, 0x80000000), (0x1040000, 0x12)], dram := [(0, sweptLine)] } }

/-- The sweep has read the line. -/
def sweptNext : State := Run.finish sweptState ((Run.start sweptState).sweepRead 0 0 0 restrengthened)

theorem sweptState_sweeps : sweptState.c.rooms[(0 : Fin 64)].sweep = some lastSlotSweep := by decide +kernel

theorem sweptState_cell : (Run.start sweptState).nearCell 0 0 0 = 0 := by decide +kernel

theorem sweptState_chan : (Run.start sweptState).chanOf 0 0 = 0 := by decide +kernel

theorem sweptState_takes : TakesSweep (Run.start sweptState) 0 0 0 :=
  ⟨by decide +kernel, by decide +kernel, by decide +kernel, by decide +kernel, by decide +kernel⟩

/-- The same of the channel and the line index that the sweep reads. -/
theorem sweptState_takesNext : TakesSweep (Run.start sweptState) 0
    ((Run.start sweptState).chanOf ((Run.start sweptState).nearCell 0 0 0) 0) ((Run.start sweptState).nearCell 0 0 0) := by
  rw [sweptState_cell, sweptState_chan]
  exact sweptState_takes

theorem sweptState_sweepsNext : SweepsNext (Run.start sweptState) 0 0 0 lastSlotSweep :=
  ⟨sweptState_sweeps, by decide, by decide +kernel, by decide +kernel⟩

/-- At the strength that it was written with, the line is correctable. -/
theorem sweptState_decodes : let r := Run.start sweptState
    let cell := r.nearCell 0 0 0
    let c := r.chanOf cell 0
    decodes (r.line c cell).md.lcode (r.mark c ((sweptState.c.chans[c]).rankOf cell))
      (if ((sweptState.c.chans[c]).remapOf cell).isSome then {} else restrengthened) = true := by decide +kernel

theorem sweptState_dirty : let r := Run.start sweptState
    let cell := r.nearCell 0 0 0
    let x := r.line (r.chanOf cell 0) cell
    let b := r.blockOf 0 0 x.md.tagSh
    let a := { r.attrOf b with tenant := x.md.tenant }
    x.md.state = 2 ∧ x.md.way = 0 ∧ x.md.dirty = true ∧ r.nearable b a = true ∧ x.md.epoch = (r.cls a.cls).epoch ∧
      r.homeOf b a.mirror ≠ r.myId ∧ r.dead (r.homeOf b a.mirror) = false := by decide +kernel

theorem sweptState_decode : (Run.start sweptState).decode 0 (((Run.start sweptState).chan 0).rankOf 0)
    ((Run.start sweptState).line 0 0) ((Run.start sweptState).errOf 0 0 restrengthened) =
      some (sweptLine.ofRaw { spare := readSpare }) := by
  have hmark : (Run.start sweptState).mark 0 (((Run.start sweptState).chan 0).rankOf 0) = none := by decide +kernel
  have hline : (Run.start sweptState).line 0 0 = sweptLine := by decide +kernel
  have herr : (Run.start sweptState).errOf 0 0 restrengthened = restrengthened := rfl
  rw [Run.decode, hmark, hline, herr]
  exact decode_sweptLine

theorem start_sweptState_wait : (Run.start sweptState).c.wait = [] := by
  unfold sweptState
  rfl

/-- What the decoder makes of the read is not a dirty line, and nothing goes home. -/
theorem sweptNext_quiet : sweptNext.c.wait = [] := by
  have hread := wait_sweepRead sweptState_sweepsNext sweptState_cell sweptState_chan sweptState_takes sweptState_decode
    state_readSpare
  unfold sweptNext
  rw [finish_c]
  rw [hread]
  exact start_sweptState_wait

/-- Refutes O30: its clause on the sweep asks that the strength of the line corrects the errors. Errors that change the
metadata word into a valid one of another strength have the line decoded at that strength (R250), and the sweep finds
nothing to send home. -/
theorem not_copiesAreSentToTheirPlace : ¬ Obligations.CopiesAreSentToTheirPlace := by
  rintro ⟨-, hsweep⟩
  obtain ⟨hfound, hnext, hfits, hquiet, hslot⟩ := sweptState_takesNext
  obtain ⟨hstate, hway, hdirty, hnear, hepoch, haway, halive⟩ := sweptState_dirty
  obtain ⟨t, hexec, -, ⟨f, stamp, ⟨hwait, -⟩, -⟩, -⟩ := hsweep sweptState 0 0 0 restrengthened lastSlotSweep
    sweptState_sweeps (by decide) sweptState_sweepsNext.up (by decide) hfound hnext hfits hquiet hslot sweptState_decodes
    hstate hway hdirty hnear hepoch haway halive
  have ht : sweptNext = t := Host.Outcome.next.inj hexec
  exact List.append_ne_nil_of_right_ne_nil _ (List.cons_ne_nil _ _) (hwait.symm.trans (ht ▸ sweptNext_quiet))

end Sys2Proof.Laws
end

section
/-! SUPPORT. The hosts' answers to back-invalidates, and the obligation about the ends of their snoops (R141–R146). -/
namespace Sys2Proof.Laws
open Sys2Proof Sys2Proof.Machine Sys2Proof.Safety Sys2Proof.Claim

variable (r : Run)

/-! ## A Screen entry is freed -/

/-- The Screen entry is free, and with it the Room's only snoop tracker. -/
def screenFreed (m : Fin 64) (set way : Nat) : Run := (setCohs (r.scnPut m set way {}) m []).trkSweep m

theorem cohs_screenFreed (m : Fin 64) (set way : Nat) : ((screenFreed r m set way).c.rooms[m]).cohs = [] := by
  unfold screenFreed Run.trkSweep
  rw [room_modRoom_self, room_setCohs]

/-- Of the stores, only the Screen's differ from those without it. -/
theorem finish_screenFreed (s : State) (m : Fin 64) (set way : Nat) : (Run.finish s (screenFreed r m set way)).m =
    { (Run.finish s r).m with scn := merase (Run.finish s r).m.scn (scnKey m set way) } := by
  have hlog : (screenFreed r m set way).log = .scn (scnKey m set way) {} :: r.log := rfl
  rw [finish_m, hlog, List.reverse_cons, Stores.applyAll, List.foldl_append]
  rfl

theorem room_screenFreed_ne {m n : Fin 64} (set way : Nat) (h : n ≠ m) :
    (screenFreed r m set way).c.rooms[n] = r.c.rooms[n] :=
  (room_modRoom_ne _ _ h).trans (room_modRoom_ne (r.scnPut m set way {}) _ h)

theorem setCohs_setCohs (m : Fin 64) (as bs : List Coh) : setCohs (setCohs r m as) m bs = setCohs r m bs :=
  modRoom_modRoom r m _ _

/-- A tracker that frees a Screen entry and has all its answers does so at once (R144). -/
theorem cohPoll_freesScreen {m : Fin 64} {c : Coh} {set way : Nat} (hcohs : (r.c.rooms[m]).cohs = [c])
    (hsnoops : (r.c.rooms[m]).snoopQ = []) (hscn : (r.c.rooms[m]).scnBad = []) (hjob : c.job = .freeScn set way)
    (hparked : c.parked = []) (hready : c.ready = true) : r.cohPoll m = screenFreed r m set way := by
  have hgo : r.snoopsGo m = r := by
    unfold Run.snoopsGo
    rw [modRoom_fix r m _ (by rw [← hsnoops]), show (r.room m).snoopQ = [] from hsnoops]
    rfl
  have hsweeps : r.forEach (r.room m).scnBad (fun x r => r.scnSweepGo m x) = r := by
    rw [show (r.room m).scnBad = [] from hscn]
    rfl
  have hpark : (r.forEach (r.room m).cohs fun c r => r.cohUnpark m c.idx) = r := by
    refine forEach_fixed r _ _ fun x hx => ?_
    obtain rfl := List.mem_singleton.mp (hcohs ▸ hx)
    unfold Run.cohUnpark
    rw [find_coh r hcohs]
    exact if_pos (by simp [hparked])
  have hdrop : (r.scnPut m set way {}).dropCoh m c.idx = setCohs (r.scnPut m set way {}) m [] := by
    refine modRoom_congr _ m ?_
    rw [show ((r.scnPut m set way {}).c.rooms[m]).cohs = [c] from hcohs, List.filter_cons_of_neg (by simp), List.filter_nil]
  have hend : (r.forEach (r.room m).cohs fun c r => r.cohEnd m c) = setCohs (r.scnPut m set way {}) m [] := by
    rw [show (r.room m).cohs = [c] from hcohs]
    show r.cohEnd m c = _
    unfold Run.cohEnd
    rw [hjob]
    exact (if_pos hready).trans hdrop
  unfold Run.cohPoll
  simp only [hgo, hsweeps, hpark, hend]
  rfl

/-- Room m has one snoop tracker and no snoop to begin. The tracker frees a Screen entry, and waits for the answer to one
back-invalidate. -/
structure AwaitsLast (y : Room) (c : Coh) (sn : BiSnp) (set way : Nat) : Prop where
  cohs : y.cohs = [c]
  snoopQ : y.snoopQ = []
  scnBad : y.scnBad = []
  snps : c.snps = [sn]
  invs : c.invs = []
  reads : c.reads = []
  parked : c.parked = []
  job : c.job = .freeScn set way

/-- The answer to the last back-invalidate frees the entry. -/
theorem snoopDone_freesScreen {m : Fin 64} {c : Coh} {sn : BiSnp} {set way : Nat}
    (h : AwaitsLast r.c.rooms[m] c sn set way) : r.snoopDone m c.idx sn = screenFreed r m set way := by
  have hanswered : (r.modCoh m c.idx fun c => { c with snps := c.snps.eraseP fun x => x = sn }) =
      setCohs r m [{ c with snps := [] }] := by
    rw [modCoh_single r _ h.cohs, h.snps]
    simp
  have hroom := room_setCohs r m [{ c with snps := [] }]
  unfold Run.snoopDone
  rw [hanswered, cohPoll_freesScreen _ (c := { c with snps := [] }) (by rw [hroom]) (by rw [hroom]; exact h.snoopQ)
      (by rw [hroom]; exact h.scnBad)
    h.job h.parked (by simp [Coh.ready, h.invs, h.reads, h.parked])]
  exact congrArg (fun r => Run.trkSweep r m) (setCohs_setCohs (r.scnPut m set way {}) m _ _)

/-! ## A BIRsp -/

/-- What a BIRsp answers depends on the snoop trackers of the Rooms only. -/
theorem snoopOf_congr {r r' : Run} (h : ∀ n : Fin 64, (r'.c.rooms[n]).cohs = (r.c.rooms[n]).cohs) (p : Fin 8) (k : Fin 2)
    (hpa : BitVec 52) (blk : Bool) : r'.snoopOf p k hpa blk = r.snoopOf p k hpa blk := by
  have hby : ∀ f, r'.snoopBy p k f = r.snoopBy p k f := fun f => by
    unfold Run.snoopBy Run.room
    simp only [h]
  unfold Run.snoopOf
  rw [hby, hby]

/-- The Room has looked for writes of the link that it could accept, and is closed no longer than its waiters ask. -/
def lookedForWrites (m : Fin 64) : Run :=
  r.modRoom m fun y => { y with closed := y.closed && decide (480 < y.waiters.length) }

theorem room_lookedForWrites (m : Fin 64) : (lookedForWrites r m).c.rooms[m] =
    { r.c.rooms[m] with closed := (r.c.rooms[m]).closed && decide (480 < (r.c.rooms[m]).waiters.length) } :=
  room_modRoom_self r m _

theorem biAccept_none {m : Fin 64} {p : Fin 8} {k : Fin 2} {g : BitVec 38}
    (h : ∀ w ∈ (r.c.rooms[m]).waiters, w.item.wrote p k g = false) : r.biAccept m p k g = lookedForWrites r m := by
  have hpulled : (r.c.rooms[m]).waiters.filter (fun w => !w.why.isOwn && w.item.wrote p k g) = [] := by
    rw [List.filter_eq_nil_iff]
    intro w hw
    simp [h w hw]
  have hleft : (r.c.rooms[m]).waiters.filter (fun w => !(!w.why.isOwn && w.item.wrote p k g)) = (r.c.rooms[m]).waiters := by
    rw [List.filter_eq_self]
    intro w hw
    simp [h w hw]
  unfold Run.biAccept Run.pullWaiters
  dsimp only
  rw [show (r.room m).waiters.filter _ = [] from hpulled]
  rw [forEach_fixed _ _ [] (by simp)]
  refine modRoom_congr r m ?_
  rw [hleft]

/-- The House waits for this answer, and holds no write of its link to the granule back (R142). -/
structure Answerable (p : Fin 8) (k : Fin 2) (hpa : BitVec 52) (blk : Bool) (m : Fin 64) (c : Coh) (sn : BiSnp) : Prop where
  up : (r.link p k).up = true
  run : r.c.tt.run = true
  asked : r.snoopOf p k hpa blk = some (m, c, sn)
  behind : r.biBehind p k (lineGran sn.line) = []
  buffered : r.biBuffered p k (lineGran sn.line) = false
  onWay : (r.onWay fun it => it.wrote p k (lineGran sn.line)) = false
  waiters : ∀ w ∈ (r.c.rooms[m]).waiters, w.item.wrote p k (lineGran sn.line) = false

/-- Such an answer reaches its Room at once. -/
theorem biRsp_taken {p : Fin 8} {k : Fin 2} {hpa : BitVec 52} {blk : Bool} {m : Fin 64} {c : Coh} {sn : BiSnp}
    (h : Answerable r p k hpa blk m c sn) (x : BiRsp) :
    r.biRsp p k hpa blk x = (lookedForWrites r m).biTake p k hpa blk x := by
  have hwaiting : ((lookedForWrites r m).room m).waiters = (r.c.rooms[m]).waiters := by
    rw [show (lookedForWrites r m).room m = _ from room_lookedForWrites r m]
  have hnone : ((lookedForWrites r m).room m).waiters.any (fun w => !w.why.isOwn && w.item.wrote p k (lineGran sn.line)) =
      false := by
    rw [hwaiting, List.any_eq_false]
    intro w hw
    simp [h.waiters w hw]
  have hready : (lookedForWrites r m).biReady p { hpa := hpa, blk := blk, rsp := x, uids := [] } = true := by
    simp [Run.biReady]
  have hbuffered : (lookedForWrites r m).biBuffered p k (lineGran sn.line) = false := h.buffered
  have honWay : ((lookedForWrites r m).onWay fun it => it.wrote p k (lineGran sn.line)) = false := h.onWay
  unfold Run.biRsp
  rw [h.up, h.asked]
  dsimp only
  rw [h.behind]
  unfold Run.biTry
  rw [h.asked]
  dsimp only
  rw [biAccept_none r h.waiters, hready, hbuffered, honWay, hnone, show (lookedForWrites r m).c.tt.run = true from h.run]
  rfl

theorem biRsp_freesScreen {p : Fin 8} {k : Fin 2} {hpa : BitVec 52} {blk : Bool} {m : Fin 64} {c : Coh} {sn : BiSnp}
    {x : BiRsp} {set way : Nat} (h : Answerable r p k hpa blk m c sn) (hhpa : sn.hpa = hpa) (hblk : sn.blk = blk)
    (hok : rspOk sn.kind x = true) (hlast : AwaitsLast r.c.rooms[m] c sn set way) :
    r.biRsp p k hpa blk x = screenFreed (lookedForWrites r m) m set way := by
  have hroom := room_lookedForWrites r m
  have hasked : (lookedForWrites r m).snoopOf p k hpa blk = some (m, c, sn) := by
    refine (snoopOf_congr (fun n => ?_) p k hpa blk).trans h.asked
    by_cases hn : n = m
    · rw [hn, hroom]
    · rw [show (lookedForWrites r m).c.rooms[n] = r.c.rooms[n] from room_modRoom_ne r _ hn]
  rw [biRsp_taken r h x]
  unfold Run.biTake
  rw [hasked]
  dsimp only
  rw [if_pos (by simp [hhpa, hblk, hok])]
  exact snoopDone_freesScreen _ (by rw [hroom]; exact { hlast with })

/-- The command at work, once a one-word message of a link that is up has come out of its crossing. -/
theorem linkTook_up (p : Fin 8) (k : Fin 2) (h : (r.link p k).up = true) :
    r.linkTook p k false = r.took (.ingress p k) 1 := if_pos h

/-! ## A snoop that is never answered -/

/-- The event of a time-out. -/
def timedOutSnoop (m : Fin 64) (sn : BiSnp) : Event :=
  { code := Code.snoopTimeout, src := m.val / 16, sub := m.val % 16, addr := some (linePa sn.line), mKind := 1, mId := sn.p,
    path := [unitRoom m, unitPorch sn.p] }

theorem report_timedOutSnoop (m : Fin 64) (sn : BiSnp) (hfence : r.fenced (unitRoom m) = false) :
    r.report (timedOutSnoop m sn) = withEvent r (r.stamped (timedOutSnoop m sn)) := by
  refine report_open r _ fun u hu => ?_
  obtain rfl : unitRoom m = u := Option.some.inj ((evUnit_room m).symm.trans hu)
  exact hfence

/-- The time-out has been counted and logged. -/
def snoopGivenUp (m : Fin 64) (sn : BiSnp) : Run :=
  withEvent (r.rmCount m 0x30C 1) ((r.rmCount m 0x30C 1).stamped (timedOutSnoop m sn))

theorem rooms_snoopGivenUp (m : Fin 64) (sn : BiSnp) : (snoopGivenUp r m sn).c.rooms = r.c.rooms :=
  congrArg Scene.rooms (scene_rmCount r m 1 (off := 0x30C) (by decide))

theorem finish_snoopGivenUp (s : State) (m : Fin 64) (sn : BiSnp) :
    ∃ regs, (Run.finish s (snoopGivenUp (Run.start s) m sn)).m = { s.m with regs := regs } := by
  have hlog : ∃ v, (snoopGivenUp (Run.start s) m sn).log = [.reg (rmBase m + 0x30C) v] := by
    simp only [snoopGivenUp, withEvent_log, Run.rmCount, count16_m, setReg_log, start_log]
    exact ⟨_, rfl⟩
  obtain ⟨v, hlog⟩ := hlog
  exact ⟨_, by rw [finish_m, hlog]; rfl⟩

/-- A time-out is counted, logged, and taken as the answer (R146). -/
theorem snoopTimeout_freesScreen {m : Fin 64} {c : Coh} {sn : BiSnp} {set way : Nat}
    (hlast : AwaitsLast r.c.rooms[m] c sn set way) (hby : sn.by' ≤ r.c.now) (hrun : r.c.tt.run = true)
    (hexcl : sn.excl = false) (hfence : r.fenced (unitRoom m) = false) :
    r.snoopTimeout m c.idx = screenFreed (snoopGivenUp r m sn) m set way := by
  have hopen : (r.rmCount m 0x30C 1).fenced (unitRoom m) = false := by
    unfold Run.fenced
    rw [rmCount_c]
    exact hfence
  have hlogged := report_timedOutSnoop (r.rmCount m 0x30C 1) m sn hopen
  unfold Run.snoopTimeout
  rw [find_coh r hlast.cohs]
  dsimp only
  rw [hlast.snps, List.find?_cons_of_pos (by simp [Run.now, hby, hrun])]
  dsimp only
  rw [hexcl]
  show (((r.rmCount m 0x30C 1).report (timedOutSnoop m sn)).when false _).snoopDone m c.idx sn = _
  rw [hlogged]
  exact snoopDone_freesScreen (snoopGivenUp r m sn) (by rw [rooms_snoopGivenUp]; exact hlast)

theorem snoopAnswersFreeTheScreenEntry : SnoopAnswersFreeTheScreenEntry := by
  constructor
  · intro s p k hpa blk x m c sn set way r g hup hasked hhpa hblk hbehind hbuffered honWay hrun hwaiters hsnoops hscn hok
      hcohs hsnps hinvs hreads hparked hjob
    have hdone : (r.linkTook p k false).biRsp p k hpa blk x =
        screenFreed (lookedForWrites (r.took (.ingress p k) 1) m) m set way := by
      rw [linkTook_up r p k hup]
      exact biRsp_freesScreen (r.took (.ingress p k) 1) ⟨hup, hrun, hasked, hbehind, hbuffered, honWay, hwaiters⟩ hhpa hblk
        hok ⟨hcohs, hsnoops, hscn, hsnps, hinvs, hreads, hparked, hjob⟩
    refine ⟨_, congrArg (fun r => Host.Outcome.next (Run.finish s r)) hdone, cohs_screenFreed _ m set way, fun n hn => ?_,
      rfl⟩
    exact (room_screenFreed_ne _ set way hn).trans (room_modRoom_ne _ _ hn)
  · intro s m c sn set way r hcohs hsnoops hscn hsnps hinvs hreads hparked hjob hby hrun hexcl hfence
    have hdone := snoopTimeout_freesScreen r
      ⟨hcohs, hsnoops, hscn, hsnps, hinvs, hreads, hparked, hjob⟩ hby hrun hexcl hfence
    obtain ⟨regs, hstores⟩ := finish_snoopGivenUp s m sn
    have hm := finish_screenFreed (snoopGivenUp r m sn) s m set way
    rw [hstores] at hm
    have hrooms : (snoopGivenUp r m sn).c.rooms = s.c.rooms := rooms_snoopGivenUp r m sn
    refine ⟨_, congrArg (fun r => Host.Outcome.next (Run.finish s r)) hdone, cohs_screenFreed _ m set way,
      fun n hn => (room_screenFreed_ne _ set way hn).trans (by rw [hrooms]), by rw [hm],
      ⟨(r.rmCount m 0x30C 1).stamped (timedOutSnoop m sn), ?_, rfl, rfl⟩, ?_, ?_, by rw [hm], by rw [hm]⟩
    all_goals rfl

/-! ## A BIConflict -/

/-- A BIConflict whose request has not been served is acknowledged at once (R143). -/
theorem biConflict_unserved {p : Fin 8} {k : Fin 2} {hpa : BitVec 52} {m : Fin 64} {c : Coh} {sn : BiSnp}
    (hup : (r.link p k).up = true) (hmeets : (r.snoopBy p k fun x => x.meets hpa false) = some (m, c, sn))
    (hunserved : ∀ e ∈ (r.porch p).store, e.k = k → e.hpa = hpa → e.sent = false → r.served e sn.sentAt = false) :
    r.biConflict p k hpa = r.toHost (.biConflictAck p k hpa) := by
  have hnone : ((r.porch p).store.find? fun e => e.k = k && e.hpa = hpa && !e.sent && r.served e sn.sentAt) = none := by
    rw [List.find?_eq_none]
    intro e he hserved
    obtain ⟨⟨⟨hk, hhpa⟩, hsent⟩, hserved⟩ : ((e.k = k ∧ e.hpa = hpa) ∧ e.sent = false) ∧ r.served e sn.sentAt = true := by
      simpa using hserved
    exact absurd hserved (by simp [hunserved e he hk hhpa hsent])
  unfold Run.biConflict
  rw [hup, hmeets]
  dsimp only
  rw [hnone]
  rfl

theorem biConflictIsAcknowledged : BiConflictIsAcknowledged := by
  intro s p k hpa m c sn r hup hmeets hunserved
  have hdone : (r.linkTook p k false).biConflict p k hpa =
      (r.took (.ingress p k) 1).toHost (.biConflictAck p k hpa) := by
    rw [linkTook_up r p k hup]
    exact biConflict_unserved (r.took (.ingress p k) 1) hup hmeets hunserved
  exact congrArg (fun r => Host.Outcome.next (Run.finish s r)) hdone

/-- Settles O21: the last answer to the back-invalidates of a Screen entry, or its time-out, frees the entry, and a BIConflict
whose request has not been served is acknowledged. -/
theorem hostSnoopsEnd : Obligations.HostSnoopsEnd := ⟨snoopAnswersFreeTheScreenEntry, biConflictIsAcknowledged⟩

end Sys2Proof.Laws
end

section
/-! SUPPORT. Which reads of the registers a count of a Room leaves alone: those of the hash masks, which place blocks and
granules (R48–R50). -/
namespace Sys2Proof.Laws
open Sys2Proof Sys2Proof.Machine Sys2Proof.Safety

theorem gather_congr {n : Nat} {f g : Nat → Bool} (h : ∀ k < n, f k = g k) : gather n f = gather n g := by
  induction n with
  | zero => rfl
  | succ n ih =>
    unfold gather
    rw [ih fun k hk => h k (by omega), h n (by omega)]

variable (r : Run)

/-- The hash masks lie below the registers of the Rooms. -/
theorem reg_rmCount_low (m : Fin 64) (off n : Nat) {a : Nat} (h : a < 0x1000) : (r.rmCount m off n).reg a = r.reg a :=
  reg_setReg_ne r (by unfold rmBase; omega)

theorem blkMask_rmCount (m : Fin 64) (off n : Nat) {base k : Nat} (h : base + 8 * k + 4 < 0x1000) :
    (r.rmCount m off n).blkMask base k = r.blkMask base k := by
  unfold Run.blkMask Run.fld
  rw [reg_rmCount_low r m off n (by omega), reg_rmCount_low r m off n h]

theorem roomOf_rmCount (m : Fin 64) (off n : Nat) (b : Block) : (r.rmCount m off n).roomOf b = r.roomOf b := by
  have hhash : (r.rmCount m off n).blkHash 0x800 6 b = r.blkHash 0x800 6 b :=
    gather_congr fun k hk => by rw [blkMask_rmCount r m off n (by omega)]
  unfold Run.roomOf
  simp only [hhash]

theorem scnSetOf_rmCount (m : Fin 64) (off n : Nat) (g : BitVec 38) : (r.rmCount m off n).scnSetOf g = r.scnSetOf g :=
  gather_congr fun k hk => by
    unfold Run.fld
    rw [blkMask_rmCount r m off n (by omega), reg_rmCount_low r m off n (by omega)]

theorem rot_rmCount (m : Fin 64) (off n blk : Nat) : (r.rmCount m off n).rot blk = r.rot blk :=
  gather_congr fun k hk => by rw [reg_rmCount_low r m off n (by omega)]

theorem scnFind_rmCount (m n : Fin 64) (off k : Nat) (g : BitVec 38) : (r.rmCount m off k).scnFind n g = r.scnFind n g := by
  have hscn : (r.rmCount m off k).m.scn = r.m.scn := by
    unfold Run.rmCount
    rw [count16_m, setReg_tables]
  unfold Run.scnFind Run.scn
  rw [scnSetOf_rmCount, hscn]

theorem region_rmCount (m : Fin 64) {off : Nat} (n : Nat) (h : off < 0x10000) : (r.rmCount m off n).region = r.region :=
  congrArg Scene.region (scene_rmCount r m n h)

theorem myId_rmCount (m : Fin 64) {off : Nat} (n : Nat) (h : off < 0x10000) : (r.rmCount m off n).myId = r.myId :=
  congrArg Scene.myId (scene_rmCount r m n h)

theorem homePlace_rmCount (m : Fin 64) {off : Nat} (n : Nat) (h : off < 0x10000) (b : Block) (l : Fin 16) :
    (r.rmCount m off n).homePlace b l = r.homePlace b l := by
  unfold Run.homePlace Run.chanOf
  rw [region_rmCount r m n h]
  simp only [rot_rmCount]

theorem actsHome_rmCount (m : Fin 64) {off : Nat} (n : Nat) (h : off < 0x10000) (b : Block) (mirror : Bool) :
    (r.rmCount m off n).actsHome b mirror = r.actsHome b mirror := by
  unfold Run.actsHome Run.homeOf Run.dead Run.peer
  rw [region_rmCount r m n h, myId_rmCount r m n h, rmCount_c]

theorem adopted_rmCount (m n : Fin 64) {off : Nat} (k : Nat) (h : off < 0x10000) (b : Block) (a : Attr) :
    (r.rmCount m off k).adopted n b a = r.adopted n b a := by
  unfold Run.adopted Run.isHome
  rw [roomOf_rmCount, actsHome_rmCount r m k h, myId_rmCount r m k h]

end Sys2Proof.Laws
end

section
/-! SUPPORT. Fills and UPGRADE at the home, and the obligation about them (R151, R161). -/
namespace Sys2Proof.Laws
open Sys2Proof Sys2Proof.Machine Sys2Proof.Safety Sys2Proof.Claim

/-! ## A fill of one line -/

/-- A mask of one line names that line, and no other. -/
theorem lineMask_single : ∀ l : Fin 16, lineMask [l] ≠ 0 ∧ (lineMask [l]).getLsbD l.val = true ∧
    (allLines.filter fun x : Fin 16 => (lineMask [l]).getLsbD x.val && decide (x ≠ l)) = [] := by decide +kernel

theorem isFill_iff (op : BitVec 8) :
    isFill op = true ↔ op = Op.fillP ∨ op = Op.fillS ∨ op = Op.fillO ∨ op = Op.rdU := by
  simp [isFill, or_assoc]

/-- A fill neither writes nor upgrades. -/
theorem not_write_of_isFill {op : BitVec 8} (h : isFill op = true) :
    op ≠ Op.wrU ∧ op ≠ Op.wb ∧ op ≠ Op.mirrorWr ∧ op ≠ Op.upgrade := by
  rcases (isFill_iff op).mp h with h | h | h | h <;> rw [h] <;> decide

theorem fabLines_single {f : FMsg} (h : isFill f.op = true) (hmask : f.mask = lineMask [lineNo f.addr]) :
    fabLines f = [lineNo f.addr] := by
  obtain ⟨hwrU, hwb, hmirror, -⟩ := not_write_of_isFill h
  obtain ⟨hsome, hmine, hothers⟩ := lineMask_single (lineNo f.addr)
  unfold fabLines
  simp only [hwrU, hwb, hmirror, hmask, hsome, hmine, hothers, decide_false, Bool.or_self, Bool.false_eq_true, if_false,
    if_true, List.append_nil]

/-- The item of a request that writes nothing: a read of its line. -/
theorem fabItem_read (f : FMsg) (a : Attr) (stamp : Stamp) (h : ¬ isFabWrite f.op) :
    fabItem f a (lineNo f.addr) stamp =
      { src := .fab f, op := .memRd, meta' := .s, pa := linePa f.addr, attr := { a with tenant := f.tenant }, data := 0,
        mask := 0, poison := false, tin := stamp } := by
  obtain ⟨hwrU, hwb, hmirror⟩ : f.op ≠ Op.wrU ∧ f.op ≠ Op.wb ∧ f.op ≠ Op.mirrorWr := by simpa [isFabWrite] using h
  unfold fabItem
  simp only [hwrU, hwb, hmirror, blkLine_lineBlk, decide_false, Bool.or_self, Bool.false_and, Bool.false_eq_true, if_false]

theorem not_isFabWrite_of_isFill {op : BitVec 8} (h : isFill op = true) : ¬ isFabWrite op := by
  obtain ⟨hwrU, hwb, hmirror, -⟩ := not_write_of_isFill h
  simp [isFabWrite, hwrU, hwb, hmirror]

variable (r : Run)

/-! ## A line is read for the message -/

/-- A fabric item leaves no copy in a host's cache, so it needs no Screen entry (R139). -/
theorem recordThen_fab (m : Fin 64) {it : Item} {f : FMsg} (hsrc : it.src = .fab f) (ans : Option (LineData × Bool))
    (g : Run → Run) : r.recordThen m it ans g = g r := by
  have hrecord : r.scnRecord m it = .ok r := by
    unfold Run.scnRecord
    rw [hsrc]
  unfold Run.recordThen
  rw [hrecord]

/-- The item that the line's channel reads for. -/
def servedItem (f : FMsg) (a : Attr) (stamp : Stamp) : Item := { fabItem f a (lineNo f.addr) stamp with granted := true }

/-- The read of the message's line at its place in the home frame. -/
def servedRead (m : Fin 64) (f : FMsg) (a : Attr) (stamp : Stamp) : CelCmd :=
  { m := m, idx := (r.homePlace (lineBlk f.addr) (lineNo f.addr)).2, write := false, pa := linePa f.addr, tenant := f.tenant,
    purpose := some (.item m (servedItem f a stamp) true), charge := f.tenant, tin := stamp }

/-- Room m has the message under way, and its read waits to leave for the line's channel. -/
def servesLine (m : Fin 64) (f : FMsg) (a : Attr) (stamp : Stamp) (grant : BitVec 2) : Run :=
  (r.modRoom m fun y => { y with fabOut := y.fabOut ++
    [{ f := f, grant := grant, tin := stamp, lines := [(lineNo f.addr, none)] }] }).toChan m
      (.cmd (r.homePlace (lineBlk f.addr) (lineNo f.addr)).1 (servedRead r m f a stamp))

theorem room_servesLine (m : Fin 64) (f : FMsg) (a : Attr) (stamp : Stamp) (grant : BitVec 2) :
    (servesLine r m f a stamp grant).c.rooms[m] = { r.c.rooms[m] with
      fabOut := (r.c.rooms[m]).fabOut ++ [{ f := f, grant := grant, tin := stamp, lines := [(lineNo f.addr, none)] }]
      outC := (r.c.rooms[m]).outC ++ [.cmd (r.homePlace (lineBlk f.addr) (lineNo f.addr)).1 (servedRead r m f a stamp)] } := by
  unfold servesLine Run.toChan
  rw [room_modRoom_self, room_modRoom_self]

theorem room_servesLine_ne {m n : Fin 64} (f : FMsg) (a : Attr) (stamp : Stamp) (grant : BitVec 2) (h : n ≠ m) :
    (servesLine r m f a stamp grant).c.rooms[n] = r.c.rooms[n] :=
  (room_modRoom_ne _ _ h).trans (room_modRoom_ne r _ h)

theorem paLineNo_linePa (l : BitVec 40) : paLineNo (linePa l) = lineNo l :=
  congrArg BitVec.toFin (BitVec.extractLsb'_append_eq_of_le (xhi := l) (xlo := 0#8) (start := 8) (by decide))

/-- While no write of the line waits and its channel is not lost, the read waits to leave for that channel (R106). -/
theorem homeRead_fab {m : Fin 64} {it : Item} {f : FMsg} (hsrc : it.src = .fab f) (hop : it.op = .memRd)
    (hbuf : (r.c.rooms[m]).wbuf = []) (hchan : r.lostChan (r.homePlace (paBlock it.pa) (paLineNo it.pa)).1 = false) :
    r.homeRead m it = r.toChan m (.cmd (r.homePlace (paBlock it.pa) (paLineNo it.pa)).1
      { m := m, idx := (r.homePlace (paBlock it.pa) (paLineNo it.pa)).2, write := false, pa := linePa (paLine it.pa),
        tenant := it.attr.tenant, purpose := some (.item m it true), charge := it.attr.tenant, tin := it.tin }) := by
  have hdue : (r.room m).twinDue (paLine it.pa) = false := by
    unfold Room.twinDue
    rw [show (r.room m).wbuf = [] from hbuf]
    rfl
  have hwrite : (r.room m).wbRead it = .none := by
    unfold Room.wbRead Room.wbOpen
    rw [show (r.room m).wbuf = [] from hbuf]
    rfl
  unfold Run.homeRead Run.beforeData
  rw [hsrc]
  dsimp only
  rw [hdue, hwrite, Bool.and_false]
  dsimp only
  rw [if_neg Bool.false_ne_true, hchan, if_neg Bool.false_ne_true, if_neg (by simp [hop]), recordThen_fab r m hsrc]
  rfl

/-- A fill of one line has it read (R151). -/
theorem serveFab_fill {m : Fin 64} {f : FMsg} {a : Attr} {stamp : Stamp} (e : DirEnt) (grant : BitVec 2)
    (hfill : isFill f.op = true) (hmask : f.mask = lineMask [lineNo f.addr]) (hrest : AtRest r.c.rooms[m])
    (hchan : r.lostChan (r.homePlace (lineBlk f.addr) (lineNo f.addr)).1 = false) :
    r.serveFab m f a stamp e grant = servesLine r m f a stamp grant := by
  obtain ⟨-, -, -, hup⟩ := not_write_of_isFill hfill
  have hleave : r.rsvLeave m (lineBlk f.addr) = r := rsvBreak_none r m _ hrest.rsvs
  have hitem : servedItem f a stamp =
      { src := .fab f, op := .memRd, meta' := .s, pa := linePa f.addr, attr := { a with tenant := f.tenant }, data := 0,
        mask := 0, poison := false, tin := stamp, granted := true } := by
    unfold servedItem
    rw [fabItem_read f a stamp (not_isFabWrite_of_isFill hfill)]
  let taken := r.modRoom m fun y => { y with fabOut := y.fabOut ++
    [{ f := f, grant := grant, tin := stamp, lines := [(lineNo f.addr, none)] }] }
  have hbuf : (taken.c.rooms[m]).wbuf = [] := (congrArg Room.wbuf (room_modRoom_self r m _)).trans hrest.wbuf
  have hread : taken.homeRead m (servedItem f a stamp) = servesLine r m f a stamp grant := by
    have hplace : taken.homePlace (paBlock (servedItem f a stamp).pa) (paLineNo (servedItem f a stamp).pa) =
        r.homePlace (lineBlk f.addr) (lineNo f.addr) := by
      rw [hitem, paBlock_linePa, paLineNo_linePa]
      rfl
    rw [homeRead_fab taken (f := f) (by rw [hitem]) (by rw [hitem]) hbuf (by rw [hplace]; exact hchan), hplace]
    unfold servesLine servedRead
    rw [hitem, paLine_linePa]
  have hserve : r.serveFab m f a stamp e grant = taken.homeRead m (servedItem f a stamp) := by
    unfold Run.serveFab
    simp only [hup, hfill, hleave, fabLines_single hfill hmask, if_false, if_true, ite_self]
    rfl
  rw [hserve, hread]

/-! ## A request enters -/

/-- The request may be served here and now: this House serves the block as home, and the Room is at rest. -/
structure Servable (m : Fin 64) (f : FMsg) : Prop where
  rest : AtRest r.c.rooms[m]
  fits : r.fabFits f = true
  reads : ¬ isFabWrite f.op
  twin : f.twin = false

/-- The item that enters for the request. -/
def enteringItem (f : FMsg) (stamp : Stamp) : Item :=
  fabItem f (r.region (blkRegion (lineBlk f.addr))).attr (lineNo f.addr) stamp

variable {r}

theorem Servable.actsHome {m : Fin 64} {f : FMsg} (h : Servable r m f) :
    r.actsHome (lineBlk f.addr) (r.region (blkRegion (lineBlk f.addr))).attr.mirror = true := by
  have hmirror : f.op ≠ Op.mirrorWr := fun e => h.reads (.inr (.inr e))
  have hfits := h.fits
  unfold Run.fabFits at hfits
  simp only [Bool.and_eq_true, decide_eq_true_eq, h.twin, hmirror, Bool.false_eq_true, if_false] at hfits
  obtain ⟨⟨⟨-, hsame⟩, -⟩, hacts⟩ := hfits
  rw [hsame]
  exact hacts

/-- As the home of a block that is not Shared, the Room looks up no table for the request (R96, R150). -/
theorem upsets_unshared {m : Fin 64} {it : Item} (hacts : r.actsHome (paBlock it.pa) it.attr.mirror = true)
    (hkind : it.attr.kind ≠ kindShared) : r.upsets m it {} = r := by
  simp [Run.upsets, Run.looksUp, Run.scnUpsets, Run.forEach, Run.when, hacts, hkind]

/-- As the home of a Shared block, it looks up the directory, and counts that nothing was corrected (R150). -/
theorem upsets_shared {m : Fin 64} {it : Item} (hacts : r.actsHome (paBlock it.pa) it.attr.mirror = true)
    (hkind : it.attr.kind = kindShared) : r.upsets m it {} = r.rmCount m 0x350 0 := by
  simp [Run.upsets, Run.looksUp, Run.scnUpsets, Run.dirUpsets, Run.forEach, Run.when, hacts, hkind]

/-- The request is counted and looked up, and goes through its conditions. -/
theorem fabEnter_servable {m : Fin 64} {f : FMsg} (h : Servable r m f) (stamp : Stamp) : ∃ x : Tally,
    r.fabEnter m f stamp {} =
      (((tallied r x).upsets m (enteringItem r f stamp) {}).fabAccess m (enteringItem r f stamp) f).cohPoll m := by
  obtain ⟨x, hpulse⟩ := pulse_counts r m 0x01 1
  have hwaiters : (((tallied r x).upsets m (enteringItem r f stamp) {}).room m).waiters = [] := by
    have hrooms : ((tallied r x).upsets m (enteringItem r f stamp) {}).c.rooms = r.c.rooms :=
      congrArg Scene.rooms (scene_upsets_none (tallied r x) m _)
    unfold Run.room
    rw [hrooms]
    exact h.rest.waiters
  refine ⟨x, ?_⟩
  unfold Run.fabEnter
  rw [hpulse]
  dsimp only
  rw [if_pos (show (tallied r x).fabFits f = true from h.fits)]
  change (if (((tallied r x).upsets m (enteringItem r f stamp) {}).room m).waiters.any _ then _ else _ : Run).cohPoll m = _
  rw [hwaiters]
  rfl

/-! ## A request of a block that is not Shared -/

theorem sweepDue_atRest {m : Fin 64} (h : (r.c.rooms[m]).sweep = none) (b : Block) : r.sweepDue m b = false := by
  unfold Run.sweepDue Run.room
  rw [h]

/-- A fill of a block that is not Shared is served at once (R151). -/
theorem fabAccess_unshared {m : Fin 64} {it : Item} {f : FMsg} (h : Servable r m f) (hkind : it.attr.kind ≠ kindShared) :
    r.fabAccess m it f = r.serveFab m f it.attr it.tin {} (fillGrant f.op) := by
  obtain ⟨-, hwb, hmirror⟩ : f.op ≠ Op.wrU ∧ f.op ≠ Op.wb ∧ f.op ≠ Op.mirrorWr := by simpa [isFabWrite] using h.reads
  unfold Run.fabAccess
  simp only [sweepDue_atRest h.rest.sweep, h.twin, hwb, hmirror, hkind, Bool.false_eq_true, if_false, ne_eq, not_false_eq_true,
    if_true]

theorem cohPoll_atRest {m : Fin 64} (h : AtRest r.c.rooms[m]) : r.cohPoll m = r :=
  cohPoll_quiet r m h.cohs h.snoopQ h.scnBad h.trks

theorem atRest_servesLine {m : Fin 64} (h : AtRest r.c.rooms[m]) (f : FMsg) (a : Attr) (stamp : Stamp) (grant : BitVec 2) :
    AtRest (servesLine r m f a stamp grant).c.rooms[m] := by
  rw [room_servesLine]
  exact ⟨h.trks, h.waiters, h.wbuf, h.rsvs, h.cohs, h.snoopQ, h.scnBad, h.sweep⟩

/-- The region's attributes, with the message's tenant (R43, R44). -/
def servedAttr (r : Run) (f : FMsg) : Attr := { (r.region (blkRegion (lineBlk f.addr))).attr with tenant := f.tenant }

theorem enteringItem_read {m : Fin 64} {f : FMsg} (h : Servable r m f) (stamp : Stamp) : enteringItem r f stamp =
    { src := .fab f, op := .memRd, meta' := .s, pa := linePa f.addr, attr := servedAttr r f, data := 0, mask := 0,
      poison := false, tin := stamp } :=
  fabItem_read f _ stamp h.reads

theorem enteringItem_fields {m : Fin 64} {f : FMsg} (h : Servable r m f) (stamp : Stamp) :
    (enteringItem r f stamp).src = .fab f ∧ (enteringItem r f stamp).attr = servedAttr r f ∧
      (enteringItem r f stamp).tin = stamp ∧ paBlock (enteringItem r f stamp).pa = lineBlk f.addr := by
  rw [enteringItem_read h stamp]
  exact ⟨rfl, rfl, rfl, paBlock_linePa f.addr⟩

/-- A fill of one line of a block that is not Shared has it read (R151, R161). -/
theorem fabEnter_unshared {m : Fin 64} {f : FMsg} (h : Servable r m f) (hfill : isFill f.op = true)
    (hmask : f.mask = lineMask [lineNo f.addr]) (hkind : (r.region (blkRegion (lineBlk f.addr))).attr.kind ≠ kindShared)
    (hchan : r.lostChan (r.homePlace (lineBlk f.addr) (lineNo f.addr)).1 = false) (stamp : Stamp) : ∃ x : Tally,
    r.fabEnter m f stamp {} = servesLine (tallied r x) m f (servedAttr r f) stamp (fillGrant f.op) := by
  obtain ⟨x, henter⟩ := fabEnter_servable h stamp
  have hs : Servable (tallied r x) m f := ⟨h.rest, h.fits, h.reads, h.twin⟩
  have hitem := enteringItem_read h stamp
  have hacts : (tallied r x).actsHome (paBlock (enteringItem r f stamp).pa) (enteringItem r f stamp).attr.mirror = true := by
    rw [hitem, paBlock_linePa]
    exact h.actsHome
  refine ⟨x, ?_⟩
  rw [henter, upsets_unshared hacts (by rw [hitem]; exact hkind), fabAccess_unshared hs (by rw [hitem]; exact hkind), hitem,
    serveFab_fill _ _ _ hfill hmask hs.rest hchan]
  exact cohPoll_atRest (atRest_servesLine hs.rest f _ stamp _)

/-! ## A request of a Shared block -/

/-- The high bits of an appended word that ends in four low ones, from the third of those on. -/
theorem extractLsb'_append_four {v : Nat} (x : BitVec v) (y : BitVec 4) :
    (x ++ y).extractLsb' 2 (v + 2) = x ++ y.extractLsb' 2 2 := by
  refine BitVec.eq_of_getLsbD_eq fun i hi => ?_
  rw [BitVec.getLsbD_extractLsb', BitVec.getLsbD_append, BitVec.getLsbD_append]
  by_cases h : i < 2
  · simp [h, hi, show 2 + i < 4 by omega]
  · simp [h, hi, show ¬ 2 + i < 4 by omega, show 2 + i - 4 = i - 2 by omega]

theorem lineGran_low : ∀ l : Fin 16, (BitVec.ofNat 4 l).extractLsb' 2 2 = BitVec.ofNat 2 (l.val / 4) := by decide

/-- The granule of a line is one of the four of its block. -/
theorem lineGran_blkLine_mem (b : Block) (l : Fin 16) : lineGran (blkLine b l) ∈ blkGrans b := by
  have hgran : lineGran (blkLine b l) = b ++ BitVec.ofNat 2 (l.val / 4) :=
    (extractLsb'_append_four b _).trans (congrArg (b ++ ·) (lineGran_low l))
  rw [hgran]
  exact List.mem_map.mpr ⟨l.val / 4, List.mem_range.mpr (by omega), rfl⟩

/-- A block that takes part in nothing: it was not adopted, and no granule of it has a Screen entry. -/
structure Plain (r : Run) (m : Fin 64) (b : Block) (a : Attr) : Prop where
  alone : r.adopted m b a = false
  scn : ∀ g ∈ blkGrans b, r.scnFind m g = none

theorem Plain.of_plainBlock {s : State} {m : Fin 64} {b : Block} {a : Attr} (h : plainBlock s m b a) :
    Plain (Run.start s) m b a := by
  obtain ⟨halone, hscn⟩ := h
  exact ⟨halone, fun g hg => Option.isNone_iff_eq_none.mp (List.all_eq_true.mp hscn g hg)⟩

/-- No host holds a line of such a block: the Screen asks for no snoop (R140). -/
theorem screenPlan_plain {m : Fin 64} {it : Item} {f : FMsg} (hsrc : it.src = .fab f)
    (hscn : ∀ g ∈ blkGrans (paBlock it.pa), r.scnFind m g = none) : r.screenPlan m it = none := by
  have hents : r.scnEnts m (blkGrans (paBlock it.pa)) = [] := by
    unfold Run.scnEnts
    exact List.filterMap_eq_nil_iff.mpr fun g hg => by rw [hscn g hg]; rfl
  unfold Run.screenPlan
  rw [hsrc]
  dsimp only
  split
  · rw [hents]
    rfl
  · refine if_pos (List.isEmpty_iff.mpr (List.filter_eq_nil_iff.mpr fun l _ => ?_))
    rw [hscn _ (lineGran_blkLine_mem _ l)]
    simp

/-- A request of a Shared block that takes part in nothing goes on to the directory at once (R147, R150). -/
theorem fabAccess_shared {m : Fin 64} {it : Item} {f : FMsg} (h : Servable r m f) (hkind : it.attr.kind = kindShared)
    (hsrc : it.src = .fab f) (hplain : Plain r m (paBlock it.pa) it.attr) : r.fabAccess m it f = r.fabAfter m it f := by
  obtain ⟨-, hwb, hmirror⟩ : f.op ≠ Op.wrU ∧ f.op ≠ Op.wb ∧ f.op ≠ Op.mirrorWr := by simpa [isFabWrite] using h.reads
  have hcrossing : r.crossing m (lineBlk f.addr) f.src = false := by
    unfold Run.crossing Run.room
    rw [h.rest.cohs]
    rfl
  have hwhy : r.cohWhy m (lineBlk f.addr) none it.grans = none := by
    unfold Run.cohWhy Run.cohStops Room.scnWaits Run.room
    rw [h.rest.cohs, h.rest.scnBad]
    simp
  have hcast : r.castGrans m it = [] := by simp [Run.castGrans, hplain.alone]
  unfold Run.fabAccess
  simp only [sweepDue_atRest h.rest.sweep, h.twin, hwb, hmirror, hkind, hcrossing, hwhy, hcast,
    screenPlan_plain hsrc hplain.scn, Bool.and_false, Bool.false_eq_true, if_false, ne_eq, not_true_eq_false, ite_self]

/-! ## The directory -/

/-- The directory entry of the House that a home event leaves as the only one (R151). -/
def soleEntry (b : Block) (q : BitVec 6) (st : BitVec 2) : DirEnt := { sharers := bit64 q, tag := dirTag b, state := st }

/-- A block that no House holds takes a free way for its asker (R151, R152). -/
theorem homeStart_unlisted {m : Fin 64} {it : Item} {ev : HomeEv} {q : BitVec 6} {st : BitVec 2} {w : Nat}
    (serve : Run → DirEnt → Run) (halone : r.adopted m (paBlock it.pa) it.attr = false)
    (hdir : r.dirFind m (paBlock it.pa) = none) (hafter : ev.after {} 0 = (bit64 q, st)) (hst : st ≠ 0)
    (hway : ((List.range 16).find? fun w => (r.dir m (dirSet (paBlock it.pa)) w).state = 0) = some w) :
    r.homeStart m it ev serve =
      serve (r.dirPut m (dirSet (paBlock it.pa)) w (soleEntry (paBlock it.pa) q st)) {} := by
  have hpurge : r.purgeFirst m (paBlock it.pa) = r := by
    unfold Run.purgeFirst
    rw [hdir]
  have hsettle : r.dirSettle m (paBlock it.pa) false (bit64 q) st =
      .ok (r.dirPut m (dirSet (paBlock it.pa)) w (soleEntry (paBlock it.pa) q st)) := by
    unfold Run.dirSettle Run.dirWay
    simp only [Bool.and_false, Bool.false_eq_true, if_false, hst, hdir, hway]
    rfl
  unfold Run.homeStart
  simp only [hpurge, hdir, halone, hafter, hsettle, Bool.false_eq_true, if_false]

theorem filter_houses : ∀ q : Fin 64, ((List.range 64).filter fun d => (1#64 <<< q.val).getLsbD d) = [q.val] := by
  decide +kernel

/-- An entry whose only sharer is House q lists that House. -/
theorem houses_single {e : DirEnt} {q : BitVec 6} (h : e.sharers = bit64 q) : e.houses = [q] := by
  unfold DirEnt.houses
  rw [h]
  unfold bit64
  rw [show q.toNat = q.toFin.val from rfl, filter_houses q.toFin]
  exact congrArg (fun x => [x]) ((BitVec.ofNat_toNat 6 q).trans (BitVec.setWidth_eq q))

/-- UPGRADE of a live only sharer makes it the owner at once (R151). -/
theorem homeStart_upgrade {m : Fin 64} {it : Item} {q : BitVec 6} {w : Nat} {e : DirEnt} (serve : Run → DirEnt → Run)
    (halone : r.adopted m (paBlock it.pa) it.attr = false) (hdir : r.dirFind m (paBlock it.pa) = some (w, e))
    (hsole : e.sharers = bit64 q) (hlive : r.dead q = false) :
    r.homeStart m it (.upgrade q) serve = serve (r.dirPut m (dirSet (paBlock it.pa)) w (soleEntry (paBlock it.pa) q 3)) e := by
  have hhouses := houses_single hsole
  have hpurge : r.purgeFirst m (paBlock it.pa) = r := by
    unfold Run.purgeFirst
    rw [hdir]
    dsimp only
    rw [hhouses, List.filter_cons_of_neg (by simp [hlive])]
    rfl
  have htargets : HomeEv.targets (.upgrade q) e = ([], false) := by
    unfold HomeEv.targets
    simp [hhouses]
  have hsettle : r.dirSettle m (paBlock it.pa) false (bit64 q) 3 =
      .ok (r.dirPut m (dirSet (paBlock it.pa)) w (soleEntry (paBlock it.pa) q 3)) := by
    unfold Run.dirSettle
    simp only [hdir]
    rfl
  unfold Run.homeStart
  simp only [hpurge, hdir, halone, htargets, List.isEmpty_nil, if_true]
  rw [show HomeEv.after (.upgrade q) e 0 = (bit64 q, 3) from rfl]
  simp only [hsettle]

/-! ## Requests of Shared blocks enter -/

/-- The request has been counted, and the directory has been looked up for it. -/
def lookedUp (r : Run) (m : Fin 64) (x : Tally) : Run := (tallied r x).rmCount m 0x350 0

theorem lookedUp_c (r : Run) (m : Fin 64) (x : Tally) : (lookedUp r m x).c = (tallied r x).c := rmCount_c _ m 0x350 0

theorem dir_lookedUp (r : Run) (m : Fin 64) (x : Tally) : (lookedUp r m x).m.dir = r.m.dir := by
  unfold lookedUp Run.rmCount
  rw [count16_m, setReg_tables]
  rfl

theorem rooms_lookedUp (r : Run) (m : Fin 64) (x : Tally) : (lookedUp r m x).c.rooms = r.c.rooms :=
  (congrArg Ctl.rooms (lookedUp_c r m x)).trans rfl

theorem Servable.lookedUp {m : Fin 64} {f : FMsg} (h : Servable r m f) (x : Tally) : Servable (lookedUp r m x) m f := by
  refine ⟨?_, ?_, h.reads, h.twin⟩
  · rw [rooms_lookedUp]
    exact h.rest
  · exact (fabFits_congr (region_rmCount (tallied r x) m 0 (by decide)) (myId_rmCount (tallied r x) m 0 (by decide))
      (congrArg (fun c => c.fab.peers) (lookedUp_c r m x)) f).trans h.fits

theorem Plain.lookedUp {m : Fin 64} {b : Block} {a : Attr} (h : Plain r m b a) (x : Tally) :
    Plain (lookedUp r m x) m b a :=
  ⟨(adopted_rmCount (tallied r x) m m 0 (by decide) b a).trans h.alone,
    fun g hg => (scnFind_rmCount (tallied r x) m m 0x350 0 g).trans (h.scn g hg)⟩

theorem dirFind_lookedUp (m : Fin 64) (x : Tally) (b : Block) : (lookedUp r m x).dirFind m b = r.dirFind m b :=
  dirFind_congr (dir_lookedUp r m x) m b

/-- The line's channel is the same for the lookup. -/
theorem lostChan_lookedUp (m : Fin 64) (x : Tally) (b : Block) (l : Fin 16) :
    (lookedUp r m x).lostChan ((lookedUp r m x).homePlace b l).1 = r.lostChan (r.homePlace b l).1 := by
  unfold Run.lostChan Run.fenced
  rw [lookedUp_c, show (lookedUp r m x).homePlace b l = _ from homePlace_rmCount (tallied r x) m 0 (by decide) b l]
  rfl

/-- A request of a Shared block that takes part in nothing goes on to the directory. -/
theorem fabEnter_shared {m : Fin 64} {f : FMsg} (h : Servable r m f)
    (hkind : (r.region (blkRegion (lineBlk f.addr))).attr.kind = kindShared)
    (hplain : Plain r m (lineBlk f.addr) (servedAttr r f)) (stamp : Stamp) : ∃ x : Tally,
    r.fabEnter m f stamp {} = ((lookedUp r m x).fabAfter m (enteringItem r f stamp) f).cohPoll m := by
  obtain ⟨x, henter⟩ := fabEnter_servable h stamp
  have hitem := enteringItem_read h stamp
  have hacts : (tallied r x).actsHome (paBlock (enteringItem r f stamp).pa) (enteringItem r f stamp).attr.mirror = true := by
    rw [hitem, paBlock_linePa]
    exact h.actsHome
  refine ⟨x, ?_⟩
  rw [henter, upsets_shared hacts (by rw [hitem]; exact hkind)]
  refine congrArg (fun r => Run.cohPoll r m) (fabAccess_shared (h.lookedUp x) (by rw [hitem]; exact hkind) (by rw [hitem]) ?_)
  rw [hitem, paBlock_linePa]
  exact hplain.lookedUp x

/-- The directory lists the asker, and the line is read for it. -/
def listsAndServes (r : Run) (m : Fin 64) (f : FMsg) (a : Attr) (stamp : Stamp) (w : Nat) (st : BitVec 2) : Run :=
  servesLine (r.dirPut m (dirSet (lineBlk f.addr)) w (soleEntry (lineBlk f.addr) f.src st)) m f a stamp (fillGrant f.op)

/-- What the directory does not list is served to its asker, once it lists that (R151). -/
theorem fabAfter_lists {m : Fin 64} {f : FMsg} {it : Item} (hrest : AtRest r.c.rooms[m])
    (hfill : isFill f.op = true) (hmask : f.mask = lineMask [lineNo f.addr]) (hkind : it.attr.kind = kindShared)
    (hblk : paBlock it.pa = lineBlk f.addr) (halone : r.adopted m (lineBlk f.addr) it.attr = false)
    (hchan : r.lostChan (r.homePlace (lineBlk f.addr) (lineNo f.addr)).1 = false) {ev : HomeEv} {st : BitVec 2} {w : Nat}
    (hev : homeEv it = some ev) (hafter : ev.after {} 0 = (bit64 f.src, st)) (hst : st ≠ 0)
    (hdir : r.dirFind m (lineBlk f.addr) = none)
    (hway : ((List.range 16).find? fun w => (r.dir m (dirSet (lineBlk f.addr)) w).state = 0) = some w) :
    r.fabAfter m it f = listsAndServes r m f it.attr it.tin w st := by
  rw [← hblk] at halone hdir hway
  unfold Run.fabAfter
  dsimp only
  rw [if_pos hkind, hev]
  dsimp only
  rw [homeStart_unlisted _ halone hdir hafter hst hway, hblk]
  exact serveFab_fill _ _ _ hfill hmask hrest hchan

/-- A fill of one line of a block that no House holds lists the asker, and has the line read (R151). -/
theorem fabEnter_lists {m : Fin 64} {f : FMsg} (h : Servable r m f) (hfill : isFill f.op = true)
    (hmask : f.mask = lineMask [lineNo f.addr]) (hkind : (r.region (blkRegion (lineBlk f.addr))).attr.kind = kindShared)
    (hplain : Plain r m (lineBlk f.addr) (servedAttr r f))
    (hchan : r.lostChan (r.homePlace (lineBlk f.addr) (lineNo f.addr)).1 = false) {ev : HomeEv} {st : BitVec 2} {w : Nat}
    (hev : ∀ it : Item, it.src = .fab f → homeEv it = some ev) (hafter : ev.after {} 0 = (bit64 f.src, st)) (hst : st ≠ 0)
    (hdir : r.dirFind m (lineBlk f.addr) = none)
    (hway : ((List.range 16).find? fun w => (r.dir m (dirSet (lineBlk f.addr)) w).state = 0) = some w) (stamp : Stamp) :
    ∃ x : Tally, r.fabEnter m f stamp {} = listsAndServes (lookedUp r m x) m f (servedAttr r f) stamp w st := by
  obtain ⟨x, henter⟩ := fabEnter_shared h hkind hplain stamp
  have hs := h.lookedUp x
  have hp := hplain.lookedUp x
  have hchan' := (lostChan_lookedUp (r := r) m x (lineBlk f.addr) (lineNo f.addr)).trans hchan
  have hdir' := (dirFind_lookedUp (r := r) m x (lineBlk f.addr)).trans hdir
  have hway' : ((List.range 16).find? fun w => ((lookedUp r m x).dir m (dirSet (lineBlk f.addr)) w).state = 0) = some w := by
    unfold Run.dir
    rw [dir_lookedUp]
    exact hway
  obtain ⟨hsrc, hattr, htin, hblk⟩ := enteringItem_fields h stamp
  refine ⟨x, ?_⟩
  generalize lookedUp r m x = r' at *
  rw [henter, fabAfter_lists hs.rest hfill hmask (by rw [hattr]; exact hkind) hblk (by rw [hattr]; exact hp.alone) hchan'
    (hev _ hsrc) hafter hst hdir' hway', hattr, htin]
  exact cohPoll_atRest (atRest_servesLine (r := r'.dirPut m _ w _) hs.rest f _ stamp _)

/-- The directory lists the asker as owner, and ACK_O waits to leave; with it the message is retired. -/
def grantsOwnership (r : Run) (m : Fin 64) (f : FMsg) (stamp : Stamp) (w : Nat) : Run :=
  let listed := r.dirPut m (dirSet (lineBlk f.addr)) w (soleEntry (lineBlk f.addr) f.src 3)
  listed.post (roomCal m) 0x58 (.msg (listed.mkReply f Op.ackO) stamp) (some (.fab f))

/-- The only sharer becomes the owner, and is told so (R151). -/
theorem fabAfter_upgrade {m : Fin 64} {f : FMsg} {it : Item} (hrsvs : (r.c.rooms[m]).rsvs = []) (hop : f.op = Op.upgrade)
    (hsrc : it.src = .fab f) (hkind : it.attr.kind = kindShared) (hblk : paBlock it.pa = lineBlk f.addr)
    (halone : r.adopted m (lineBlk f.addr) it.attr = false) (hrun : r.c.tt.run = true) {w : Nat} {e : DirEnt}
    (hdir : r.dirFind m (lineBlk f.addr) = some (w, e)) (hsole : e.sharers = bit64 f.src) (hlive : r.dead f.src = false) :
    r.fabAfter m it f = grantsOwnership r m f it.tin w := by
  have hev : homeEv it = some (.upgrade f.src) := by
    unfold homeEv
    rw [hsrc]
    dsimp only
    rw [hop]
    rfl
  have hshares : e.sharers.getLsbD f.src.toNat = true := by
    rw [hsole]
    unfold bit64
    simp [f.src.isLt]
  rw [← hblk] at halone hdir
  unfold Run.fabAfter
  dsimp only
  rw [if_pos hkind, hev]
  dsimp only
  rw [homeStart_upgrade _ halone hdir hsole hlive, hblk]
  generalize hlisted : r.dirPut m (dirSet (lineBlk f.addr)) w (soleEntry (lineBlk f.addr) f.src 3) = listed
  have hleave : listed.rsvLeave m (lineBlk f.addr) = listed := by
    rw [← hlisted]
    exact rsvBreak_none _ m _ hrsvs
  have hgo : listed.c.tt.run = true := by
    rw [← hlisted]
    exact hrun
  unfold Run.serveFab grantsOwnership
  simp only [hop, hleave, hshares, hlisted, decide_true, Bool.or_true, Bool.true_or, if_true]
  unfold Run.hallMsg
  rw [if_pos hgo]

/-- UPGRADE of a live only sharer is granted at once (R151). -/
theorem fabEnter_upgrade {m : Fin 64} {f : FMsg} (h : Servable r m f) (hop : f.op = Op.upgrade)
    (hkind : (r.region (blkRegion (lineBlk f.addr))).attr.kind = kindShared)
    (hplain : Plain r m (lineBlk f.addr) (servedAttr r f)) (hrun : r.c.tt.run = true) {w : Nat} {e : DirEnt}
    (hdir : r.dirFind m (lineBlk f.addr) = some (w, e)) (hsole : e.sharers = bit64 f.src) (hlive : r.dead f.src = false)
    (stamp : Stamp) : ∃ x : Tally, r.fabEnter m f stamp {} = grantsOwnership (lookedUp r m x) m f stamp w := by
  obtain ⟨x, henter⟩ := fabEnter_shared h hkind hplain stamp
  have hs := h.lookedUp x
  have hp := hplain.lookedUp x
  have hrun' : (lookedUp r m x).c.tt.run = true := by
    rw [lookedUp_c]
    exact hrun
  have hlive' : (lookedUp r m x).dead f.src = false := by
    unfold Run.dead Run.peer
    rw [lookedUp_c]
    exact hlive
  have hdir' := (dirFind_lookedUp (r := r) m x (lineBlk f.addr)).trans hdir
  obtain ⟨hsrc, hattr, htin, hblk⟩ := enteringItem_fields h stamp
  refine ⟨x, ?_⟩
  generalize lookedUp r m x = r' at *
  rw [henter, fabAfter_upgrade hs.rest.rsvs hop hsrc (by rw [hattr]; exact hkind) hblk (by rw [hattr]; exact hp.alone) hrun'
    hdir' hsole hlive', htin]
  exact cohPoll_atRest hs.rest

/-! ## The whole request -/

/-- Where a line lies depends on the registers alone. -/
theorem homePlace_congr {r r' : Run} (h : r'.m.regs = r.m.regs) (b : Block) (l : Fin 16) :
    r'.homePlace b l = r.homePlace b l := by
  have hreg : r'.reg = r.reg := funext fun a => by
    unfold Run.reg Stores.reg
    rw [h]
  have hregion : r'.region = r.region := by
    unfold Run.region
    rw [hreg]
  have hrot : r'.rot = r.rot := by
    unfold Run.rot
    rw [hreg]
  unfold Run.homePlace Run.chanOf
  simp only [hregion, hrot]

section
variable (r) (m : Fin 64) (f : FMsg) (stamp : Stamp) (d : Nat)

/-! The slot, and that its Door keeps the message, change nothing that serving it depends on. -/

theorem kept_m : (kept r m f stamp d).m = r.m := rfl

theorem fab_kept : (kept r m f stamp d).c.fab =
    { r.c.fab with inbox := r.c.fab.inbox.eraseP fun e => e.1 = f, kept := r.c.fab.kept ++ [(f, stamp, d)] } := rfl

theorem peers_kept : (kept r m f stamp d).c.fab.peers = r.c.fab.peers := by rw [fab_kept]

theorem rooms_kept : (kept r m f stamp d).c.rooms = r.c.rooms := rfl

theorem reg_kept : (kept r m f stamp d).reg = r.reg := by
  unfold Run.reg
  rw [kept_m]

theorem region_kept : (kept r m f stamp d).region = r.region := by
  unfold Run.region
  rw [reg_kept]

theorem myId_kept : (kept r m f stamp d).myId = r.myId := by
  unfold Run.myId Run.fld
  rw [reg_kept]

theorem lostChan_kept (c : Fin 16) : (kept r m f stamp d).lostChan c = r.lostChan c := rfl

theorem dead_kept : (kept r m f stamp d).dead = r.dead := by
  unfold Run.dead Run.peer
  rw [peers_kept]

theorem dirFind_kept (n : Fin 64) (b : Block) : (kept r m f stamp d).dirFind n b = r.dirFind n b :=
  dirFind_congr (congrArg Stores.dir (kept_m r m f stamp d)) n b

theorem dir_kept : (kept r m f stamp d).dir = r.dir := by
  unfold Run.dir
  rw [kept_m]

theorem blkMask_kept : (kept r m f stamp d).blkMask = r.blkMask := by
  unfold Run.blkMask Run.fld
  rw [reg_kept]

theorem homePlace_kept (b : Block) (l : Fin 16) : (kept r m f stamp d).homePlace b l = r.homePlace b l :=
  homePlace_congr (congrArg Stores.regs (kept_m r m f stamp d)) b l

theorem adopted_kept (n : Fin 64) (b : Block) (a : Attr) : (kept r m f stamp d).adopted n b a = r.adopted n b a := by
  have hhash : (kept r m f stamp d).blkHash = r.blkHash := by
    unfold Run.blkHash
    rw [blkMask_kept]
  have hroom : (kept r m f stamp d).roomOf b = r.roomOf b := by
    unfold Run.roomOf
    simp only [hhash]
  unfold Run.adopted Run.isHome Run.actsHome Run.homeOf
  rw [hroom, region_kept, myId_kept, dead_kept]

theorem scnFind_kept (n : Fin 64) (g : BitVec 38) : (kept r m f stamp d).scnFind n g = r.scnFind n g := by
  have hset : (kept r m f stamp d).scnSetOf = r.scnSetOf := by
    unfold Run.scnSetOf Run.fld
    rw [blkMask_kept, reg_kept]
  unfold Run.scnFind Run.scn
  rw [hset, kept_m]

end

/-- The request is in its Room's slot, and its Door keeps it. -/
theorem servable_kept {s : State} {m : Fin 64} {f : FMsg} {stamp : Stamp} {d : Nat} (hidle : idleRoom s m)
    (hfits : (Run.start s).fabFits f = true) (hreads : ¬ isFabWrite f.op) (htwin : f.twin = false) :
    Servable (kept (Run.start s) m f stamp d) m f := by
  refine ⟨?_, ?_, hreads, htwin⟩
  · rw [rooms_kept]
    exact atRest_of_idleRoom hidle
  · exact (fabFits_congr (region_kept _ m f stamp d) (myId_kept _ m f stamp d) (peers_kept _ m f stamp d) f).trans hfits

theorem Plain.kept {b : Block} {a : Attr} {m : Fin 64} (h : Plain r m b a) (f : FMsg) (stamp : Stamp) (d : Nat) :
    Plain (kept r m f stamp d) m b a :=
  ⟨(adopted_kept r m f stamp d m b a).trans h.alone, fun g hg => (scnFind_kept r m f stamp d m g).trans (h.scn g hg)⟩

theorem servedAttr_kept (m : Fin 64) (f : FMsg) (stamp : Stamp) (d : Nat) :
    servedAttr (kept r m f stamp d) f = servedAttr r f := by
  unfold servedAttr
  rw [region_kept]

/-- The tenant of a request does not matter for that. -/
theorem Plain.withTenant {b : Block} {a : Attr} {m : Fin 64} (h : Plain r m b a) (t : BitVec 12) :
    Plain r m b { a with tenant := t } := ⟨h.alone, h.scn⟩

theorem servedPlain_kept {s : State} {m : Fin 64} {f : FMsg}
    (h : plainBlock s m (lineBlk f.addr) ((Run.start s).region (blkRegion (lineBlk f.addr))).attr) (stamp : Stamp) (d : Nat) :
    Plain (kept (Run.start s) m f stamp d) m (lineBlk f.addr) (servedAttr (kept (Run.start s) m f stamp d) f) := by
  rw [servedAttr_kept]
  exact ((Plain.of_plainBlock h).withTenant f.tenant).kept f stamp d

/-- What waits to leave for the line's channel after a fill of an idle Room. -/
theorem outC_servesLine (r : Run) {m : Fin 64} (h : (r.c.rooms[m]).outC = []) (f : FMsg) (a : Attr) (stamp : Stamp)
    (grant : BitVec 2) : ((servesLine r m f a stamp grant).c.rooms[m]).outC =
      [.cmd (r.homePlace (lineBlk f.addr) (lineNo f.addr)).1 (servedRead r m f a stamp)] := by
  rw [room_servesLine, h, List.nil_append]

theorem fabOut_servesLine (r : Run) {m : Fin 64} (h : (r.c.rooms[m]).fabOut = []) (f : FMsg) (a : Attr) (stamp : Stamp)
    (grant : BitVec 2) : ((servesLine r m f a stamp grant).c.rooms[m]).fabOut =
      [{ f := f, grant := grant, tin := stamp, lines := [(lineNo f.addr, none)] }] := by
  rw [room_servesLine, h, List.nil_append]

/-- The scene once the message has been taken out of the delivered ones: its Door keeps it, and nothing else has changed. -/
def takenScene (s : State) (f : FMsg) (stamp : Stamp) (d : Nat) : Scene :=
  { scene (Run.start s) with
    fab := { s.c.fab with
      inbox := s.c.fab.inbox.eraseP fun e => e.1 = f
      kept := s.c.fab.kept ++ [(f, stamp, d)] } }

theorem takenScene_kept (s : State) (m : Fin 64) (f : FMsg) (stamp : Stamp) (d : Nat) :
    scene (kept (Run.start s) m f stamp d) = takenScene s f stamp d := by
  rw [scene_kept, fab_kept]
  rfl

theorem filter_cellFree {os : List StoreOp} (h : ∀ o ∈ os, cellFree o = true) : os.filter (fun o => !(cellFree o)) = [] :=
  List.filter_eq_nil_iff.mpr fun o ho => by simp [h o ho]

/-- Counting changes nothing of the scene. -/
theorem scene_tallied (r : Run) (x : Tally) : scene (tallied r x) = scene r := by
  unfold scene
  rw [tallied_log, List.filter_append, filter_cellFree x.cellFree, List.nil_append]
  rfl

theorem scene_lookedUp (r : Run) (m : Fin 64) (x : Tally) : scene (lookedUp r m x) = scene r :=
  (scene_rmCount (tallied r x) m 0 (by decide)).trans (scene_tallied r x)

/-- A fill that has been served from the home. -/
theorem taken_servesLine {s : State} {r : Run} {f : FMsg} {stamp : Stamp} {d : Nat} {m : Fin 64} {a : Attr} {grant : BitVec 2}
    (h : scene r = takenScene s f stamp d) (hidle : idleRoom s m) :
    let t := Run.finish s (servesLine r m f a stamp grant)
    (t.c.rooms[m]).outC =
        [.cmd (r.homePlace (lineBlk f.addr) (lineNo f.addr)).1 (servedRead r m f a stamp)] ∧
      (t.c.rooms[m]).fabOut = [{ f := f, grant := grant, tin := stamp, lines := [(lineNo f.addr, none)] }] ∧
      t.c.fab.kept = s.c.fab.kept ++ [(f, stamp, d)] ∧ unboxed s t f ∧ (t.c.rooms[m]).waiters = [] ∧ onlyRoom s t m ∧
      t.c.porches = s.c.porches ∧ t.c.chans = s.c.chans ∧ keepsCells s t := by
  obtain ⟨-, -, -, hwaiters, -, -, -, hout, hfab, -⟩ := hidle
  have hrooms : r.c.rooms = s.c.rooms := congrArg Scene.rooms h
  have hinbox : r.c.fab.inbox = s.c.fab.inbox.eraseP fun e => e.1 = f := congrArg (fun v => v.fab.inbox) h
  refine ⟨?_, ?_, congrArg (fun v => v.fab.kept) h, hinbox, ?_, fun n hn => ?_,
    congrArg Scene.porches h, congrArg Scene.chans h, keepsCells_of_scene _ s (congrArg Scene.cells h)⟩
  · exact outC_servesLine r (by rw [hrooms]; exact hout) f a stamp grant
  · exact fabOut_servesLine r (by rw [hrooms]; exact hfab) f a stamp grant
  · rw [finish_c, room_servesLine, hrooms]
    exact hwaiters
  · rw [finish_c, room_servesLine_ne r f a stamp grant hn, hrooms]

/-- A fill of a Private-remote region has the line read. -/
theorem fabRequest_private {s : State} {f : FMsg} {op : BitVec 8} {stamp : Stamp} {d : Nat} (hop : isFill op = true) :
    let r := Run.start s
    let m := r.roomFor f
    delivered s f op stamp d → r.fabServes = true → slotFor s m.val (0x48 + d) → idleRoom s m → r.fabFits f = true →
    (r.region (blkRegion (lineBlk f.addr))).attr.kind = kindPrivate → f.twin = false → f.mask = lineMask [lineNo f.addr] →
    r.lostChan (r.homePlace (lineBlk f.addr) (lineNo f.addr)).1 = false →
    ∃ x : Tally, r.fabRequest f op {} = servesLine (tallied (kept r m f stamp d) x) m f (servedAttr (kept r m f stamp d) f)
      stamp (fillGrant op) := by
  intro r m hbox hserves hslot hidle hfits hkind htwin hmask hchan
  obtain rfl : f.op = op := delivered_op hbox
  have hs : Servable (kept r m f stamp d) m f := servable_kept hidle hfits (not_isFabWrite_of_isFill hop) htwin
  have hunshared : ((kept r m f stamp d).region (blkRegion (lineBlk f.addr))).attr.kind ≠ kindShared := fun h =>
    absurd (hkind.symm.trans (region_kept r m f stamp d ▸ h)) (by decide)
  have hchan' : (kept r m f stamp d).lostChan ((kept r m f stamp d).homePlace (lineBlk f.addr) (lineNo f.addr)).1 = false := by
    rw [homePlace_kept, lostChan_kept]
    exact hchan
  rw [fabRequest_enters {} hbox hserves hslot hidle]
  exact fabEnter_unshared hs hop hmask hunshared hchan' stamp

/-- A command that is such a fill has the line read. -/
theorem fillsFromHome_of_fabRequest {i : Instr} {f : FMsg} {op : BitVec 8} (hop : isFill op = true)
    (hexec : ∀ s, exec i s = .next (Run.finish s ((Run.start s).fabRequest f op {}))) : fillsFromHome i f op := by
  intro s stamp d r b m a
  rcases hplace : r.homePlace b (lineNo f.addr) with ⟨c, idx⟩
  intro hbox hserves hslot hidle hfits hkind htwin hmask hchan
  obtain ⟨x, hdone⟩ := fabRequest_private hop hbox hserves hslot hidle hfits hkind htwin hmask (by rw [hplace]; exact hchan)
  have hat := (homePlace_congr (r' := tallied (kept r m f stamp d) x) rfl b (lineNo f.addr)).trans
    ((homePlace_kept r m f stamp d b (lineNo f.addr)).trans hplace)
  have htaken := (scene_tallied _ x).trans (takenScene_kept s m f stamp d)
  have hnext := (hexec s).trans (congrArg (fun r => Host.Outcome.next (Run.finish s r)) hdone)
  generalize tallied (kept r m f stamp d) x = r' at *
  generalize servedAttr (kept r m f stamp d) f = a' at *
  obtain ⟨hout, hrest⟩ := taken_servesLine (a := a') (grant := fillGrant op) htaken hidle
  rw [hat] at hout
  exact ⟨_, _, hnext, hout, rfl, congrArg Prod.snd hat, rfl, ⟨_, rfl, rfl⟩, hrest⟩

theorem privateFillReadsTheHomeLine : PrivateFillReadsTheHomeLine := fun _ =>
  ⟨fillsFromHome_of_fabRequest rfl fun _ => rfl, fillsFromHome_of_fabRequest rfl fun _ => rfl⟩

/-- Of the tables of cells, a lookup with nothing to correct and an entry of the directory touch the directory only. -/
theorem finish_dirPut (s : State) {r : Run} (m : Fin 64) (x : Tally) (set w : Nat) (e : DirEnt) (hlog : r.log = []) :
    ∀ done : Run, done.log = ((lookedUp r m x).dirPut m set w e).log →
    (Run.finish s done).m.dir = mset {} s.m.dir (dirKey m set w) e ∧ (Run.finish s done).m.dram = s.m.dram ∧
      (Run.finish s done).m.tags = s.m.tags := by
  intro done hdone
  have hcells : (done.log.filter fun o => !(cellFree o)) = [.dir (dirKey m set w) e] := by
    rw [hdone, show ((lookedUp r m x).dirPut m set w e).log = .dir (dirKey m set w) e :: (lookedUp r m x).log from rfl]
    unfold lookedUp Run.rmCount
    rw [count16_m, setReg_log, tallied_log, hlog, List.append_nil, List.filter_cons_of_pos rfl,
      List.filter_cons_of_neg (by simp [cellFree]), filter_cellFree x.cellFree]
  have htables := finish_cells s done hcells
  exact ⟨congrArg (fun t => t.2.2.1.2) htables, congrArg (fun t => t.1.1) htables, congrArg (fun t => t.2.1.1) htables⟩

theorem mget_soleEntry {t : SMap DirEnt} {k : Nat} {b : Block} {q : BitVec 6} {st : BitVec 2} (h : st ≠ 0) :
    mget {} (mset {} t k (soleEntry b q st)) k = soleEntry b q st := by
  unfold mset
  rw [if_neg fun he => h (congrArg DirEnt.state he)]
  exact mget_minsert_self

theorem homePlace_lookedUp (r : Run) (m : Fin 64) (x : Tally) (b : Block) (l : Fin 16) :
    (lookedUp r m x).homePlace b l = r.homePlace b l :=
  (homePlace_rmCount (tallied r x) m 0 (by decide) b l).trans (homePlace_congr rfl b l)

/-- A fill of a Shared block that no House holds lists the asker and has the line read. -/
theorem fabRequest_shared {s : State} {f : FMsg} {op : BitVec 8} {stamp : Stamp} {d w : Nat} {st : BitVec 2} {ev : HomeEv}
    (hop : isFill op = true) (hev : ∀ it : Item, f.op = op → it.src = .fab f → homeEv it = some ev)
    (hafter : ev.after {} 0 = (bit64 f.src, st)) (hst : st ≠ 0) :
    let r := Run.start s
    let b := lineBlk f.addr
    let m := r.roomFor f
    let a := (r.region (blkRegion b)).attr
    delivered s f op stamp d → r.fabServes = true → slotFor s m.val (0x48 + d) → idleRoom s m → r.fabFits f = true →
    a.kind = kindShared → f.twin = false → f.mask = lineMask [lineNo f.addr] →
    r.lostChan (r.homePlace b (lineNo f.addr)).1 = false → plainBlock s m b a → r.dirFind m b = none →
    ((List.range 16).find? fun w => (r.dir m (dirSet b) w).state = 0) = some w →
    ∃ x : Tally, r.fabRequest f op {} = listsAndServes (lookedUp (kept r m f stamp d) m x) m f
      (servedAttr (kept r m f stamp d) f) stamp w st := by
  intro r b m a hbox hserves hslot hidle hfits hkind htwin hmask hchan hplain hdir hway
  obtain rfl : f.op = op := delivered_op hbox
  have hs : Servable (kept r m f stamp d) m f := servable_kept hidle hfits (not_isFabWrite_of_isFill hop) htwin
  have hchan' : (kept r m f stamp d).lostChan ((kept r m f stamp d).homePlace b (lineNo f.addr)).1 = false := by
    rw [homePlace_kept, lostChan_kept]
    exact hchan
  rw [fabRequest_enters {} hbox hserves hslot hidle]
  exact fabEnter_lists hs hop hmask (by rw [region_kept]; exact hkind) (servedPlain_kept hplain stamp d) hchan'
    (fun it => hev it rfl) hafter hst ((dirFind_kept r m f stamp d m b).trans hdir) (by rw [dir_kept]; exact hway) stamp

/-- A command that is a fill of a Shared block lists the asker, and has the line read. -/
theorem listsTheAsker_of_fabRequest {i : Instr} {f : FMsg} {op : BitVec 8} {st : BitVec 2} {ev : HomeEv}
    (hop : isFill op = true) (hev : ∀ it : Item, f.op = op → it.src = .fab f → homeEv it = some ev)
    (hafter : ev.after {} 0 = (bit64 f.src, st)) (hst : st ≠ 0)
    (hexec : ∀ s, exec i s = .next (Run.finish s ((Run.start s).fabRequest f op {}))) :
    listsTheAsker i f op st := by
  intro s stamp d w r b m a
  rcases hplace : r.homePlace b (lineNo f.addr) with ⟨c, idx⟩
  intro hbox hserves hslot hidle hfits hkind htwin hmask hchan hplain hdir hway
  obtain ⟨x, hdone⟩ := fabRequest_shared hop hev hafter hst hbox hserves hslot hidle hfits hkind htwin hmask
    (by rw [hplace]; exact hchan) hplain hdir hway
  have hnext := (hexec s).trans (congrArg (fun r => Host.Outcome.next (Run.finish s r)) hdone)
  have hcells := finish_dirPut s (r := kept r m f stamp d) m x (dirSet b) w (soleEntry b f.src st) rfl
  have htaken := (scene_lookedUp _ m x).trans (takenScene_kept s m f stamp d)
  have hat := homePlace_lookedUp (kept r m f stamp d) m x b (lineNo f.addr)
  rw [homePlace_kept, hplace] at hat
  generalize lookedUp (kept r m f stamp d) m x = r' at *
  generalize servedAttr (kept r m f stamp d) f = a' at *
  have hlisted : (r'.dirPut m (dirSet b) w (soleEntry b f.src st)).c.rooms = s.c.rooms :=
    congrArg Scene.rooms htaken
  have hat' := (homePlace_congr (r := r') (r' := r'.dirPut m (dirSet b) w (soleEntry b f.src st)) rfl b _).trans hat
  obtain ⟨hentry, hdram, htags⟩ := hcells (listsAndServes r' m f a' stamp w st) rfl
  obtain ⟨-, -, -, -, -, -, -, hout, -⟩ := hidle
  have hread := outC_servesLine (r'.dirPut m (dirSet b) w (soleEntry b f.src st)) (m := m) (by rw [hlisted]; exact hout) f a'
    stamp (fillGrant f.op)
  rw [hat'] at hread
  refine ⟨_, _, hnext, ?_, hread, rfl, congrArg Prod.snd hat', ⟨_, rfl, rfl⟩, fun n hn => ?_, hdram, htags⟩
  · rw [hentry]
    exact mget_soleEntry hst
  · exact (room_servesLine_ne _ f a' stamp _ hn).trans (congrArg (fun v => v[n]) hlisted)

theorem sharedFillListsTheAsker : SharedFillListsTheAsker := fun f => by
  refine ⟨listsTheAsker_of_fabRequest (ev := .fillS f.src) rfl (fun it hop hsrc => ?_) ?_ (by decide) fun _ => rfl,
    listsTheAsker_of_fabRequest (ev := .fillO f.src) rfl (fun it hop hsrc => ?_) rfl (by decide) fun _ => rfl⟩
  · unfold homeEv
    rw [hsrc]
    exact if_pos hop
  · exact congrArg (fun s => (s, (2 : BitVec 2))) (BitVec.zero_or (x := bit64 f.src))
  · unfold homeEv
    rw [hsrc]
    exact (if_neg (by rw [hop]; decide)).trans (if_pos hop)

/-! ## UPGRADE -/

/-- UPGRADE of the only sharer is granted. -/
theorem fabRequest_upgrade {s : State} {f : FMsg} {stamp : Stamp} {d w : Nat} {e : DirEnt} :
    let r := Run.start s
    let b := lineBlk f.addr
    let m := r.roomFor f
    let a := (r.region (blkRegion b)).attr
    delivered s f Op.upgrade stamp d → r.fabServes = true → slotFor s m.val (0x48 + d) → idleRoom s m →
    r.fabFits f = true → a.kind = kindShared → f.twin = false → plainBlock s m b a → r.dirFind m b = some (w, e) →
    e.sharers = bit64 f.src → r.dead f.src = false →
    ∃ x : Tally, r.fabRequest f Op.upgrade {} = grantsOwnership (lookedUp (kept r m f stamp d) m x) m f stamp w := by
  intro r b m a hbox hserves hslot hidle hfits hkind htwin hplain hdir hsole hlive
  have hop : f.op = Op.upgrade := delivered_op hbox
  have hs : Servable (kept r m f stamp d) m f := servable_kept hidle hfits (by rw [hop, isFabWrite]; decide) htwin
  rw [fabRequest_enters {} hbox hserves hslot hidle]
  exact fabEnter_upgrade hs hop (by rw [region_kept]; exact hkind) (servedPlain_kept hplain stamp d)
    (run_of_slotFor hslot) ((dirFind_kept r m f stamp d m b).trans hdir) hsole (by rw [dead_kept]; exact hlive) stamp

theorem upgradeOfTheOnlySharerIsGranted : UpgradeOfTheOnlySharerIsGranted := by
  intro s f stamp d w e r b m a hbox hserves hslot hidle hfits hkind htwin hplain hdir hsole _ hlive
  obtain ⟨x, hdone⟩ := fabRequest_upgrade hbox hserves hslot hidle hfits hkind htwin hplain hdir hsole hlive
  have hnext : exec (.upgrade { msg := f }) s = _ := congrArg (fun r => Host.Outcome.next (Run.finish s r)) hdone
  have hcells := finish_dirPut s (r := kept r m f stamp d) m x (dirSet b) w (soleEntry b f.src 3) rfl
  have htaken := (scene_lookedUp _ m x).trans (takenScene_kept s m f stamp d)
  generalize lookedUp (kept r m f stamp d) m x = r' at *
  have hinbox : r'.c.fab.inbox = s.c.fab.inbox.eraseP fun e => e.1 = f := congrArg (fun v => v.fab.inbox) htaken
  obtain ⟨hentry, hdram, -⟩ := hcells (grantsOwnership r' m f stamp w) rfl
  refine ⟨_, hnext, ⟨(r'.dirPut m (dirSet b) w (soleEntry b f.src 3)).mkReply f Op.ackO, stamp,
    ⟨?_, congrArg Scene.fly htaken⟩, rfl, rfl, rfl, rfl⟩, ?_, hinbox, fun n hn => ?_, congrArg Scene.chans htaken,
    congrArg Scene.porches htaken, hdram⟩
  · exact congrArg (fun v => v.wait ++ _) htaken
  · rw [hentry]
    exact mget_soleEntry (by decide)
  · exact congrArg (fun v => v.rooms[n]) htaken

/-- Settles O11: a request of an idle Room is counted, looked up in the directory when its block is Shared, and served at
once; the steps of `fabEnter` are followed one by one, and the tables that they write are read off the log. -/
theorem remoteFillsAreServed : Obligations.RemoteFillsAreServed :=
  ⟨privateFillReadsTheHomeLine, sharedFillListsTheAsker, upgradeOfTheOnlySharerIsGranted⟩

end Sys2Proof.Laws
end

section
/-! SUPPORT. How the one barrier of a Porch waits and ends (R187–R191, R197). -/
namespace Sys2Proof.Laws
open Sys2Proof Sys2Proof.Machine Sys2Proof.Safety

variable (r : Run)

/-! ## What a sweep and a note leave of a barrier -/

/-- The barrier without what it waits for no longer. -/
def sweptBar (p : Fin 8) (b : Bar) : Bar :=
  { b with lands := b.lands.filter fun n => (r.porch p).lands.any fun e => e.seq = n,
           uids := b.uids.filter fun u => (r.porch p).store.any fun e => e.uid = u && !e.sent,
           risks := b.risks.filter fun y => (r.room y.1).wbuf.any fun e => e.seq = y.2 && e.atRisk }

/-- The barrier, with the time at which it had nothing else to wait for. -/
def notedBar (b : Bar) : Bar := if b.met && b.metAt.isNone then { b with metAt := some r.now } else b

/-- Everything that the barrier waits for is still there. -/
def stillWaits (p : Fin 8) (b : Bar) : Prop :=
  (∀ n ∈ b.lands, ∃ e ∈ (r.c.porches[p]).lands, e.seq = n) ∧
    (∀ u ∈ b.uids, ∃ e ∈ (r.c.porches[p]).store, e.uid = u ∧ e.sent = false) ∧ b.risks = []

theorem sweptBar_stillWaits {p : Fin 8} {b : Bar} (h : stillWaits r p b) : sweptBar r p b = b := by
  obtain ⟨hlands, huids, hrisks⟩ := h
  have hl : (b.lands.filter fun n => (r.porch p).lands.any fun e => e.seq = n) = b.lands :=
    List.filter_eq_self.mpr fun n hn => by
      obtain ⟨e, he, hseq⟩ := hlands n hn
      exact List.any_eq_true.mpr ⟨e, he, decide_eq_true hseq⟩
  have hu : (b.uids.filter fun u => (r.porch p).store.any fun e => e.uid = u && !e.sent) = b.uids :=
    List.filter_eq_self.mpr fun u hu => by
      obtain ⟨e, he, huid, hsent⟩ := huids u hu
      exact List.any_eq_true.mpr ⟨e, he, by simp [huid, hsent]⟩
  unfold sweptBar
  rw [hl, hu, hrisks, List.filter_nil, ← hrisks]

theorem met_iff {b : Bar} : b.met = true ↔ b.lands = [] ∧ b.uids = [] ∧ b.markers = 0 ∧ b.risks = [] := by
  simp [Bar.met, and_assoc]

theorem stillWaits_of_met {p : Fin 8} {b : Bar} (h : b.met = true) : stillWaits r p b := by
  obtain ⟨hlands, huids, -, hrisks⟩ := met_iff.mp h
  exact ⟨by simp [hlands], by simp [huids], hrisks⟩

/-- What names a barrier, and what its read returns, stay as they are. -/
theorem bar_checked (p : Fin 8) (b : Bar) : let b' := notedBar r (sweptBar r p b)
    b'.id = b.id ∧ b'.kind = b.kind ∧ b'.k = b.k ∧ b'.value = b.value ∧ b'.err = b.err ∧ b'.ended = b.ended := by
  unfold notedBar
  split <;> exact ⟨rfl, rfl, rfl, rfl, rfl, rfl⟩

theorem met_notedBar (b : Bar) : (notedBar r b).met = b.met := by
  unfold notedBar
  split <;> rfl

/-! ## The only barrier of a Porch -/

/-- The only barrier of a Porch is looked at once. -/
theorem barCheck_single {p : Fin 8} {b : Bar} (h : (r.c.porches[p]).bars = [b]) : r.barCheck p =
    let b' := notedBar r (sweptBar r p b)
    let r' := r.modPorch p fun x => { x with bars := [b'] }
    r'.when (r'.barOver b') fun r => r.barEnd p b' := by
  have hchecked : (r.barSweep p).barMet p = r.modPorch p fun x => { x with bars := [notedBar r (sweptBar r p b)] } :=
    (modPorch_modPorch r p _ _).trans (modPorch_congr r p (by rw [h]; rfl))
  have hbars : ((r.modPorch p fun x => { x with bars := [notedBar r (sweptBar r p b)] }).porch p).bars =
      [notedBar r (sweptBar r p b)] := congrArg Porch.bars (porch_modPorch_self r p _)
  unfold Run.barCheck
  rw [hchecked]
  dsimp only
  rw [hbars]
  simp only [Run.forEach, List.foldl_cons, List.foldl_nil, hbars]
  simp

/-- A barrier that waits for an entry or a request goes on waiting (R187). -/
theorem barCheck_waits {p : Fin 8} {b : Bar} (h : (r.c.porches[p]).bars = [b]) (hwaits : stillWaits r p b)
    (hmet : b.met = false) (hended : b.ended = false) : r.barCheck p = r := by
  have hnoted : notedBar r b = b := if_neg (by simp [hmet])
  have hover : ∀ r : Run, r.barOver b = false := fun r => by simp [Run.barOver, hended, hmet]
  rw [barCheck_single r h, sweptBar_stillWaits r hwaits, hnoted]
  dsimp only
  rw [hover, modPorch_fix r p _ (by rw [← h])]
  rfl

/-- A barrier is over when its time was up, or when nothing is left that it waits for, a SYNC when no event is either
(R189). -/
theorem barCheck_over {p : Fin 8} {b : Bar} (h : (r.c.porches[p]).bars = [b])
    (hover : b.ended = true ∨ b.met = true ∧ (b.kind = .sync → r.c.fbx.reported = [])) : r.barCheck p = r.barEnd p b := by
  obtain ⟨hid, hkind, hk, hvalue, herr, hended⟩ := bar_checked r p b
  have hends : (r.modPorch p fun x => { x with bars := [notedBar r (sweptBar r p b)] }).barOver
      (notedBar r (sweptBar r p b)) = true := by
    unfold Run.barOver
    rw [hended, hkind]
    rcases hover with he | ⟨hm, hs⟩
    · rw [he]; rfl
    · rw [met_notedBar, sweptBar_stillWaits r (stillWaits_of_met r hm), hm]
      by_cases hsync : b.kind = .sync
      · simp [hs hsync]
      · simp [hsync]
  rw [barCheck_single r h]
  dsimp only
  rw [hends]
  show Run.barEnd _ p _ = _
  unfold Run.barEnd
  rw [modPorch_modPorch, hid, hkind, hk, hvalue, herr, modPorch_congr r p (g := fun x =>
    { x with bars := x.bars.filter fun b' => b'.id ≠ b.id }) (by rw [h]; simp [hid])]

/-! ## A barrier ends -/

/-- The Porch waits for no barrier any more. -/
def unbarred (p : Fin 8) : Run := r.modPorch p fun x => { x with bars := [] }

theorem porch_unbarred (p : Fin 8) : (unbarred r p).c.porches[p] = { r.c.porches[p] with bars := [] } :=
  porch_modPorch_self r p _

/-- The offset of the host view at which a barrier of a link was read. -/
def barOff : BarKind → Nat
  | .drain => 0x1000
  | _ => 0x1004

/-- The read of a link's barrier returns its value (R191). -/
theorem barEnd_read {p : Fin 8} {b : Bar} (h : (r.c.porches[p]).bars = [b]) (hkind : b.kind ≠ .msync) :
    r.barEnd p b = ((unbarred r p).toHost (.view p b.k (barOff b.kind) (w32 b.value))).when b.err fun r => r.pchCount p 0x510 1 := by
  have hbars : (r.modPorch p fun x => { x with bars := x.bars.filter fun b' => b'.id ≠ b.id }) = unbarred r p :=
    modPorch_congr r p (by rw [h]; simp)
  unfold Run.barEnd
  rw [hbars]
  cases hb : b.kind with
  | msync => exact absurd hb hkind
  | drain => rfl
  | sync => rfl

/-- A management sync is done, with vector 5 (R197). -/
theorem barEnd_msync {p : Fin 8} {b : Bar} (h : (r.c.porches[p]).bars = [b]) (hkind : b.kind = .msync) :
    r.barEnd p b = ((unbarred r p).modPorch p fun x => { x with msyncDone := true }).vector 5 := by
  have hbars : (r.modPorch p fun x => { x with bars := x.bars.filter fun b' => b'.id ≠ b.id }) = unbarred r p :=
    modPorch_congr r p (by rw [h]; simp)
  unfold Run.barEnd
  rw [hbars, hkind]

end Sys2Proof.Laws
end

section
/-! SUPPORT. The obligation about DRAIN and SYNC barriers (R187–R195). -/
namespace Sys2Proof.Laws
open Sys2Proof Sys2Proof.Machine Sys2Proof.Safety Sys2Proof.Claim

variable (r : Run)

/-! ## A read begins a barrier -/

/-- The Porch with a barrier more. -/
def Porch.barred (x : Porch) (b : Bar) : Porch := { x with bars := x.bars ++ [{ b with id := x.nextBar }], nextBar := x.nextBar + 1 }

theorem porch_addBar (p : Fin 8) (b : Bar) : (r.addBar p b).c.porches[p] = Porch.barred r.c.porches[p] b :=
  porch_modPorch_self r p _

theorem bars_addBar {p : Fin 8} (b : Bar) (h : (r.c.porches[p]).bars = []) :
    ((r.addBar p b).c.porches[p]).bars = [{ b with id := (r.c.porches[p]).nextBar }] := by
  rw [porch_addBar]
  exact congrArg (· ++ _) h

/-- The barrier that a DRAIN read begins (R187). -/
def drainBar (p : Fin 8) (k : Fin 2) : Bar := r.newBar p k .drain ((r.porch p).covered k) [] 0

theorem drainRead_up {p : Fin 8} {k : Fin 2} (h : (r.link p k).up = true) :
    r.drainRead p k = (r.addBar p (drainBar r p k)).barCheck p := if_pos h

/-- The entries that hold a link's completed writes are entries of the Landing. -/
theorem mem_covered {x : Porch} {k : Fin 2} {n : Nat} (h : n ∈ x.covered k) : ∃ e ∈ x.lands, e.seq = n := by
  obtain ⟨e, he, hseq⟩ := List.mem_map.mp h
  exact ⟨e, List.mem_of_mem_filter he, hseq⟩

theorem drainRead_waits {p : Fin 8} {k : Fin 2} (hup : (r.link p k).up = true) (hbars : (r.c.porches[p]).bars = [])
    (hcovered : (r.c.porches[p]).covered k ≠ []) : r.drainRead p k = r.addBar p (drainBar r p k) := by
  have hporch := porch_addBar r p (drainBar r p k)
  rw [drainRead_up r hup]
  refine barCheck_waits _ (bars_addBar r _ hbars) ⟨fun n hn => ?_, by simp [drainBar, Run.newBar], rfl⟩ ?_ rfl
  · rw [hporch]
    exact mem_covered (x := r.c.porches[p]) hn
  · exact Bool.eq_false_iff.mpr fun hmet => hcovered (met_iff.mp hmet).1

/-- The read of a barrier that has nothing to wait for returns 0 at once. -/
theorem drainRead_ends {p : Fin 8} {k : Fin 2} (hup : (r.link p k).up = true) (hbars : (r.c.porches[p]).bars = [])
    (hcovered : (r.c.porches[p]).covered k = []) :
    r.drainRead p k = (unbarred (r.addBar p (drainBar r p k)) p).toHost (.view p k 0x1000 0) := by
  have hmet : (drainBar r p k).met = true := met_iff.mpr ⟨hcovered, rfl, rfl, rfl⟩
  have hbar := bars_addBar r (drainBar r p k) hbars
  rw [drainRead_up r hup, barCheck_over _ hbar (Or.inr ⟨hmet, nofun⟩), barEnd_read _ hbar nofun]
  rfl

/-! ## SYNC: a marker to every Room (R189) -/

/-- A loop over the Rooms whose step changes its Room as `f` says, whatever became of the other Rooms, changes every Room so. -/
theorem forEach_rooms (f : Fin 64 → Room → Room) (step : Fin 64 → Run → Run)
    (hstep : ∀ m ys, step m { r with c := { r.c with rooms := ys } } = ({ r with c := { r.c with rooms := ys } } : Run).modRoom m (f m))
    (ms : List (Fin 64)) (hnodup : ms.Nodup) (ys : Vector Room 64) :
    ∃ zs, Run.forEach { r with c := { r.c with rooms := ys } } ms step = { r with c := { r.c with rooms := zs } } ∧
      ∀ n : Fin 64, zs[n] = if n ∈ ms then f n ys[n] else ys[n] := by
  induction ms generalizing ys with
  | nil => exact ⟨ys, rfl, fun n => by simp⟩
  | cons m ms ih =>
    obtain ⟨hm, hnodup⟩ := List.nodup_cons.mp hnodup
    have hmod : step m { r with c := { r.c with rooms := ys } } =
        { r with c := { r.c with rooms := ys.set m.val (f m ys[m]) m.isLt } } := hstep m ys
    obtain ⟨zs, hrun, hzs⟩ := ih hnodup (ys.set m.val (f m ys[m]) m.isLt)
    refine ⟨zs, ?_, fun n => ?_⟩
    · show Run.forEach (step m _) ms step = _
      rw [hmod, hrun]
    · rw [hzs n]
      by_cases hn : n = m
      · subst hn
        simp [hm]
      · have hval : m.val ≠ n.val := fun e => hn (Fin.ext e.symm)
        simp [hn, hval]

/-- The barrier that a SYNC read begins (R189). -/
def syncBar (p : Fin 8) (k : Fin 2) : Bar :=
  r.newBar p k .sync ((r.porch p).covered k) ((r.porch p).openUids k) (BitVec.allOnes 64)

/-- The Room with the marker of barrier `n` of Porch `p`. -/
def Room.marked (y : Room) (n : Nat) (p : Fin 8) (behind : Nat) : Room :=
  { y with markers := y.markers ++ [{ bar := n, p := p, behind := behind }] }

theorem syncRead_up {p : Fin 8} {k : Fin 2} (h : (r.link p k).up = true) : ∃ ys,
    r.syncRead p k = { r.addBar p (syncBar r p k) with c := { (r.addBar p (syncBar r p k)).c with rooms := ys } } ∧
      ∀ m : Fin 64, ys[m] = Room.marked r.c.rooms[m] (r.porch p).nextBar p (r.behind p m) := by
  obtain ⟨ys, hrun, hys⟩ := forEach_rooms (r.addBar p (syncBar r p k))
    (fun m y => Room.marked y (r.porch p).nextBar p (r.behind p m))
    (fun m r' => r'.modRoom m fun y => Room.marked y (r.porch p).nextBar p (r'.behind p m)) (fun _ _ => rfl)
    allRooms (List.nodup_finRange 64) r.c.rooms
  exact ⟨ys, (if_pos h).trans hrun, fun m => (hys m).trans (if_pos (List.mem_finRange m))⟩

theorem barrierReadsStartTheirBarriers : BarrierReadsStartTheirBarriers := by
  refine ⟨?_, ?_, ?_, ?_⟩
  · intro s p k x hup hbars hcovered
    have hdone := drainRead_waits (Run.start s) hup hbars hcovered
    exact ⟨_, _, congrArg (fun r => Host.Outcome.next (Run.finish s r)) hdone, rfl, bars_addBar _ _ hbars, rfl, rfl, rfl, rfl,
      rfl, rfl⟩
  · intro s p k x hup hbars hcovered
    have hdone := drainRead_ends (Run.start s) hup hbars hcovered
    exact ⟨_, congrArg (fun r => Host.Outcome.next (Run.finish s r)) hdone, congrArg Porch.bars (porch_unbarred _ p), rfl, rfl⟩
  · intro s p k x hup
    obtain ⟨ys, hdone, hys⟩ := syncRead_up (Run.start s) hup
    have hporch := porch_addBar (Run.start s) p (syncBar (Run.start s) p k)
    exact ⟨_, { syncBar (Run.start s) p k with id := x.nextBar },
      congrArg (fun r => Host.Outcome.next (Run.finish s r)) hdone, rfl, congrArg Porch.bars hporch, rfl, rfl, rfl, rfl, rfl, rfl,
      hys⟩
  · intro s p k hdown
    have hlink : ¬ ((Run.start s).link p k).up = true := ne_true_of_eq_false hdown
    exact ⟨congrArg (fun r => Host.Outcome.next (Run.finish s r)) (if_neg hlink),
      congrArg (fun r => Host.Outcome.next (Run.finish s r)) (if_neg hlink)⟩

/-! ## The last Room answers (R189, R191) -/

/-- The Room has answered its markers. -/
def unmarked (m : Fin 64) : Run := r.modRoom m fun y => { y with markers := [] }

theorem room_unmarked (m : Fin 64) : (unmarked r m).c.rooms[m] = { r.c.rooms[m] with markers := [] } := room_modRoom_self r m _

theorem room_unmarked_ne {m n : Fin 64} (h : n ≠ m) : (unmarked r m).c.rooms[n] = r.c.rooms[n] := room_modRoom_ne r _ h

/-- The only marker of a Room is answered, for a barrier that waits for this Room alone. -/
theorem markerDone_last {m : Fin 64} {k : Marker} {b : Bar} (hmarkers : (r.c.rooms[m]).markers = [k])
    (hbars : (r.c.porches[k.p]).bars = [b]) (hid : b.id = k.bar) (hkind : b.kind = .sync) (hlands : b.lands = [])
    (huids : b.uids = []) (hrisks : b.risks = []) (herr : b.err = false) (hlast : b.markers = 1#64 <<< m.val)
    (hreported : r.c.fbx.reported = []) :
    r.markerDone m k = (unbarred (unmarked r m) k.p).toHost (.view k.p b.k 0x1004 (w32 b.value)) := by
  let b' : Bar := { b with markers := 0 }
  let r' := (unmarked r m).modPorch k.p fun x => { x with bars := [b'] }
  have hbar : (r'.c.porches[k.p]).bars = [b'] := congrArg Porch.bars (porch_modPorch_self (unmarked r m) k.p _)
  have hroom : (r.modRoom m fun y => { y with markers := y.markers.filter fun k' => k'.bar ≠ k.bar || k'.p ≠ k.p }) =
      unmarked r m := modRoom_congr r m (by rw [hmarkers]; simp)
  have hporch : ((unmarked r m).modPorch k.p fun x => { x with bars := x.bars.map fun b =>
      if b.id = k.bar then { b with markers := b.markers &&& ~~~(1#64 <<< m.val) } else b }) = r' :=
    modPorch_congr _ k.p (by rw [show ((unmarked r m).c.porches[k.p]).bars = [b] from hbars]; simp [hid, hlast, b'])
  have hanswered : r.markerDone m k = r'.barCheck k.p := by
    unfold Run.markerDone
    rw [hroom]
    exact congrArg (Run.barCheck · k.p) hporch
  have hmet : b'.met = true := met_iff.mpr ⟨hlands, huids, rfl, hrisks⟩
  have hempty : unbarred r' k.p = unbarred (unmarked r m) k.p := modPorch_modPorch _ k.p _ _
  have hoff : barOff b'.kind = 0x1004 := by rw [show b'.kind = .sync from hkind]; rfl
  rw [hanswered, barCheck_over r' hbar (Or.inr ⟨hmet, fun _ => hreported⟩),
    barEnd_read r' hbar (by simp [b', hkind]), show b'.err = false from herr, hempty, hoff]
  rfl

/-- A marker that has arrived is answered where no write buffer entry holds it back. -/
theorem syncMarker_free {m : Fin 64} {k : Marker} (hfence : r.fenced (unitRoom m) = false)
    (hmarkers : (r.c.rooms[m]).markers = [k]) (hbehind : k.behind = 0) (hwbuf : (r.c.rooms[m]).wbuf = []) :
    r.syncMarker m = r.markerDone m k := by
  have hfirst : (r.room m).markers.find? (fun k => k.behind = 0) = some k := by
    rw [show (r.room m).markers = [k] from hmarkers]
    simp [hbehind]
  have hfree : (r.room m).wbuf = [] := hwbuf
  unfold Run.syncMarker
  simp only [hfence, hfirst, hfree]
  simp

theorem lastMarkerAnswerEndsTheSync : LastMarkerAnswerEndsTheSync := by
  intro s m k b y hfence hmarkers hbehind hwbuf hbars hid hkind hlands huids hrisks herr hlast hreported
  have hdone := (syncMarker_free (Run.start s) hfence hmarkers hbehind hwbuf).trans
    (markerDone_last _ hmarkers hbars hid hkind hlands huids hrisks herr hlast hreported)
  exact ⟨_, congrArg (fun r => Host.Outcome.next (Run.finish s r)) hdone,
    congrArg Room.markers (room_unmarked (Run.start s) m), congrArg Porch.bars (porch_unbarred _ k.p), rfl,
    fun n hn => room_unmarked_ne (Run.start s) hn, rfl, rfl, rfl⟩

/-! ## A DRAIN that is late (R192, R195) -/

theorem evUnit_porch (p : Fin 8) (k : Nat) : evUnit (20 + p.val) k = some (unitPorch p) := by
  unfold evUnit unitPorch
  rw [if_neg (by omega), if_neg (by omega), if_pos (by omega), Nat.add_sub_cancel_left]

/-- An event of a Porch that is not fenced is reported. -/
theorem pchEvent_open {p : Fin 8} (k code : Nat) (addr : Option PoolAddr) (access : Nat) (path : List UnitNo)
    (h : r.fenced (unitPorch p) = false) :
    ∃ e : Event, r.pchEvent p k code addr access path = withEvent r e ∧ e.code = code ∧ e.src = 20 + p.val := by
  refine ⟨_, report_open r _ fun u hu => ?_, rfl, rfl⟩
  obtain rfl : unitPorch p = u := Option.some.inj ((evUnit_porch p k).symm.trans hu)
  exact h

/-- The barrier as its time-out leaves it: late, and over. -/
def Bar.lateEnd (b : Bar) : Bar := { b with err := true, late := true, lands := [], ended := true }

/-- A DRAIN whose only entry belongs to a live House ends as late; the entry stays. -/
theorem barLate_live {p : Fin 8} {b : Bar} {e : Land} (hbars : (r.c.porches[p]).bars = [b]) (hkind : b.kind = .drain)
    (hlands : (r.c.porches[p]).lands = [e]) (hwaits : b.lands = [e.seq]) (hlive : r.landDead e = false)
    (hmode : r.mode ≠ .safe) (hfence : r.fenced (unitPorch p) = false) :
    ∃ v : Event, v.code = Code.drainLate ∧ v.src = 20 + p.val ∧
      r.barLate p b = ((unbarred (withEvent r v) p).toHost (.view p b.k 0x1000 3)).pchCount p 0x510 1 := by
  obtain ⟨v, hv, hcode, hsrc⟩ := pchEvent_open r b.k.val Code.drainLate none 0
    (([e].map fun e => unitRoom (r.serving e.room)) ++ (([e].filter fun e => !(r.isHome (lineBlk e.line))).map fun e =>
      unitHouse ((lineBlk e.line).extractLsb' 30 6))) hfence
  let late := (withEvent r v).modPorch p fun x => { x with bars := [Bar.lateEnd b] }
  have hbar : (late.c.porches[p]).bars = [Bar.lateEnd b] := congrArg Porch.bars (porch_modPorch_self (withEvent r v) p _)
  have hmine : ((r.porch p).lands.filter fun e => b.lands.contains e.seq) = [e] := by
    rw [show (r.porch p).lands = [e] from hlands, hwaits]
    simp
  have hdead : ([e].filter fun e => r.landDead e) = [] := by simp [hlive]
  have hlate : ([e].filter fun e => !(r.landDead e)) = [e] := by simp [hlive]
  have hkeeps : (r.forEach [] fun e r => r.loseWrite p e) = r := rfl
  have hended : r.barLate p b = late.barCheck p := by
    unfold Run.barLate
    simp only [hmine, hdead, hlate, hkeeps]
    show Run.barCheck ((r.pchEvent p b.k.val Code.drainLate none 0 _).modPorch p _) p = _
    rw [hv, modPorch_congr (withEvent r v) p (g := fun x => { x with bars := [Bar.lateEnd b] })
      (by rw [show ((withEvent r v).c.porches[p]).bars = [b] from hbars]; simp [Bar.lateEnd, hkind, hmode])]
  have hempty : unbarred late p = unbarred (withEvent r v) p := modPorch_modPorch _ p _ _
  have hoff : barOff (Bar.lateEnd b).kind = 0x1000 := by rw [show (Bar.lateEnd b).kind = .drain from hkind]; rfl
  have hvalue : (Bar.lateEnd b).value = 3 := by simp [Bar.value, Bar.lateEnd, hkind, b2n]
  refine ⟨v, hcode, hsrc, ?_⟩
  rw [hended, barCheck_over late hbar (Or.inl rfl), barEnd_read late hbar (by simp [Bar.lateEnd, hkind]), hempty, hoff, hvalue]
  rfl

/-- The time of the only barrier of a Porch is up (R192). -/
theorem drainTimeout_up {p : Fin 8} {b : Bar} (hbars : (r.c.porches[p]).bars = [b]) (hkind : b.kind = .drain)
    (hby : b.by' ≤ r.c.now) (hended : b.ended = false) (hwaits : b.lands ≠ []) : r.drainTimeout p = r.barLate p b := by
  have hfirst : ((r.porch p).bars.find? fun b => b.kind ≠ .msync && decide (b.by' ≤ r.now) && !b.ended &&
      (!b.lands.isEmpty || r.mode = .safe)) = some b := by
    rw [show (r.porch p).bars = [b] from hbars]
    simp [hkind, show b.by' ≤ r.now from hby, hended, hwaits]
  unfold Run.drainTimeout
  rw [hfirst]

theorem lateDrainBarrierEnds : LateDrainBarrierEnds := by
  intro s p b e r x hbars hkind hby hended hlands hwaits hlive hmode hfence
  obtain ⟨v, hcode, hsrc, hlate⟩ := barLate_live r hbars hkind hlands hwaits hlive hmode hfence
  have hdone := (drainTimeout_up r hbars hkind hby hended (by simp [hwaits])).trans hlate
  have hporch := porch_unbarred (withEvent r v) p
  refine ⟨_, congrArg (fun r => Host.Outcome.next (Run.finish s r)) hdone, congrArg Porch.bars hporch,
    (congrArg Porch.lands hporch).trans hlands, rfl, ⟨v, rfl, hcode, hsrc⟩, rfl, rfl, ?_⟩
  exact keepsCells_of_log s _ (by simp [Run.pchCount, Run.count32, unbarred, cellFree, r])

/-- Settles O16: a barrier of its Porch alone is looked at once, and ends when it has nothing to wait for, when its last
marker is answered, or as late. -/
theorem barriersWaitAndEnd : Obligations.BarriersWaitAndEnd :=
  ⟨barrierReadsStartTheirBarriers, lastMarkerAnswerEndsTheSync, lateDrainBarrierEnds⟩

end Sys2Proof.Laws
end

section
/-! SUPPORT. A request joins the store of its Porch and waits for injection, and the obligation about requests that pass their
checks (R177, R332). -/
namespace Sys2Proof.Laws
open Sys2Proof Sys2Proof.Machine Sys2Proof.Safety Sys2Proof.Claim

variable (r : Run)

/-! ## What a charge leaves alone -/

theorem regs_charge (t : BitVec 12) (k : Meter) (n : Nat) (stamp : Stamp) : (r.charge t k n stamp).m.regs = r.m.regs := by
  have hadd : (r.meterAdd (r.stampBank stamp) t.toNat k n).m.regs = r.m.regs := by
    unfold Run.meterAdd
    split <;> rfl
  unfold Run.charge Run.when
  extract_lets bank added
  split <;> exact hadd

theorem regs_chargeReq (q : HostReq) (op : ROp) (t : BitVec 12) : (r.chargeReq q op t).m.regs = r.m.regs := by
  unfold Run.chargeReq
  split
  · exact regs_charge r _ _ _ _
  · split
    · exact regs_charge r _ _ _ _
    · rfl

variable {r}

/-- Reads of registers depend on the registers alone. -/
theorem reg_of_regs {r' : Run} (h : r'.m.regs = r.m.regs) : r'.reg = r.reg := funext fun a => by
  unfold Run.reg Stores.reg
  rw [h]

theorem roomOf_of_regs {r' : Run} (h : r'.m.regs = r.m.regs) (b : Block) : r'.roomOf b = r.roomOf b := by
  unfold Run.roomOf Run.blkHash Run.blkMask Run.fld
  simp only [reg_of_regs h]

/-! ## A request joins the store -/

variable (r)

/-- The entry of a request that waits at its Porch for injection. -/
def waitingEnt (q : HostReq) (it : Item) (landWait : Bool) : Ent :=
  { uid := (r.porch q.p).nextUid, k := q.k, tag := q.tag, hpa := q.hpa, item := it, room := r.roomOf (paBlock it.pa),
    admitAt := r.now, landWait := landWait,
    limitUs := r.fld (pchBase q.p + 0x34) 15 0, stallUs := r.fld (pchBase q.p + 0x38) 15 0,
    hist := (isRead it.op || isWrite it.op) && r.histTakes q.p (isWrite it.op) it.attr.cls,
    histCfg := r.reg (pchBase q.p + 0xC00) }

/-- The request waits in the store, last, and others are noted as held back or not. -/
def Waits (r r' : Run) (q : HostReq) (it : Item) (landWait : Bool) : Prop :=
  ∃ ps h, AtPorches ps r r' ∧ ps[q.p] = Porch.noted (Porch.joined r.c.porches[q.p] (waitingEnt r q it landWait)) h

/-- A charge changes nothing that the entry notes. -/
theorem waitingEnt_congr {r' : Run} (hat : AtPorches r.c.porches r r') (hregs : r'.m.regs = r.m.regs) (q : HostReq)
    (it : Item) (landWait : Bool) : waitingEnt r' q it landWait = waitingEnt r q it landWait := by
  obtain ⟨mtr, hc⟩ := hat.ctl
  unfold waitingEnt Run.porch Run.now Run.histTakes Run.fld
  rw [hc, roomOf_of_regs hregs, reg_of_regs hregs]

/-- A request that joins the store after its charge waits as it would have before. -/
theorem Waits.of_charge {r' r'' : Run} {q : HostReq} {it : Item} {landWait : Bool} (hat : AtPorches r.c.porches r r')
    (hregs : r'.m.regs = r.m.regs) (h : Waits r' r'' q it landWait) : Waits r r'' q it landWait := by
  obtain ⟨ps, hold, hjoin, hps⟩ := h
  rw [hat.porches, waitingEnt_congr r hat hregs] at hps
  exact ⟨ps, hold, hat.trans hjoin, hps⟩

theorem enqueue_waits (q : HostReq) (it : Item) (landWait : Bool) : Waits r (r.enqueue q it none landWait) q it landWait := by
  let e := waitingEnt r q it landWait
  obtain ⟨h, hnote⟩ := ordHolds_notes (r.modPorch q.p fun x => Porch.joined x e) q.p
  refine ⟨_, h, (atPorches_modPorch r q.p fun x => Porch.joined x e).trans hnote, ?_⟩
  rw [porch_modPorch_self, porch_modPorch_self]

/-- The store with one entry more; what the Porch notes of its requests is not told. -/
theorem store_noted_joined (x : Porch) (e : Ent) (h : Ent → Bool) :
    (Porch.noted (Porch.joined x e) h).store = x.store.map (noteHeld h) ++ [noteHeld h e] ∧
      (x.store.map (noteHeld h)).map Ent.bare = x.store.map Ent.bare := by
  refine ⟨List.map_append, ?_⟩
  rw [List.map_map]
  exact List.map_congr_left fun e _ => bare_noteHeld h e

/-! ## Admission -/

/-- Nothing holds the request back at its Porch, and it goes to its Room. -/
structure GoesToRoom (r : Run) (q : HostReq) (op : ROp) (pa : PoolAddr) (a : Attr) : Prop where
  store : (r.porch q.p).store.length < 2048
  noOid : r.oidWaits q.p (r.ordId q.p a.tenant (paBlock pa)) = false
  noLanding : toLanding op q.meta' a = false
  noHit : isRead op = true → (r.porch q.p).hasLand (paLine pa) = false
  someByte : op = .memWrPtl → q.be ≠ 0

/-- It is charged, and joins the store (R177). -/
theorem admitReq_room {q : HostReq} {op : ROp} {pa : PoolAddr} {a : Attr} (h : GoesToRoom r q op pa a) :
    r.admitReq { q := q, op := op } pa a = (r.chargeReq q op a.tenant).enqueue q
      (r.mkItem q op pa a (r.porch q.p).nextUid) none (isWrite op && a.stream) := by
  have hroom : (r.oidWaits q.p (r.ordId q.p a.tenant (paBlock pa)) || decide (2048 ≤ (r.porch q.p).store.length)) = false :=
    Bool.or_eq_false_iff.mpr ⟨h.noOid, decide_eq_false (Nat.not_le.mpr h.store)⟩
  have hbytes : ¬(decide (op = .memWrPtl) && decide (q.be = 0)) = true := fun hb => by
    obtain ⟨hop, hbe⟩ := Bool.and_eq_true_iff.mp hb
    exact h.someByte (of_decide_eq_true hop) (of_decide_eq_true hbe)
  have hhit : ¬(isRead op && (r.porch q.p).hasLand (paLine pa)) = true := fun hb => by
    obtain ⟨hread, hland⟩ := Bool.and_eq_true_iff.mp hb
    exact ne_true_of_eq_false (h.noHit hread) hland
  unfold Run.admitReq
  exact (if_neg hbytes).trans ((if_neg (ne_true_of_eq_false hroom)).trans
    ((if_neg (ne_true_of_eq_false h.noLanding)).trans (if_neg hhit)))

/-- So it waits there. -/
theorem admitReq_waits {q : HostReq} {op : ROp} {pa : PoolAddr} {a : Attr} (h : GoesToRoom r q op pa a) :
    Waits r (r.admitReq { q := q, op := op } pa a) q (r.mkItem q op pa a (r.porch q.p).nextUid) (isWrite op && a.stream) := by
  rw [admitReq_room r h]
  exact .of_charge r (atPorches_chargeReq r q op a.tenant) (regs_chargeReq r q op a.tenant) (enqueue_waits _ q _ _)

/-- The command at work, once the request's message has come out of its crossing. -/
def reqCame (s : State) (q : HostReq) (op : ROp) : Run := (Run.start s).took (.ingress q.p q.k) (msgWords (isWrite op))

/-- A request that passes its checks is admitted outside DRAIN (R332). -/
theorem hostReq_passes {s : State} {q : HostReq} {op : ROp} {pa : PoolAddr} {a : Attr}
    (hup : ((Run.start s).link q.p q.k).up = true) (hmode : (Run.start s).mode ≠ .drain)
    (hcheck : (Run.start s).check q = .ok pa a) :
    (Run.start s).hostReq q op = (reqCame s q op).admitReq { q := q, op := op } pa a := by
  have htook : (Run.start s).linkTook q.p q.k (isWrite op) = reqCame s q op := if_pos hup
  have hlink : (!((reqCame s q op).link q.p q.k).up) = false := congrArg not hup
  unfold Run.hostReq Run.ingress
  rw [htook, if_neg (ne_true_of_eq_false hlink)]
  refine (if_neg hmode).trans ?_
  rw [show (reqCame s q op).check q = .ok pa a from hcheck]

/-- A command that brings a request admits it, when it passes its checks. -/
theorem admittedAs_of_hostReq {i : Instr} {q : HostReq} {op : ROp}
    (hexec : ∀ s, exec i s = .next (Run.finish s ((Run.start s).hostReq q op))) : AdmittedAs i q op := by
  intro s pa a r hup hmode hcheck hstore hoid hland hhit hbytes
  obtain ⟨ps, hold, hat, hps⟩ := admitReq_waits (reqCame s q op) ⟨hstore, hoid, hland, hhit, hbytes⟩
  rw [← hostReq_passes hup hmode hcheck] at hat
  rw [← hat.porches] at hps
  obtain ⟨mtr, hc⟩ := hat.ctl
  obtain ⟨os, hos, hlog⟩ := hat.log
  let e := waitingEnt (reqCame s q op) q (r.mkItem q op pa a (r.porch q.p).nextUid) (isWrite op && a.stream)
  obtain ⟨hlast, hothers⟩ := store_noted_joined s.c.porches[q.p] e hold
  have hbare := bare_noteHeld hold e
  refine ⟨_, hexec s, ⟨_, _, (congrArg Porch.store hps).trans hlast, hothers, congrArg Ent.k hbare,
    congrArg Ent.tag hbare, congrArg Ent.hpa hbare, congrArg Ent.item hbare, congrArg Ent.room hbare,
    congrArg Ent.stage hbare, congrArg Ent.ans hbare, congrArg Ent.sent hbare⟩, congrArg Ctl.xings hc,
    (congrArg Ctl.out hc :), ?_, ?_⟩
  · unfold keepsUnits keepsHall
    rw [finish_c, hc]
    exact ⟨rfl, rfl, rfl, ⟨rfl, rfl, rfl⟩, rfl, rfl, rfl⟩
  · exact keepsCells_of_log s _ fun o ho => hos o (by simpa [hlog, reqCame] using ho)

/-- Settles O1: each of the six commands brings its request to `admitReq`, which has nothing left to hold it back. -/
theorem checkedRequestIsAdmitted : Obligations.CheckedRequestIsAdmitted := fun _ =>
  ⟨admittedAs_of_hostReq fun _ => rfl, admittedAs_of_hostReq fun _ => rfl, admittedAs_of_hostReq fun _ => rfl,
    admittedAs_of_hostReq fun _ => rfl, admittedAs_of_hostReq fun _ => rfl, admittedAs_of_hostReq fun _ => rfl⟩

end Sys2Proof.Laws
end

section
/-! SUPPORT. The obligation about reservations: their loads and stores are admitted, the words of their window, and the end of
a lease (R199–R203, R338). -/
namespace Sys2Proof.Laws
open Sys2Proof Sys2Proof.Machine Sys2Proof.Safety Sys2Proof.Claim

variable (r : Run)

/-! ## A slot of the reservation window -/

/-- The Porch with a slot of link `k` changed. -/
def Porch.withSlot (x : Porch) (k : Fin 2) (slot : Fin 32) (f : RsvSlot → RsvSlot) : Porch :=
  { x with links := x.links.set k.val { x.links[k] with
    rsv := x.links[k].rsv.set slot.val (f x.links[k].rsv[slot]) slot.isLt } k.isLt }

theorem slot_withSlot (x : Porch) (k : Fin 2) (slot : Fin 32) (f : RsvSlot → RsvSlot) :
    (Porch.withSlot x k slot f).links[k].rsv[slot] = f x.links[k].rsv[slot] := by
  simp [Porch.withSlot]

theorem porch_modSlot (p : Fin 8) (k : Fin 2) (slot : Fin 32) (f : RsvSlot → RsvSlot) :
    (r.modSlot p k slot f).c.porches[p] = Porch.withSlot r.c.porches[p] k slot f := porch_modPorch_self r p _

theorem slot_modSlot (p : Fin 8) (k : Fin 2) (slot : Fin 32) (f : RsvSlot → RsvSlot) :
    ((r.modSlot p k slot f).link p k).rsv[slot] = f ((r.link p k).rsv[slot]) := by
  unfold Run.link Run.porch
  rw [porch_modSlot]
  exact slot_withSlot _ k slot f

theorem atPorches_modSlot (p : Fin 8) (k : Fin 2) (slot : Fin 32) (f : RsvSlot → RsvSlot) :
    AtPorches (r.modSlot p k slot f).c.porches r (r.modSlot p k slot f) := atPorches_modPorch r p _

/-- The checks of a reservation operation do not look at the slots. -/
theorem rsvCheck_modSlot (p : Fin 8) (k : Fin 2) (slot : Fin 32) (f : RsvSlot → RsvSlot) (dpa : Nat) :
    (r.modSlot p k slot f).rsvCheck p k dpa = r.rsvCheck p k dpa := by
  have hopened : ((r.modSlot p k slot f).porch p).opened = (r.porch p).opened :=
    (congrArg Porch.opened (porch_modSlot r p k slot f) :)
  unfold Run.rsvCheck
  rw [hopened]
  rfl

/-! ## Reservation operations are admitted (R200, R202) -/

/-- The request that stands for a reservation operation. -/
def rsvReq (p : Fin 8) (k : Fin 2) : HostReq :=
  { p := p, k := k, tag := 0, hpa := 0, meta' := .noOp, data := 0, be := 0, poison := false, tee := false, rsvd := false }

/-- The store takes its word with it, and is in progress. -/
def storeBegun (hi : Word) (x : RsvSlot) : RsvSlot := { x with storeHi := hi, stores := x.stores + 1 }

theorem rsvStore_waits {p : Fin 8} {k : Fin 2} {slot : Fin 32} {pa : PoolAddr} {a : Attr} (hi : Word)
    (hup : (r.link p k).up = true) (hslot : r.rsvSlot p slot = true)
    (hcheck : r.rsvCheck p k ((r.link p k).rsv[slot]).dpa = .ok pa a) :
    let r' := r.modSlot p k slot (storeBegun hi)
    Waits r' (r.rsvStore p k slot hi) (rsvReq p k) (r'.rsvItem p k slot .rsvStore pa a (hi ++ ((r.link p k).rsv[slot]).storeLo))
      true := by
  intro r'
  have hword : (r'.link p k).rsv[slot] = storeBegun hi ((r.link p k).rsv[slot]) := slot_modSlot r p k slot _
  have hok : r'.rsvCheck p k ((r'.link p k).rsv[slot]).dpa = .ok pa a := by
    rw [rsvCheck_modSlot, hword]
    exact hcheck
  have hdone : r.rsvStore p k slot hi =
      r'.rsvEnqueue p k (r'.rsvItem p k slot .rsvStore pa a (hi ++ ((r'.link p k).rsv[slot]).storeLo)) := by
    unfold Run.rsvStore
    rw [if_neg (by simp [hup, hslot])]
    dsimp only
    split
    · next hfail => exact nomatch hok.symm.trans hfail
    · next hpass =>
      obtain ⟨rfl, rfl⟩ := Chk.ok.inj (hok.symm.trans hpass)
      rfl
  rw [hdone, hword]
  exact enqueue_waits r' (rsvReq p k) _ true

/-- The load's width is noted (R199). -/
def loadAsked (wide : Bool) (x : RsvSlot) : RsvSlot := { x with wide := wide }

/-- Its read waits. -/
def loadWaits (x : RsvSlot) : RsvSlot := { x with loadWait := true }

/-- The load has been charged (R361). -/
def loadCharged (p : Fin 8) (k : Fin 2) (slot : Fin 32) (wide : Bool) (t : BitVec 12) : Run :=
  (r.modSlot p k slot (loadAsked wide)).charge t .rd 8 (r.modSlot p k slot (loadAsked wide)).ftNs

/-- Rooms that hold no reservation have none to break. -/
theorem forEach_rsvBreak_none (hrsvs : ∀ m : Fin 64, (r.c.rooms[m]).rsvs = []) (f : Rsv → Bool) :
    (r.forEach allRooms fun m r => r.rsvBreak m f) = r :=
  forEach_fixed r _ _ fun m _ => rsvBreak_none r m f (hrsvs m)

theorem rsvLoad_waits {p : Fin 8} {k : Fin 2} {slot : Fin 32} {wide : Bool} {pa : PoolAddr} {a : Attr}
    (hup : (r.link p k).up = true) (hslot : r.rsvSlot p slot = true) (hrsvs : ∀ m : Fin 64, (r.c.rooms[m]).rsvs = [])
    (hcheck : r.rsvCheck p k ((r.link p k).rsv[slot]).dpa = .ok pa a) :
    let r' := (loadCharged r p k slot wide a.tenant).modSlot p k slot loadWaits
    Waits r' (r.rsvLoad p k slot wide) (rsvReq p k) (r'.rsvItem p k slot .rsvLoad pa a 0) true := by
  intro r'
  let asked := r.modSlot p k slot (loadAsked wide)
  have hok : asked.rsvCheck p k ((asked.link p k).rsv[slot]).dpa = .ok pa a := by
    rw [rsvCheck_modSlot, slot_modSlot]
    exact hcheck
  have hdone : r.rsvLoad p k slot wide = r'.rsvEnqueue p k (r'.rsvItem p k slot .rsvLoad pa a 0) := by
    unfold Run.rsvLoad
    dsimp only
    rw [if_neg (by simp [hup]), if_neg (by simp [hslot])]
    rw [forEach_rsvBreak_none (r.modSlot p k slot _) hrsvs]
    split
    · next hfail => exact nomatch hok.symm.trans hfail
    · next hpass =>
      obtain ⟨rfl, rfl⟩ := Chk.ok.inj (hok.symm.trans hpass)
      rfl
  rw [hdone]
  exact enqueue_waits r' (rsvReq p k) _ true

variable {r}

/-- What a command leaves behind that has put a reservation operation into the store. -/
structure RsvAdmitted (s : State) (p : Fin 8) (k : Fin 2) (slot : Fin 32) (f : RsvSlot → RsvSlot) (it : Item) (t : State)
    (es : List Ent) (e : Ent) : Prop where
  store : (t.c.porches[p]).store = es ++ [e]
  others : es.map Ent.bare = (s.c.porches[p]).store.map Ent.bare
  item : e.item = it
  stage : e.stage = .waiting
  landWait : e.landWait = true
  slot : (t.c.porches[p]).links[k].rsv[slot] = f (s.c.porches[p]).links[k].rsv[slot]
  rooms : t.c.rooms = s.c.rooms
  out : t.c.out = s.c.out
  hall : keepsHall s t
  cells : keepsCells s t

theorem rsvAdmitted_of_waits {s : State} {r' done : Run} {p : Fin 8} {k : Fin 2} {slot : Fin 32} {f : RsvSlot → RsvSlot}
    {it : Item} (hstart : AtPorches r'.c.porches (Run.start s) r')
    (hporch : r'.c.porches[p] = Porch.withSlot s.c.porches[p] k slot f) (hwaits : Waits r' done (rsvReq p k) it true) :
    ∃ es e, RsvAdmitted s p k slot f it (Run.finish s done) es e := by
  obtain ⟨ps, hold, hjoin, hps⟩ := hwaits
  have hat := hstart.trans hjoin
  rw [← hat.porches] at hps
  replace hps : done.c.porches[p] = Porch.noted (Porch.joined r'.c.porches[p] (waitingEnt r' (rsvReq p k) it true)) hold := hps
  rw [hporch] at hps
  obtain ⟨mtr, hc⟩ := hat.ctl
  obtain ⟨os, hos, hlog⟩ := hat.log
  let e := waitingEnt r' (rsvReq p k) it true
  obtain ⟨hlast, hothers⟩ := store_noted_joined (Porch.withSlot s.c.porches[p] k slot f) e hold
  have hbare := bare_noteHeld hold e
  refine ⟨_, _, (congrArg Porch.store hps).trans hlast, hothers, congrArg Ent.item hbare, congrArg Ent.stage hbare,
    congrArg Ent.landWait hbare, (congrArg (fun x : Porch => x.links[k].rsv[slot]) hps).trans (slot_withSlot _ k slot f),
    (congrArg Ctl.rooms hc :), (congrArg Ctl.out hc :), ?_, ?_⟩
  · exact ⟨(congrArg Ctl.hall hc :), (congrArg Ctl.wait hc :), (congrArg Ctl.fly hc :)⟩
  · exact keepsCells_of_log s _ fun o ho => hos o (by simpa [hlog] using ho)

theorem withSlot_withSlot (x : Porch) (k : Fin 2) (slot : Fin 32) (f g : RsvSlot → RsvSlot) :
    Porch.withSlot (Porch.withSlot x k slot f) k slot g = Porch.withSlot x k slot (g ∘ f) := by
  simp [Porch.withSlot]

theorem reservationOperationsAreAdmitted : ReservationOperationsAreAdmitted := by
  constructor
  · intro s p k slot wide pa a r x hup hslot hrsvs hcheck
    let asked := r.modSlot p k slot (loadAsked wide)
    have hcharge : AtPorches asked.c.porches asked (loadCharged r p k slot wide a.tenant) := atPorches_charge asked _ _ _ _
    have hporch : ((loadCharged r p k slot wide a.tenant).modSlot p k slot loadWaits).c.porches[p] =
        Porch.withSlot s.c.porches[p] k slot (loadWaits ∘ loadAsked wide) := by
      rw [porch_modSlot, hcharge.porches, porch_modSlot]
      exact withSlot_withSlot _ k slot _ _
    have hstart := ((atPorches_modSlot r p k slot (loadAsked wide)).trans hcharge).trans
      (atPorches_modSlot _ p k slot loadWaits)
    obtain ⟨es, e, h⟩ := rsvAdmitted_of_waits hstart hporch (rsvLoad_waits r hup hslot hrsvs hcheck)
    have huid : (((loadCharged r p k slot wide a.tenant).modSlot p k slot loadWaits).porch p).nextUid = x.nextUid :=
      (congrArg Porch.nextUid hporch :)
    exact ⟨_, es, e, rfl, h.store, h.others, congrArg Item.op h.item, congrArg Item.pa h.item, congrArg Item.attr h.item,
      (congrArg Item.src h.item).trans (congrArg (Src.rsv · p k slot) huid), h.stage, h.landWait,
      h.slot, h.rooms, h.out, h.hall, h.cells⟩
  · intro s p k slot hi pa a r x hup hslot hcheck
    have hporch := porch_modSlot r p k slot (storeBegun hi)
    have huid : ((r.modSlot p k slot (storeBegun hi)).porch p).nextUid = x.nextUid := (congrArg Porch.nextUid hporch :)
    obtain ⟨es, e, h⟩ := rsvAdmitted_of_waits (atPorches_modSlot r p k slot _) hporch (rsvStore_waits r hi hup hslot hcheck)
    exact ⟨_, es, e, rfl, h.store, h.others, congrArg Item.op h.item, congrArg Item.pa h.item,
      (congrArg Item.src h.item).trans (congrArg (Src.rsv · p k slot) huid), h.stage,
      congrArg Item.data h.item, congrArg Item.mask h.item, h.slot, h.rooms, h.out, h.hall, h.cells⟩

/-! ## The words of the window (R199, R338) -/

variable (r)

/-- A host's write of a slot's word changes that word of that slot. -/
theorem hostViewWrite_slot {p : Fin 8} {k : Fin 2} {slot : Fin 32} (hup : (r.link p k).up = true)
    (hslot : r.rsvSlot p slot = true) {i : Nat} (hi : i < 0x18) (h4 : i % 4 = 0) (v : Word) :
    r.hostViewWrite p k (BitVec.ofNat 20 (0x2000 + i + 0x40 * slot.val)).toNat v =
      if i = 0 then r.modSlot p k slot fun s => { s with addrLo := v &&& 0xFFFFFFF8 }
      else if i = 4 then r.modSlot p k slot fun s => { s with addrHi := v &&& 0xFFFFF }
      else if i = 0x10 then r.modSlot p k slot fun s => { s with storeLo := v }
      else if i = 0x14 then r.rsvStore p k slot v
      else if i = 8 || i = 0xC || i = 0x18 then r.viewRo p k
      else r := by
  have hoff : (BitVec.ofNat 20 (0x2000 + i + 0x40 * slot.val)).toNat = 0x2000 + i + 0x40 * slot.val := by
    rw [BitVec.toNat_ofNat]
    omega
  rw [hoff]
  generalize hword : 0x2000 + i + 0x40 * slot.val = off
  have hin : 0x2000 ≤ off ∧ off < 0x2800 := by omega
  have hof : (⟨(off - 0x2000) / 0x40 % 32, Nat.mod_lt _ (by decide)⟩ : Fin 32) = slot := Fin.ext (by simp only; omega)
  have hat : (off - 0x2000) % 0x40 = i := by omega
  have hlive : ¬(!(r.link p k).up || decide (off % 4 ≠ 0)) = true := by
    have : off % 4 = 0 := by omega
    simp [hup, this]
  have hplain : ¬(decide (off = 0) || decide (off = 8) || decide (off = 0xC) || decide (off = 0x1000) ||
      decide (off = 0x1004)) = true := by
    simp only [Bool.or_eq_true, decide_eq_true_eq]
    omega
  unfold Run.hostViewWrite
  rw [if_neg hlive, if_neg hplain, if_pos hin]
  dsimp only
  rw [hof, hat, hslot]
  rfl

/-- A missing slot's word reads 0 (R199). -/
theorem rsvResult_missing {p : Fin 8} {k : Fin 2} {slot : Fin 32} (hup : (r.link p k).up = true)
    (hslot : r.rsvSlot p slot = false) : r.rsvResult p k slot = r.toHost (.view p k (0x2018 + slot.val * 0x40) 0) := by
  unfold Run.rsvResult
  simp [hup, hslot]

/-- A read of the result answers while no store is in progress (R199). -/
theorem rsvResult_idle {p : Fin 8} {k : Fin 2} {slot : Fin 32} (hup : (r.link p k).up = true)
    (hslot : r.rsvSlot p slot = true) (hidle : ((r.link p k).rsv[slot]).stores = 0) :
    r.rsvResult p k slot =
      r.toHost (.view p k (0x2018 + slot.val * 0x40) (((r.link p k).rsv[slot]).result.setWidth 32)) := by
  unfold Run.rsvResult
  simp only [hup, hslot, hidle]
  rfl

/-- A read of the result waits while a store is in progress (R199). -/
theorem rsvResult_busy {p : Fin 8} {k : Fin 2} {slot : Fin 32} (hup : (r.link p k).up = true)
    (hslot : r.rsvSlot p slot = true) (hbusy : ((r.link p k).rsv[slot]).stores ≠ 0) :
    r.rsvResult p k slot = r.modSlot p k slot fun s => { s with resultWait := s.resultWait + 1 } := by
  unfold Run.rsvResult
  simp only [hup, hslot]
  exact if_pos hbusy

/-- What a command leaves behind that has changed one slot. -/
theorem slotWritten {s : State} {p : Fin 8} {k : Fin 2} {slot : Fin 32} (f : RsvSlot → RsvSlot) {r' : Run}
    (h : r' = (Run.start s).modSlot p k slot f) :
    ∃ t, (Host.Outcome.next (Run.finish s r') : Host.Outcome State Fault Refusal) = .next t ∧
      t = { s with c := { s.c with porches := t.c.porches } } ∧
      (t.c.porches[p]).links[k].rsv[slot] = f ((s.c.porches[p]).links[k].rsv[slot]) := by
  subst h
  exact ⟨_, rfl, rfl, slot_modSlot (Run.start s) p k slot f⟩

theorem reservationWindowWords : ReservationWindowWords := by
  refine ⟨?_, ?_, ?_⟩
  · intro s p k slot v x hup hslot
    have hat {i : Nat} (hi : i < 0x18) (h4 : i % 4 = 0) := hostViewWrite_slot (Run.start s) hup hslot hi h4 v
    exact ⟨slotWritten (fun x => { x with addrLo := v &&& 0xFFFFFFF8 }) (hat (i := 0) (by decide) rfl),
      slotWritten (fun x => { x with addrHi := v &&& 0xFFFFF }) (hat (i := 4) (by decide) rfl),
      slotWritten (fun x => { x with storeLo := v }) (hat (i := 0x10) (by decide) rfl),
      fun hidle => congrArg (fun r => Host.Outcome.next (Run.finish s r)) (rsvResult_idle (Run.start s) hup hslot hidle),
      fun hbusy => slotWritten _ (rsvResult_busy (Run.start s) hup hslot hbusy)⟩
  · intro s p k slot v reads0 hup hslot
    have hload : (Run.start s).rsvLoad p k slot false = (Run.start s).toHost (.view p k (0x2008 + slot.val * 0x40) 0) := by
      unfold Run.rsvLoad
      simp only [show ((Run.start s).link p k).up = true from hup, hslot]
      rfl
    have hstore : (Run.start s).rsvStore p k slot v = Run.start s := by
      unfold Run.rsvStore
      exact if_pos (by simp [hslot])
    exact ⟨congrArg (fun r => Host.Outcome.next (Run.finish s r)) (rsvResult_missing (Run.start s) hup hslot),
      congrArg (fun r => Host.Outcome.next (Run.finish s r)) hload,
      congrArg (fun r => Host.Outcome.next (Run.finish s r)) hstore⟩
  · intro s p k v hup hfence
    have hdone : (Run.start s).hostViewWrite p k 0x1000 v = (Run.start s).viewRo p k := by
      unfold Run.hostViewWrite
      rw [if_neg (by simp [show ((Run.start s).link p k).up = true from hup])]
      rfl
    obtain ⟨e, hlogged, hcode, hsrc⟩ := pchEvent_open (Run.start s) k.val Code.csrAccessHost none 0 [] hfence
    exact ⟨_, congrArg (fun r => Host.Outcome.next (Run.finish s r)) (hdone.trans hlogged), rfl, e, rfl, hcode, hsrc⟩

/-! ## A lease ends (R203) -/

/-- The only reservation of a Room is broken: it is gone, and is counted. -/
theorem rsvBreak_only {m : Fin 64} {v : Rsv} {f : Rsv → Bool} (hrsvs : (r.c.rooms[m]).rsvs = [v]) (hf : f v = true) :
    r.rsvBreak m f = ((r.modRoom m fun y => { y with rsvs := [] }).rmCount m 0x3C4 1).pulse m 0x14 1 := by
  have hroom : (r.room m).rsvs = [v] := hrsvs
  unfold Run.rsvBreak
  simp only [hroom, List.filter_cons, hf]
  rw [modRoom_congr r m (g := fun y => { y with rsvs := [] }) (by
    show { r.c.rooms[m] with rsvs := (r.c.rooms[m]).rsvs.filter fun v => !(f v) } = _
    rw [hrsvs]
    simp [hf])]
  rfl

theorem reservationLeaseExpires : ReservationLeaseExpires := by
  constructor
  · intro s m v hmode hrsvs hover
    let freed := (Run.start s).modRoom m fun y => { y with rsvs := [] }
    let broken := freed.rmCount m 0x3C4 1
    obtain ⟨x, hcounted⟩ := pulse_counts broken m 0x14 1
    have hdone : (Run.start s).leaseEnd m = tallied broken x := by
      unfold Run.leaseEnd
      exact (if_neg hmode).trans ((rsvBreak_only (Run.start s) hrsvs (decide_eq_true hover)).trans hcounted)
    have hself : freed.c.rooms[m] = { s.c.rooms[m] with rsvs := [] } := room_modRoom_self (Run.start s) m _
    have hothers : ∀ n : Fin 64, n ≠ m → freed.c.rooms[n] = s.c.rooms[n] := fun n hn => room_modRoom_ne (Run.start s) _ hn
    refine ⟨_, congrArg (fun r => Host.Outcome.next (Run.finish s r)) hdone, hself, hothers, rfl, rfl,
      ⟨rfl, rfl, rfl⟩, rfl, ?_⟩
    refine keepsCells_of_scene _ s ?_
    rw [scene_tallied, scene_rmCount _ m 1 (by decide), scene_modRoom]
    rfl
  · intro s m hsafe
    exact congrArg (fun r => Host.Outcome.next (Run.finish s r)) (if_pos hsafe :)

/-- Settles O18: a reservation operation that passes its checks joins the store of its Porch; the window's words are the
slot's own; and a lease that ends breaks its reservation, except in SAFE. -/
theorem reservationsAreHeldAndEnd : Obligations.ReservationsAreHeldAndEnd :=
  ⟨reservationOperationsAreAdmitted, reservationWindowWords, reservationLeaseExpires⟩

end Sys2Proof.Laws
end

section
/-! SUPPORT. The obligation about the watchdogs of a Porch, and about a write that waits on a dead House (R193, R194, R342,
R343). -/
namespace Sys2Proof.Laws
open Sys2Proof Sys2Proof.Machine Sys2Proof.Safety Sys2Proof.Claim

variable {r : Run}

/-! ## Reports to hosts (R347) -/

/-- The link apart from its event logs. -/
def Link.unlogged (l : Link) : Link := { l with logs := [], overflow := [] }

/-- The Porch apart from the event logs of its links. -/
def Porch.unlogged (x : Porch) : Porch := { x with links := x.links.map Link.unlogged }

/-- Only event logs of links and what leaves have changed. -/
structure HostLogged (r r' : Run) : Prop where
  ctl : ∃ ps o, r'.c = { r.c with porches := ps, out := o }
  porch : ∀ p : Fin 8, Porch.unlogged r'.c.porches[p] = Porch.unlogged r.c.porches[p]
  m : r'.m = r.m
  log : r'.log = r.log

theorem HostLogged.refl (r : Run) : HostLogged r r := ⟨⟨_, _, rfl⟩, fun _ => rfl, rfl, rfl⟩

theorem HostLogged.trans {r' r'' : Run} (h : HostLogged r r') (h' : HostLogged r' r'') : HostLogged r r'' := by
  obtain ⟨ps, o, hc⟩ := h.ctl
  obtain ⟨ps', o', hc'⟩ := h'.ctl
  exact ⟨⟨ps', o', by rw [hc', hc]⟩, fun p => (h'.porch p).trans (h.porch p), h'.m.trans h.m, h'.log.trans h.log⟩

theorem HostLogged.store {r' : Run} (h : HostLogged r r') (p : Fin 8) : (r'.c.porches[p]).store = (r.c.porches[p]).store :=
  (congrArg Porch.store (h.porch p) :)
theorem HostLogged.bars {r' : Run} (h : HostLogged r r') (p : Fin 8) : (r'.c.porches[p]).bars = (r.c.porches[p]).bars :=
  (congrArg Porch.bars (h.porch p) :)
theorem HostLogged.lands {r' : Run} (h : HostLogged r r') (p : Fin 8) : (r'.c.porches[p]).lands = (r.c.porches[p]).lands :=
  (congrArg Porch.lands (h.porch p) :)
theorem HostLogged.buf {r' : Run} (h : HostLogged r r') (p : Fin 8) (k : Fin 2) :
    ((r'.c.porches[p]).links[k]).buf = ((r.c.porches[p]).links[k]).buf := by
  have hlinks := congrArg (fun x : Porch => (x.links[k]).buf) (h.porch p)
  simpa [Porch.unlogged, Link.unlogged] using hlinks

theorem hostLogged_modLink (r : Run) (p : Fin 8) (k : Fin 2) {f : Link → Link}
    (hf : ∀ l, Link.unlogged (f l) = Link.unlogged l) : HostLogged r (r.modLink p k f) := by
  refine ⟨⟨_, _, rfl⟩, fun q => ?_, rfl, rfl⟩
  by_cases hq : q = p
  · subst hq
    have hporch : (r.modLink q k f).c.porches[q] =
        { r.c.porches[q] with links := (r.c.porches[q]).links.set k.val (f (r.c.porches[q]).links[k]) k.isLt } :=
      porch_modPorch_self r q _
    rw [hporch]
    have hself : ((r.c.porches[q]).links.map Link.unlogged).set k.val (Link.unlogged (r.c.porches[q]).links[k]) k.isLt =
        (r.c.porches[q]).links.map Link.unlogged := by
      have hk := Vector.getElem_map Link.unlogged (xs := (r.c.porches[q]).links) k.isLt
      exact (congrArg (Vector.set _ k.val · k.isLt) hk.symm).trans (Vector.set_getElem_self k.isLt)
    unfold Porch.unlogged
    simp only [Vector.map_set, hf]
    rw [hself]
  · exact congrArg Porch.unlogged (porch_modPorch_ne r _ hq)

theorem hostLog_logged (r : Run) (p : Fin 8) (k : Fin 2) (log : EvLog) (rec' : EvRec) (hpa : Option (BitVec 52)) :
    HostLogged r (r.hostLog p k log rec' hpa) := by
  unfold Run.hostLog Run.when
  extract_lets l logged i
  split
  · exact hostLogged_modLink r p k fun _ => rfl
  · have hlogged : HostLogged r logged := hostLogged_modLink r p k fun _ => rfl
    split
    · exact hlogged.trans ⟨⟨_, _, rfl⟩, fun _ => rfl, rfl, rfl⟩
    · exact hlogged

theorem hostReport_logged (r : Run) (pa : PoolAddr) (log : EvLog) (rec' : EvRec) :
    HostLogged r (r.hostReport pa log rec') := by
  unfold Run.hostReport
  generalize r.linksOf pa = pks
  induction pks generalizing r with
  | nil => exact .refl r
  | cons pk pks ih => exact (hostLog_logged r pk.1 pk.2 log rec' _).trans (ih _)

/-! ## A write to a dead House is lost (R193, R194) -/

/-- The Porch with the drain `seq` retired and its Landing entry freed. -/
def lostEntry (r : Run) (p : Fin 8) (seq : Nat) (ds ds' : List LandSent) : Run :=
  r.modPorch p fun x => Porch.freed { x with landSent := ds } (fun y => y.seq = seq) r.c.cc ds'

theorem porch_lostEntry (r : Run) (p : Fin 8) (seq : Nat) (ds ds' : List LandSent) :
    (lostEntry r p seq ds ds').c.porches[p] =
      Porch.freed { r.c.porches[p] with landSent := ds } (fun y => y.seq = seq) r.c.cc ds' := porch_modPorch_self r p _

theorem modSent_eq (r : Run) (p : Fin 8) (seq : Nat) (f : LandSent → LandSent) :
    ∃ ds, r.modSent p seq f = r.modPorch p fun x => { x with landSent := ds } := ⟨_, modPorch_congr r p rfl⟩

theorem retired_dropped (r : Run) (p : Fin 8) (seq : Nat) : ∃ ds ds', ((r.modSent p seq fun d =>
    { d with retired := true }).landDrop p fun y => y.seq = seq) = lostEntry r p seq ds ds' := by
  obtain ⟨ds, hsent⟩ := modSent_eq r p seq fun d => { d with retired := true }
  obtain ⟨ds', hdrop⟩ := landDrop_eq (r.modPorch p fun x => { x with landSent := ds }) p fun y => y.seq = seq
  rw [hsent]
  exact ⟨ds, ds', hdrop.trans (modPorch_modPorch r p _ _)⟩

theorem modPorch_noBars {p : Fin 8} (hbars : (r.c.porches[p]).bars = []) (f : Bar → Bar) :
    (r.modPorch p fun x => { x with bars := x.bars.map f }) = r :=
  modPorch_fix r p _ (by
    show { r.c.porches[p] with bars := (r.c.porches[p]).bars.map f } = r.c.porches[p]
    rw [hbars, List.map_nil, ← hbars])

theorem poisonNear_none {m : Fin 64} {line : BitVec 40} (h : r.liveEnt m (lineBlk line) = none) (valid : Bool) :
    r.poisonNear m line valid = r := by
  unfold Run.poisonNear
  dsimp only
  rw [h]

/-- A lost write of a quiet Porch, whose line no entry near holds: its Landing entry is freed, the loss is reported, and
the hosts are told. -/
theorem loseWrite_quiet {s : State} {p : Fin 8} {e : Land}
    (hnear : (Run.start s).liveEnt ((Run.start s).serving e.room) (lineBlk e.line) = none) (hquiet : quietPorch s p)
    (hfence : (Run.start s).fenced (unitPorch p) = false) :
    ∃ (ds ds' : List LandSent) (v : Event), v.code = Code.porchLostWrite ∧ v.src = 20 + p.val ∧
      HostLogged (withEvent (lostEntry (Run.start s) p e.seq ds ds') v) ((Run.start s).loseWrite p e) := by
  obtain ⟨hbuf, hbars, hstore⟩ := hquiet
  obtain ⟨ds, ds', hfreed⟩ := retired_dropped (Run.start s) p e.seq
  let freed := lostEntry (Run.start s) p e.seq ds ds'
  let k : Nat := if e.links.contains 0 then 0 else if e.links.contains 1 then 1 else 0
  obtain ⟨v, hlogged, hcode, hsrc⟩ := pchEvent_open freed k Code.porchLostWrite (some (linePa e.line)) 2 [] hfence
  have hporch : (withEvent freed v).c.porches[p] = _ := porch_lostEntry (Run.start s) p e.seq ds ds'
  let told := (withEvent freed v).hostReport (linePa e.line) .fail .media
  have htold : HostLogged (withEvent freed v) told := hostReport_logged _ _ _ _
  have hsettled : told.porchSettle p = told := by
    refine settle_quiet told p (fun k => (htold.buf p k).trans ?_) ((htold.bars p).trans ?_) ?_ ?_
    · rw [hporch]
      exact hbuf k
    · rw [hporch]
      exact hbars
    · rw [htold.store p, hporch]
      intro e he uid q k slot hsrc
      have hplain := (hstore e he).1
      rw [hsrc] at hplain
      exact nomatch hplain
    · rw [htold.store p, hporch]
      exact fun e he => (hstore e he).2
  have hdone : (Run.start s).loseWrite p e = told := by
    unfold Run.loseWrite
    dsimp only
    rw [modPorch_noBars hbars, hfreed]
    refine Eq.trans (congrArg (fun r : Run => ((r.poisonNear _ e.line true).hostReport (linePa e.line) .fail
      .media).porchSettle p) hlogged) ?_
    rw [show (withEvent freed v).poisonNear ((Run.start s).serving e.room) e.line true = withEvent freed v from
      poisonNear_none (r := withEvent freed v) hnear true]
    exact hsettled
  exact ⟨ds, ds', v, hcode, hsrc, hdone ▸ htold⟩

theorem writeToADeadHouseIsLost : WriteToADeadHouseIsLost := by
  intro s p e r hlands hdead hover hnear hquiet hfence
  obtain ⟨ds, ds', v, hcode, hsrc, hlost⟩ := loseWrite_quiet hnear hquiet hfence
  have hdone : r.lostWrite p = r.loseWrite p e := by
    have hfirst : ((r.porch p).lands.find? fun e => r.landDead e && decide ((r.peer ((lineBlk e.line).extractLsb' 30 6)).deadAt +
        usec (r.fld (pchBase p + 0x508) 15 0) ≤ r.now)) = some e := by
      rw [show (r.porch p).lands = [e] from hlands, List.find?_cons_of_pos]
      rw [hdead]
      exact decide_eq_true hover
    unfold Run.lostWrite
    rw [hfirst]
  generalize r.loseWrite p e = told at hlost hdone
  obtain ⟨ps, o, hc⟩ := hlost.ctl
  have hgone : (r.c.porches[p]).lands.filter (fun y => !(decide (y.seq = e.seq))) = [] := by
    rw [show (r.c.porches[p]).lands = [e] from hlands]
    simp
  refine ⟨_, congrArg (fun r => Host.Outcome.next (Run.finish s r)) hdone, ?_, ⟨v, ?_, hcode, hsrc⟩,
    (congrArg Ctl.rooms hc :), (congrArg Ctl.chans hc :),
    ⟨(congrArg Ctl.hall hc :), (congrArg Ctl.wait hc :), (congrArg Ctl.fly hc :)⟩, ?_⟩
  · exact (hlost.lands p).trans ((congrArg Porch.lands (porch_lostEntry r p e.seq ds ds')).trans hgone)
  · exact (congrArg (fun c : Ctl => c.fbx.reported) hc :)
  · exact keepsCells_of_log s _ (by rw [hlost.log]; exact fun o ho => nomatch ho)

/-! ## The watchdogs of the requests (R342, R343) -/

/-- The count of stalled responses of a Porch takes a whole word, and resets to 0 (R343). -/
theorem stallCount_whole (p : Fin 8) : regMask (pchBase p + 0x11C) = 0xFFFFFFFF ∧ regReset (pchBase p + 0x11C) = 0 := by
  revert p
  decide +kernel

theorem requestTimesOut {s : State} {p : Fin 8} {e : Ent} (hfirst : ((s.c.porches[p]).store.find? fun e =>
    e.ans.isNone && decide (e.admitAt + usec e.limitUs ≤ (Run.start s).now)) = some e) (hmode : (Run.start s).mode ≠ .safe)
    (hfence : (Run.start s).fenced (unitPorch p) = false) :
    ∃ v : Event, (Run.start s).reqTimeout p = withEvent (Run.start s) v ∧
      v.code = Code.reqTimeout ∧ v.src = 20 + p.val := by
  unfold Run.reqTimeout
  rw [show ((Run.start s).porch p).store = (s.c.porches[p]).store from rfl, hfirst]
  dsimp only
  rw [if_neg hmode]
  exact pchEvent_open (Run.start s) _ _ _ _ _ hfence

/-- A count that takes a whole word and resets to 0 goes up, and saturates (R457). -/
theorem reg_count32_whole (r : Run) {a : Nat} (hmask : regMask a = 0xFFFFFFFF) (hreset : regReset a = 0) :
    ((r.count32 a 1).m.reg a).toNat = min 0xFFFFFFFF (r.reg a + 1) := by
  let n := min 0xFFFFFFFF (r.reg a + 1)
  have hn : (w32 n).toNat = n := by
    unfold w32
    rw [BitVec.toNat_ofNat]
    omega
  have hpos : w32 n ≠ 0 := fun h => by
    have hzero : n = 0 := hn.symm.trans (congrArg BitVec.toNat h)
    omega
  have hstored : (r.count32 a 1).m.regs = minsert r.m.regs a (w32 n) := by
    show mset (regReset a) r.m.regs a (w32 n &&& regMask a) = _
    rw [hmask, hreset, show w32 n &&& 0xFFFFFFFF = w32 n from BitVec.and_allOnes]
    exact if_neg hpos
  unfold Stores.reg
  rw [hstored, mget_minsert_self, hn]

/-- The entry of a request whose response its link has not taken in time (R343). -/
def stalledEnt (e : Ent) : Ent := { e with stalled := true }

theorem hostStall_only {s : State} {p : Fin 8} {k : Fin 2} {e : Ent} (hstore : (s.c.porches[p]).store = [e]) (hk : e.k = k)
    (hans : e.ans.isSome = true) (hsent : e.sent = false) (hrsv : isRsv e.item.op = false) (hfresh : e.stalled = false)
    (hlate : e.answeredAt + usec e.stallUs ≤ s.c.now) (hfence : (Run.start s).fenced (unitPorch p) = false) :
    ∃ v : Event, v.code = Code.hostStall ∧ v.src = 20 + p.val ∧ (Run.start s).hostStall p k =
      (withEvent ((Run.start s).modPorch p fun x => { x with store := [stalledEnt e] }) v).pchCount p 0x11C 1 := by
  have hmine : (((Run.start s).porch p).store.filter fun e =>
      e.k = k && e.ans.isSome && !e.sent && !(isRsv e.item.op)) = [e] := by
    rw [show ((Run.start s).porch p).store = [e] from hstore]
    simp [hk, hans, hsent, hrsv]
  have hfirst : ([e].find? fun e => decide (e.answeredAt + usec e.stallUs ≤ (Run.start s).now)) = some e :=
    List.find?_cons_of_pos (decide_eq_true hlate)
  have hmarked : ((Run.start s).modEnt p e.uid fun e => { e with stalled := true }) =
      (Run.start s).modPorch p fun x => { x with store := [stalledEnt e] } := modPorch_congr (Run.start s) p (by
    rw [show ((Run.start s).c.porches[p]).store = [e] from hstore]
    simp [hsent, stalledEnt])
  obtain ⟨v, hlogged, hcode, hsrc⟩ := pchEvent_open ((Run.start s).modPorch p fun x => { x with store := [stalledEnt e] })
    k.val Code.hostStall none 0 [] hfence
  refine ⟨v, hcode, hsrc, ?_⟩
  unfold Run.hostStall
  dsimp only
  rw [hmine, hfirst]
  dsimp only
  rw [if_neg (by simp [hfresh]), hmarked]
  exact congrArg (fun r : Run => r.pchCount p 0x11C 1) hlogged

theorem watchdogsReport : WatchdogsReport := by
  constructor
  · intro s p e r hfirst hmode hfence
    obtain ⟨v, hdone, hcode, hsrc⟩ := requestTimesOut hfirst hmode hfence
    exact ⟨_, congrArg (fun r => Host.Outcome.next (Run.finish s r)) hdone, rfl, v, rfl, hcode, hsrc⟩
  · intro s p k e r hstore hk hans hsent hrsv hfresh hlate hfence
    obtain ⟨v, hcode, hsrc, hdone⟩ := hostStall_only hstore hk hans hsent hrsv hfresh hlate hfence
    let marked := r.modPorch p fun x => { x with store := [stalledEnt e] }
    have hporch : marked.c.porches[p] = { s.c.porches[p] with store := [stalledEnt e] } := porch_modPorch_self r p _
    obtain ⟨hmask, hreset⟩ := stallCount_whole p
    refine ⟨_, congrArg (fun r => Host.Outcome.next (Run.finish s r)) hdone, ?_, ⟨v, rfl, hcode, hsrc⟩, ?_, rfl, rfl, ?_⟩
    · exact congrArg Porch.store hporch
    · exact reg_count32_whole (withEvent marked v) hmask hreset
    · exact keepsCells_of_log s _ (by simp [Run.pchCount, Run.count32, cellFree])

/-- Settles O17: a write to a dead House leaves its Landing and is reported; a request without an answer is reported and
stays; a response that is not taken is reported, counted and marked. -/
theorem porchWatchdogsReport : Obligations.PorchWatchdogsReport := ⟨writeToADeadHouseIsLost, watchdogsReport⟩

end Sys2Proof.Laws
end

section
/-! SUPPORT. The obligation about what leaves and what arrives in a slot, which fails on a write that reaches a channel with a
Pending corrective write of its line. -/
namespace Sys2Proof.Laws
open Sys2Proof Sys2Proof.Machine Sys2Proof.Safety Sys2Proof.Claim

/-- A demand write of line index 0. -/
def demandWrite : CelCmd := { m := 0, idx := 0, write := true, pa := 0, tenant := 0 }

/-- A House whose channels each hold a Pending entry of the repeat corrector for line index 0. -/
def pendingRepeat : State :=
  { c := { chans := Vector.replicate 16 { cam := [{ line := 0, count := 0, st := .pending }] } }, m := {} }

/-- The write on its last lane. -/
def writeOnItsWay : Fly := { no := 0, k := 0, dst := 0, due := 0, load := .cel 0 demandWrite }

/-- The write arrives, and the entry becomes Rewritten (R256). -/
theorem writeOnItsWay_rewrites : (((Run.start pendingRepeat).arrive writeOnItsWay).c.chans[(0 : Fin 16)]).cam =
    [{ line := 0, count := 0, st := .rewritten }] := by decide +kernel

/-- Refutes O4: its clause on a command that arrives says that the channel gains the command and changes in nothing else. A
write cancels a Pending corrective write of its line (R256), so the channel's repeat corrector changes as well. -/
theorem not_porchSlotsMoveRequests : ¬ Obligations.PorchSlotsMoveRequests := by
  rintro ⟨-, -, -, harrive⟩
  obtain ⟨-, -, hcommand, -⟩ := harrive pendingRepeat writeOnItsWay
  obtain ⟨hqueued, -⟩ := hcommand 0 demandWrite rfl rfl
  have hkept : (((Run.start pendingRepeat).arrive writeOnItsWay).c.chans[(0 : Fin 16)]).cam =
      [{ line := 0, count := 0, st := .pending }] := congrArg Chan.cam hqueued
  rw [writeOnItsWay_rewrites] at hkept
  exact absurd hkept (by decide)

end Sys2Proof.Laws
end

section
/-! SUPPORT. The obligation about a management sync, a forced table and a Door's retraining (R197, R219, R288). -/
namespace Sys2Proof.Laws
open Sys2Proof Sys2Proof.Machine Sys2Proof.Safety Sys2Proof.Claim

variable (r : Run)

/-! ## A management sync (R197) -/

/-- The barrier that PCHp_MSYNC begins. -/
def msyncBar (p : Fin 8) : Bar :=
  r.newBar p 0 .msync (((r.porch p).lands.filter fun e => !e.links.isEmpty).map fun e => e.seq)
    (((r.porch p).store.filter fun e => !e.sent).map fun e => e.uid) 0

/-- The sync has begun. -/
def msynced (p : Fin 8) : Run := r.modPorch p fun x => { Porch.barred x (msyncBar r p) with msyncDone := false }

theorem porch_msynced (p : Fin 8) :
    (msynced r p).c.porches[p] = { Porch.barred r.c.porches[p] (msyncBar r p) with msyncDone := false } :=
  porch_modPorch_self r p _

theorem bars_msynced {p : Fin 8} (hbars : (r.c.porches[p]).bars = []) :
    ((msynced r p).c.porches[p]).bars = [{ msyncBar r p with id := (r.c.porches[p]).nextBar }] := by
  rw [porch_msynced]
  show (r.c.porches[p]).bars ++ _ = _
  rw [hbars]
  rfl

theorem msyncBusy_free {x : Porch} (hbars : x.bars = []) : x.msyncBusy = false := by
  unfold Porch.msyncBusy
  rw [hbars]
  rfl

theorem msyncGo_begins (w : Writer) {p : Fin 8} (hbars : (r.c.porches[p]).bars = []) :
    r.msyncGo w p = (msynced r p).barCheck p :=
  (if_neg (ne_true_of_eq_false (msyncBusy_free hbars))).trans (congrArg (Run.barCheck · p) (modPorch_modPorch r p _ _))

/-- The sync waits for what it covers. -/
theorem msyncGo_waits (w : Writer) {p : Fin 8} (hbars : (r.c.porches[p]).bars = [])
    (hcovers : (msyncBar r p).lands ≠ [] ∨ (msyncBar r p).uids ≠ []) : r.msyncGo w p = msynced r p := by
  have hporch := porch_msynced r p
  rw [msyncGo_begins r w hbars]
  refine barCheck_waits _ (bars_msynced r hbars) ⟨fun n hn => ?_, fun u hu => ?_, rfl⟩ ?_ rfl
  · rw [hporch]
    obtain ⟨e, he, hseq⟩ := List.mem_map.mp hn
    exact ⟨e, List.mem_of_mem_filter he, hseq⟩
  · rw [hporch]
    obtain ⟨e, he, huid⟩ := List.mem_map.mp hu
    obtain ⟨hmem, hsent⟩ := List.mem_filter.mp he
    exact ⟨e, hmem, huid, by simpa using hsent⟩
  · exact Bool.eq_false_iff.mpr fun hmet => by
      obtain ⟨hlands, huids, -⟩ := met_iff.mp hmet
      exact hcovers.elim (fun h => h hlands) fun h => h huids

/-- The Porch once the sync that it began is done. -/
def Porch.synced (x : Porch) (b : Bar) : Porch := { Porch.barred x b with bars := [], msyncDone := true }

/-- The sync is done, with vector 5. -/
def msyncEnded (p : Fin 8) : Run := (r.modPorch p fun x => Porch.synced x (msyncBar r p)).vector 5

theorem porch_msyncEnded (p : Fin 8) : (msyncEnded r p).c.porches[p] = Porch.synced r.c.porches[p] (msyncBar r p) :=
  porch_modPorch_self r p fun x => Porch.synced x (msyncBar r p)

/-- A sync with nothing to wait for is done at once. -/
theorem msyncGo_ends (w : Writer) {p : Fin 8} (hbars : (r.c.porches[p]).bars = []) (hstore : (r.c.porches[p]).store = [])
    (hlands : (r.c.porches[p]).lands = []) :
    r.msyncGo w p = msyncEnded r p := by
  have hmet : (msyncBar r p).met = true := by
    refine met_iff.mpr ⟨?_, ?_, rfl, rfl⟩
    · show ((r.c.porches[p]).lands.filter _).map _ = []
      rw [hlands]
      rfl
    · show ((r.c.porches[p]).store.filter _).map _ = []
      rw [hstore]
      rfl
  have hbar := bars_msynced r hbars
  rw [msyncGo_begins r w hbars, barCheck_over _ hbar (Or.inr ⟨hmet, nofun⟩), barEnd_msync _ hbar rfl]
  unfold unbarred msynced
  rw [modPorch_modPorch, modPorch_modPorch]
  rfl

/-! ## Writes of registers that the CRC does not cover -/

variable {r}

/-- A legal write of such a register is stored and takes its effect; the configuration stays clean (R466). -/
theorem wrReg_uncovered {s : State} (g : MgPort) {x : Wr} (hlow : x.a < 0xC10000) (hlock : x.d.name ≠ "WIN_LOCK")
    (hways : x.d.name ≠ "RM_WAYDIS") (hcrc : crcMask x.a = 0) (hlegal : (heardRun s g).wrBad (.port g) x = none) :
    (heardRun s g).wrReg (.port g) x = (cmdStored s g x s.c.crc).wrEffect (.port g) x := by
  have hstore : (heardRun s g).wrStore x = cmdStored s g x s.c.crc := by
    unfold Run.wrStore
    dsimp only
    rw [if_neg hways, hcrc, Nat.and_zero]
    rfl
  unfold Run.wrReg
  rw [hlegal]
  dsimp only
  unfold Run.wrDo
  rw [if_neg hlock, if_neg (by simp; omega), hstore]

/-- A full-word write reaches its register (R451). -/
theorem mgmtWrite_reaches {s : State} {g : MgPort} {a : BitVec 26} {d : RegDef} {v : Word} (hready : mgmtReady s)
    (hreg : IsRegAt a d) : (Run.start s).mgmtWrite g a 0xF v = (heardRun s g).wrReg (.port g) (cmdWr s d a v) := by
  have hnames : namesReg [d.name] a.toNat = true := by
    unfold namesReg
    rw [hreg.plain, hreg.found]
    simp
  rw [← cmdWrite_reaches (test := fun _ => true) hready hreg rfl]
  unfold Run.cmdWrite
  rw [hnames]
  rfl

/-! ## PCHp_MSYNC -/

/-- PCH_MSYNC (R197). -/
def pchMsync : RegDef := ⟨"PCH_MSYNC", 0x50c, [], false, false,
  [⟨0, 0, .rw, 0x0, none⟩, ⟨16, 16, .ro, 0x0, none⟩, ⟨17, 17, .ro, 0x0, none⟩]⟩

/-- The address of PCHp_MSYNC. -/
def msyncAddr (p : Fin 8) : BitVec 26 := BitVec.ofNat 26 (pchBase p + 0x50C)

theorem pchMsync_at (p : Fin 8) : IsRegAt (msyncAddr p) pchMsync := by
  refine ⟨?_, ?_, ?_, ?_, ?_⟩
  all_goals revert p; decide +kernel

theorem pchMsync_uncovered (p : Fin 8) : crcMask (msyncAddr p).toNat = 0 := by
  revert p
  decide +kernel

theorem pchMsync_porch (p : Fin 8) : fin8 (((msyncAddr p).toNat - 0x80000) / 0x1000) = p := by
  revert p
  decide +kernel

/-- GO is legal at a Porch whose sync is not busy. -/
theorem joinBad_msync {w : Writer} {x : Wr} (hd : x.d = pchMsync)
    (hidle : (r.porch (fin8 ((x.a - 0x80000) / 0x1000))).msyncBusy = false) : r.joinBad w x = false := by
  unfold Run.joinBad
  rw [hd]
  show (x.bit 0 && _) = false
  rw [hidle, Bool.and_false]

theorem wrEffect_msync {w : Writer} {x : Wr} (hd : x.d = pchMsync) (hgo : x.bit 0 = true) :
    r.wrEffect w x = r.msyncGo w (fin8 ((x.a - 0x80000) / 0x1000)) := by
  unfold Run.wrEffect
  rw [hd]
  exact if_pos hgo

/-- The write of GO. -/
def msyncWr (s : State) (p : Fin 8) : Wr := cmdWr s pchMsync (msyncAddr p) 1

/-- GO is stored, and nothing else has changed; then the sync begins at its Porch. -/
theorem msyncGo_runs {s : State} {g : MgPort} {p : Fin 8} (hready : mgmtReady s) (hbars : (s.c.porches[p]).bars = []) :
    ∃ stored : Run, (Run.start s).mgmtWrite g (msyncAddr p) 0xF 1 = stored.msyncGo (.port g) p ∧ stored.c = heard s g ∧
      ∀ o ∈ stored.log, cellFree o = true := by
  have hporch : fin8 (((msyncWr s p).a - 0x80000) / 0x1000) = p := pchMsync_porch p
  have hd : (msyncWr s p).d = pchMsync := rfl
  have hgo : (msyncWr s p).bit 0 = true := (bit_cmdWr s _ 1 rfl (by decide)).trans (by decide)
  have hjoin : (heardRun s g).joinBad (.port g) (msyncWr s p) = false :=
    joinBad_msync hd (by rw [hporch]; exact msyncBusy_free hbars)
  have hlow : (msyncWr s p).a < 0xC10000 := (pchMsync_at p).low
  have hlegal : (heardRun s g).wrBad (.port g) (msyncWr s p) = none :=
    wrBad_none (by omega) (by rw [hd]; decide) (by rw [hd]; decide) hjoin
  have hstored := wrReg_uncovered g hlow (by rw [hd]; decide) (by rw [hd]; decide) (pchMsync_uncovered p) hlegal
  have heffect := wrEffect_msync (r := cmdStored s g (msyncWr s p) s.c.crc) (w := .port g) hd hgo
  rw [hporch] at heffect
  exact ⟨_, (mgmtWrite_reaches hready (pchMsync_at p)).trans (hstored.trans heffect), rfl,
    fun o ho => (List.mem_singleton.mp ho) ▸ rfl⟩

/-- PCHp_MSYNC with nothing that it covers. -/
theorem msyncEnds (s : State) (g : MgPort) (p : Fin 8) (hready : mgmtReady s) (hbars : (s.c.porches[p]).bars = [])
    (hstore : (s.c.porches[p]).store = []) (hlands : (s.c.porches[p]).lands = []) :
    ∃ t, exec (.msyncGo g p) s = .next t ∧ (t.c.porches[p]).bars = [] ∧ (t.c.porches[p]).msyncDone = true ∧
      t.c.mgA = s.c.mgA.raise 5 ∧ t.c.mgB = s.c.mgB.raise 5 ∧ t.c.rooms = s.c.rooms ∧ t.c.out = s.c.out ∧
      keepsCells s t := by
  obtain ⟨stored, hrun, hctl, hcells⟩ := msyncGo_runs (g := g) hready hbars
  have hporches : stored.c.porches = s.c.porches := (congrArg Ctl.porches hctl :)
  rw [← hporches] at hbars hstore hlands
  have hdone := hrun.trans (msyncGo_ends stored (.port g) hbars hstore hlands)
  have hporch := porch_msyncEnded stored p
  exact ⟨_, congrArg (fun r => Host.Outcome.next (Run.finish s r)) hdone, congrArg Porch.bars hporch,
    congrArg Porch.msyncDone hporch, (congrArg (fun c : Ctl => c.mgA.raise 5) hctl :),
    (congrArg (fun c : Ctl => c.mgB.raise 5) hctl :),
    (congrArg Ctl.rooms hctl :), (congrArg Ctl.out hctl :), keepsCells_of_log s _ hcells⟩

/-- PCHp_MSYNC with something that it covers. -/
theorem msyncWaits (s : State) (g : MgPort) (p : Fin 8) (hready : mgmtReady s) (hbars : (s.c.porches[p]).bars = [])
    (hcovers : (msyncBar (Run.start s) p).lands ≠ [] ∨ (msyncBar (Run.start s) p).uids ≠ []) :
    ∃ t b, exec (.msyncGo g p) s = .next t ∧ (t.c.porches[p]).bars = [b] ∧ b.kind = .msync ∧
      b.lands = (msyncBar (Run.start s) p).lands ∧ b.uids = (msyncBar (Run.start s) p).uids ∧
      (t.c.porches[p]).msyncDone = false ∧ t.c = { heard s g with porches := t.c.porches } ∧ keepsCells s t := by
  obtain ⟨stored, hrun, hctl, hcells⟩ := msyncGo_runs (g := g) hready hbars
  have hporch : stored.porch p = s.c.porches[p] := (congrArg (fun c : Ctl => c.porches[p]) hctl :)
  have hlands : (msyncBar stored p).lands = (msyncBar (Run.start s) p).lands := by
    show ((stored.porch p).lands.filter _).map _ = _
    rw [hporch]
    rfl
  have huids : (msyncBar stored p).uids = (msyncBar (Run.start s) p).uids := by
    show ((stored.porch p).store.filter _).map _ = _
    rw [hporch]
    rfl
  rw [← hlands, ← huids] at hcovers ⊢
  have hfree : (stored.c.porches[p]).bars = [] := (congrArg Porch.bars hporch).trans hbars
  have hdone := hrun.trans (msyncGo_waits stored (.port g) hfree hcovers)
  refine ⟨_, _, congrArg (fun r => Host.Outcome.next (Run.finish s r)) hdone, bars_msynced stored hfree, rfl, rfl, rfl,
    congrArg Porch.msyncDone (porch_msynced stored p), ?_, keepsCells_of_log s _ hcells⟩
  exact congrArg (fun c : Ctl => { c with porches := (msynced stored p).c.porches }) hctl

/-! ## TT_FORCE (R219) -/

/-- TT_FORCE (R221). -/
def ttForce : RegDef := ⟨"TT_FORCE", 0xC1C, [], true, false, [⟨6, 0, .rw, 0x0, some (0, 1)⟩, ⟨8, 8, .rw, 0x0, none⟩]⟩

theorem ttForce_at : IsRegAt 0xC1C ttForce := ⟨by decide, by decide, by decide, by decide +kernel, by decide +kernel⟩

theorem ttForce_uncovered : crcMask 0xC1C = 0 := by decide +kernel

/-- What makes a forced table legal. -/
theorem forceLegal_iff {t : Nat} : r.forceLegal t = true ↔
    r.c.tt.run = true ∧ r.c.tt.pend = false ∧ r.c.tt.cur < 2 ∧ t < 2 := by
  simp [Run.forceLegal, and_assoc]

/-- A table that may be forced is in the range of its field. -/
theorem wrBad_ttForce {w : Writer} {x : Wr} (hlow : x.a < 0x1000000) (hd : x.d = ttForce)
    (hlegal : r.forceLegal (x.fld 6 0) = true) : r.wrBad w x = none := by
  obtain ⟨-, -, -, ht⟩ := forceLegal_iff.mp hlegal
  have hfield : bitsOf x.new 6 0 < 2 := ht
  have hrange : x.rangeBad = false := by
    unfold Wr.rangeBad
    rw [hd]
    simp [ttForce, RegField.get]
    omega
  have hjoin : r.joinBad w x = false := by
    unfold Run.joinBad
    rw [hd]
    show (x.bit 8 && !(r.forceLegal (x.fld 6 0))) = false
    rw [hlegal, Bool.not_true, Bool.and_false]
  unfold Run.wrBad
  rw [hd, hrange, hjoin, if_neg (by simp [ttForce]), if_neg (by simp; omega), if_neg (by simp), if_neg (by simp)]

theorem wrEffect_ttForce {w : Writer} {x : Wr} (hd : x.d = ttForce) (hgo : x.bit 8 = true) :
    r.wrEffect w x = r.ttRequest (x.fld 6 0) := by
  unfold Run.wrEffect
  rw [hd]
  exact if_pos hgo

theorem forceIsPending (s : State) (g : MgPort) (v : Word) (hready : mgmtReady s) (hgo : v.getLsbD 8 = true)
    (hlegal : (Run.start s).forceLegal (v.toNat % 128) = true) :
    ∃ t, exec (.ttForceGo g 0xC1C v) s = .next t ∧
      t.c.tt = { s.c.tt with pend := true, next := v.toNat % 128, pendCc := s.c.cc } ∧ t.c.rooms = s.c.rooms ∧
      keepsCells s t := by
  let x := cmdWr s ttForce 0xC1C v
  have hbit : x.bit 8 = true := (bit_cmdWr s _ v rfl (by decide)).trans hgo
  have htable : x.fld 6 0 = v.toNat % 128 := (fld_cmdWr s _ v rfl (by decide)).trans (by simp [bitsOf])
  have hlow : x.a < 0xC10000 := ttForce_at.low
  have hd : x.d = ttForce := rfl
  have hbad : (heardRun s g).wrBad (.port g) x = none := wrBad_ttForce (by omega) hd (by rw [htable]; exact hlegal)
  obtain ⟨hrun, -⟩ := forceLegal_iff.mp hlegal
  have hstored := wrReg_uncovered g hlow (by rw [hd]; decide) (by rw [hd]; decide) ttForce_uncovered hbad
  have hrequest : (cmdStored s g x s.c.crc).ttRequest (v.toNat % 128) = (cmdStored s g x s.c.crc).modTt fun y =>
      { y with pend := true, next := v.toNat % 128, pendCc := s.c.cc } := if_pos hrun
  have heffect := wrEffect_ttForce (r := cmdStored s g x s.c.crc) (w := .port g) hd hbit
  rw [htable] at heffect
  have hdone := ((cmdWrite_reaches (test := fun w => w.testBit 8) hready ttForce_at hbit).trans hstored).trans
    (heffect.trans hrequest)
  exact ⟨_, congrArg (fun r => Host.Outcome.next (Run.finish s r)) hdone, rfl, rfl,
    keepsCells_of_log s _ fun o ho => (List.mem_singleton.mp ho) ▸ rfl⟩

/-! ## RETRAIN (R288) -/

/-- DORd_CTRL (R288). -/
def dorCtrl : RegDef := ⟨"DOR_CTRL", 0x4, [], false, false,
  [⟨0, 0, .rw, 0x1, none⟩, ⟨1, 1, .rw, 0x0, none⟩, ⟨2, 2, .rw, 0x1, none⟩]⟩

/-- The address of DORd_CTRL. -/
def dorCtrlAddr (d : Fin 8) : BitVec 26 := BitVec.ofNat 26 (dorBase d + 4)

theorem dorCtrl_at (d : Fin 8) : IsRegAt (dorCtrlAddr d) dorCtrl := by
  refine ⟨?_, ?_, ?_, ?_, ?_⟩
  all_goals revert d; decide +kernel

theorem dorCtrl_door (d : Fin 8) : fin8 (((dorCtrlAddr d).toNat - 0x180000) / 0x1000) = d := by
  revert d
  decide +kernel

theorem joinBad_dorCtrl {w : Writer} {x : Wr} (hd : x.d = dorCtrl) : r.joinBad w x = false := by
  unfold Run.joinBad
  rw [hd]
  rfl

/-- RETRAIN of an enabled Door that is not fenced, in a mode in which Doors train, begins a full training. -/
theorem wrEffect_retrain {w : Writer} {x : Wr} {d : Fin 8} (hd : x.d = dorCtrl)
    (hdoor : fin8 ((x.a - 0x180000) / 0x1000) = d) (hen : x.bit 0 = true) (hgo : x.bit 1 = true)
    (hmode : r.mode.fabric = true ∨ r.mode = .pantry) (hfence : r.fenced (unitDoor d) = false) :
    r.wrEffect w x = r.fullTrain d := by
  unfold Run.wrEffect
  rw [hd]
  show r.doorCtrl x = _
  unfold Run.doorCtrl
  rw [hdoor]
  dsimp only
  rw [if_neg (by simp [hen]), if_pos (by simpa [hen, hgo, hfence] using hmode)]

/-- The Door as a full training finds it. -/
def Door.retrained (y : Door) : Door :=
  { y with training := true, quick := false, up := false, mismatch := false, failed := false, replaying := false, replay := [] }

theorem door_fullTrain (d : Fin 8) : (r.fullTrain d).c.doors[d] = Door.retrained r.c.doors[d] :=
  door_modDoor_self r d Door.retrained

theorem retrainBegins (s : State) (g : MgPort) (d : Fin 8) (v : Word) (hready : mgmtReady s) (hen : v.getLsbD 0 = true)
    (hgo : v.getLsbD 1 = true) (hmode : s.c.mod.mode.fabric = true ∨ s.c.mod.mode = .pantry)
    (hfence : (Run.start s).fenced (unitDoor d) = false) :
    ∃ t, exec (.retrain g d v) s = .next t ∧ t.c.doors[d] = Door.retrained s.c.doors[d] ∧ t.c.rooms = s.c.rooms ∧
      t.c.fab = s.c.fab ∧ keepsCells s t := by
  let x := cmdWr s dorCtrl (dorCtrlAddr d) v
  have hbit0 : x.bit 0 = true := (bit_cmdWr s _ v rfl (by decide)).trans hen
  have hbit1 : x.bit 1 = true := (bit_cmdWr s _ v rfl (by decide)).trans hgo
  obtain ⟨k, hk⟩ := command_runs (g := g) (test := fun w => w.testBit 1) hready (dorCtrl_at d) (by decide) (by decide) hbit1
    (joinBad_dorCtrl rfl)
  have heffect := wrEffect_retrain (r := cmdStored s g x k) (w := .port g) (x := x) rfl (dorCtrl_door d) hbit0 hbit1 hmode hfence
  have hdone := hk.trans heffect
  have hdoor : ((cmdStored s g x k).fullTrain d).c.doors[d] = Door.retrained s.c.doors[d] := door_fullTrain d
  refine ⟨_, congrArg (fun r => Host.Outcome.next (Run.finish s r)) hdone, hdoor, rfl, rfl, ?_⟩
  exact keepsCells_of_log s _ (by simp [Run.fullTrain, Run.count32, cmdStored, cellFree, show (heardRun s g).log = [] from rfl])

/-- Settles O43: PCHp_MSYNC begins a barrier of its Porch, which ends at once when it covers nothing; a legal TT_FORCE
requests its table; and RETRAIN puts its Door into training. -/
theorem syncForceAndRetrain : Obligations.SyncForceAndRetrain :=
  ⟨msyncEnds, msyncWaits, forceIsPending, retrainBegins⟩

end Sys2Proof.Laws
end

section
/-! SUPPORT. The obligation about lost reads, ALERT_n and hot DIMMs (R233, R267). -/
namespace Sys2Proof.Laws
open Sys2Proof Sys2Proof.Machine Sys2Proof.Safety Sys2Proof.Claim

variable (r : Run)

theorem evUnit_chan (c : Fin 16) : evUnit (4 + c.val) 0 = some (unitChan c) := by
  unfold evUnit unitChan
  rw [if_neg (by omega), if_pos (by omega), Nat.add_sub_cancel_left]

/-- An event of a channel that is not fenced is reported. -/
theorem chEvent_open {c : Fin 16} (code : Nat) (addr : Option PoolAddr) (key cause mKind mId access : Nat)
    (h : r.fenced (unitChan c) = false) :
    ∃ e : Event, r.chEvent c code addr key cause mKind mId access = withEvent r e ∧ e.code = code ∧ e.src = 4 + c.val := by
  refine ⟨_, report_open r _ fun u hu => ?_, rfl, rfl⟩
  obtain rfl : unitChan c = u := Option.some.inj ((evUnit_chan c).symm.trans hu)
  exact h

/-- A failure of a channel that is not fenced is reported, and nothing else happens yet. -/
theorem chFail_reported {c : Fin 16} {s : State} {r' : Run} {cause : Nat} (hdone : r' = (Run.start s).chFail c cause)
    (h : (Run.start s).fenced (unitChan c) = false) :
    let t := Run.finish s r'
    t = { s with c := { s.c with fbx := t.c.fbx } } ∧ reportedIn s t Code.chFail (4 + c.val) := by
  obtain ⟨e, hlogged, hcode, hsrc⟩ := chEvent_open (Run.start s) Code.chFail none 0 cause 0 0 0 h
  obtain rfl : r' = withEvent (Run.start s) e := hdone.trans hlogged
  exact ⟨rfl, e, rfl, hcode, hsrc⟩

/-- A read that has been out for 2 µs fails its channel (R267). -/
theorem chTimeout_late {c : Fin 16} {x : CelCmd} (hx : x ∈ (r.c.chans[c]).flight) (hlate : x.issuedAt + usec 2 ≤ r.c.now) :
    r.chTimeout c = r.chFail c 4 :=
  if_pos (List.any_eq_true.mpr ⟨x, hx, decide_eq_true hlate⟩)

/-- A DIMM that becomes hot doubles the refresh of its channel, and is noted (R233). -/
theorem tcr_hot {c : Fin 16} (hcool : (r.c.chans[c]).tcr2x = false) :
    r.tcr c true = (r.modChan c fun y => { y with tcr2x := true }).chEvent c Code.tcr2x := by
  unfold Run.tcr Run.when
  exact if_pos (congrArg not hcool)

/-- Settles O32: each of the three finds its channel not fenced, so its event is reported. -/
theorem channelFaultsAreReported : Obligations.ChannelFaultsAreReported := by
  refine ⟨?_, ?_, ?_⟩
  · intro s c x hfence hx hlate
    exact ⟨_, rfl, chFail_reported (chTimeout_late (Run.start s) hx hlate) hfence⟩
  · intro s c hfence
    exact ⟨_, rfl, chFail_reported rfl hfence⟩
  · intro s c hfence hcool
    obtain ⟨e, hlogged, hcode, hsrc⟩ :=
      chEvent_open ((Run.start s).modChan c fun y => { y with tcr2x := true }) Code.tcr2x none 0 0 0 0 0 hfence
    have hdone := (tcr_hot (Run.start s) hcool).trans hlogged
    exact ⟨_, congrArg (fun r => Host.Outcome.next (Run.finish s r)) hdone, rfl,
      chan_modChan_self (Run.start s) c fun y => { y with tcr2x := true }, e, rfl, hcode, hsrc⟩

end Sys2Proof.Laws
end

section
/-! SUPPORT. The obligation about the seam boundary, which fails on a read that is in flight when the House enters PANTRY. -/
namespace Sys2Proof.Laws
open Sys2Proof Sys2Proof.Machine Sys2Proof.Safety Sys2Proof.Claim

/-- A demand read of line index 0. -/
def demandRead : CelCmd := { m := 0, idx := 0, write := false, pa := 0, tenant := 0 }

/-- A House at a seam boundary of DRAIN that is to enter PANTRY, while each of its channels has a read in flight. -/
def drainingRead : State :=
  { c := { cc := 1, mod := { mode := .drain, pantryReq := true }, tt := { run := true },
           chans := Vector.replicate 16 { flight := [demandRead] } }, m := {} }

/-- The House may enter PANTRY: no switch is pending, and no request is buffered at a Porch. -/
theorem drainingRead_mayEnter : let r := Run.start drainingRead
    r.mode = .drain ∧ r.c.mod.pantryReq = true ∧ r.seam = true ∧ r.c.mod.pantryCc < r.c.cc ∧ r.c.tt.pend = false ∧
      ∀ (p : Fin 8) (k : Fin 2), (r.c.porches[p]).links[k].buf = [] := by decide +kernel

/-- DRAM goes into self-refresh, and the read waits in the queue of its channel to start again (R27). -/
theorem drainingRead_waitsAgain :
    (((Run.start drainingRead).pantryEntry.c.chans[(0 : Fin 16)]).flight).length = 0 := by decide +kernel

/-- Refutes O33: its clause on the entry to PANTRY says that the channels stay as they are. DRAM goes into self-refresh on
that entry (R27), so a read that is in flight goes back to the queue of its channel. -/
theorem not_seamTakesTheSwitch : ¬ Obligations.SeamTakesTheSwitch := by
  rintro ⟨-, hentry⟩
  obtain ⟨hmode, hreq, hseam, hcc, hpend, hbuf⟩ := drainingRead_mayEnter
  obtain ⟨t, ht, -, -, -, -, -, -, -, hchans, -⟩ := hentry drainingRead hmode hreq hseam hcc hpend hbuf
  obtain rfl : Run.finish drainingRead (Run.start drainingRead).pantryEntry = t := Host.Outcome.next.inj ht
  have hkept : (((Run.start drainingRead).pantryEntry.c.chans[(0 : Fin 16)]).flight).length = 1 :=
    congrArg (fun chans : Vector Chan 16 => (chans[(0 : Fin 16)]).flight.length) hchans
  rw [drainingRead_waitsAgain] at hkept
  exact absurd hkept (by decide)

end Sys2Proof.Laws
end

section
/-! SUPPORT. The obligation about temperature samples and Thermostats (R219, R473, R476, R482–R484). -/
namespace Sys2Proof.Laws
open Sys2Proof Sys2Proof.Machine Sys2Proof.Safety Sys2Proof.Claim

variable (r : Run)

/-! ## A sample asserts the warning (R482) -/

/-- What the sensors reach depends on their readings alone. -/
theorem reaches_congr {t t' : Thm} (htemps : t.temps = t'.temps) (hvalid : t.valid = t'.valid) (deg : Nat) :
    t.reaches deg = t'.reaches deg := by
  unfold Thm.reaches Thm.readings
  rw [htemps, hvalid]

/-- The events of heat come from no unit that a fence covers. -/
theorem thermEvent_reported (code : Nat) :
    ∃ e : Event, r.sysEvent 41 code = withEvent r e ∧ e.code = code ∧ e.src = 41 :=
  ⟨_, sysEvent_open r (by decide), rfl, rfl⟩

/-- The fields of the registers depend on the stores alone. -/
theorem fld_of_m {r' : Run} (h : r'.m = r.m) : r'.fld = r.fld := by
  unfold Run.fld
  rw [reg_of_regs (congrArg Stores.regs h)]

/-- A change of the warning touches nothing but the Timetable's pending switch (R219). -/
theorem warnSwitch_modTt : ∃ y, r.warnSwitch = r.modTt fun _ => y := by
  unfold Run.warnSwitch Run.ttRequest
  dsimp only
  split_ifs <;> exact ⟨_, rfl⟩

/-- Under the warning NOMINAL gives way to COOL (R219). -/
theorem warnSwitch_cool (hwarn : r.c.thm.warn = true) (hrun : r.c.tt.run = true) (hcur : r.c.tt.cur = 0)
    (hpend : r.c.tt.pend = false) :
    r.warnSwitch = r.modTt fun y => { y with pend := true, next := 1, pendCc := r.c.cc } := by
  unfold Run.warnSwitch Run.ttRequest
  simp [hwarn, hrun, hcur, hpend]

/-- The command at work once the warning has asserted: its event, its vector, the Timetable with the switch it asks for,
and what else has become of the thermal state. -/
def warned (e : Event) (y : Tt) (t : Thm) : Run :=
  { r with c := { r.c with fbx := { r.c.fbx with reported := r.c.fbx.reported ++ [e] }, mgA := r.c.mgA.raise 7,
                           mgB := r.c.mgB.raise 7, tt := y, thm := t } }

/-- The event, the vector and the switch, one after the other, make the command with the warning asserted. -/
theorem warned_eq_steps (f : Thm → Thm) (e : Event) (y : Tt) :
    ((withEvent (r.modThm f) e).vector 7).modTt (fun _ => y) = warned r e y (f r.c.thm) := by
  unfold warned withEvent Run.modTt Run.vector Run.modFbx Run.modThm
  rfl

theorem modThm_warned (f : Thm → Thm) (e : Event) (y : Tt) (t : Thm) : (warned r e y t).modThm f = warned r e y (f t) := rfl

theorem warnIs_true : ∃ (e : Event) (y : Tt),
    r.warnIs true = warned r e y { r.c.thm with warn := true, coolSince := none } ∧ e.code = Code.thermWarn ∧ e.src = 41 ∧
    (r.c.tt.run = true → r.c.tt.cur = 0 → r.c.tt.pend = false →
      y = { r.c.tt with pend := true, next := 1, pendCc := r.c.cc }) := by
  let asserted := r.modThm fun t => { t with warn := true, coolSince := none }
  obtain ⟨e, hlogged, hcode, hsrc⟩ := thermEvent_reported asserted Code.thermWarn
  obtain ⟨y, hy⟩ := warnSwitch_modTt ((withEvent asserted e).vector 7)
  have hdone : r.warnIs true = ((withEvent asserted e).vector 7).modTt fun _ => y := by
    rw [← hy, ← hlogged]
    rfl
  refine ⟨e, y, hdone.trans (warned_eq_steps r _ e y), hcode, hsrc, fun hrun hcur hpend => ?_⟩
  exact congrArg (fun r : Run => r.c.tt) (hy.symm.trans (warnSwitch_cool ((withEvent asserted e).vector 7) rfl hrun hcur hpend))

/-- The first sample at the warning temperature asserts the warning. -/
theorem warnSample_hot (hcalm : r.c.thm.warn = false) (hhot : r.c.thm.reaches (r.fld 0x30040 7 0) = true) :
    ∃ cool, r.warnSample = (r.coolMark cool).warnIs true := by
  unfold Run.warnSample
  dsimp only
  rw [if_pos (by simp [hcalm]), if_pos hhot]
  exact ⟨_, rfl⟩

/-- The thermal state after a sample below the trip temperature: no such samples in a row (R483). -/
def tripCalm (t : Thm) (level : Bool) : Thm := { t with tripRun := 0, trip := t.trip && level }

theorem tripSample_calm (hcalm : r.c.thm.reaches (r.fld 0x30040 15 8) = false) :
    ∃ level, r.tripSample = r.modThm fun t => tripCalm t level := by
  unfold Run.tripSample tripCalm
  simp only [hcalm, Bool.false_and, Bool.false_eq_true, if_false]
  exact ⟨_, rfl⟩

/-- Below 125 °C THERMTRIP_N keeps its level (R484). -/
theorem thermtrip_calm (hcalm : r.c.thm.reaches 125 = false) : r.thermtrip = r := by
  unfold Run.thermtrip
  exact if_pos (by simp [hcalm])

/-- At 125 °C THERMTRIP_N falls, and the trip is reported (R484). -/
theorem thermtrip_hot (hoff : r.c.mod.mode ≠ .off) (haux : r.c.mod.mode ≠ .aux) (hhot : r.c.thm.reaches 125 = true)
    (hhigh : r.c.out.thermtripN = true) :
    r.thermtrip = ((r.modOut fun o => { o with thermtripN := false }).modThm fun t => { t with trip := true }).sysEvent 41
      Code.thermTrip := by
  unfold Run.thermtrip
  exact if_neg (by simp [Run.mode, hoff, haux, hhot, hhigh])

/-- The sensors as a sample leaves them. -/
def Thm.sensed (t : Thm) (x : TempSample) : Thm :=
  { t with temps := x.temps, valid := x.valid, watts := x.watts, peak := if t.peak < x.watts then x.watts else t.peak }

/-- From LOAD onward a sample is taken, and judged for the warning, for the trip and for THERMTRIP_N in this order. -/
theorem thermalSample_on (x : TempSample) (hoff : r.c.mod.mode ≠ .off) (haux : r.c.mod.mode ≠ .aux) :
    r.thermalSample x = (r.modThm fun t => Thm.sensed t x).warnSample.tripSample.thermtrip := by
  unfold Run.thermalSample
  exact if_neg (by simp [Run.mode, hoff, haux])

/-- A sample at the warning temperature, below the trip and below 125 °C, asserts the warning and does no more. -/
theorem thermalSample_warns (x : TempSample) (hoff : r.c.mod.mode ≠ .off) (haux : r.c.mod.mode ≠ .aux)
    (hcalm : r.c.thm.warn = false) (hwarn : (Thm.sensed r.c.thm x).reaches (r.fld 0x30040 7 0) = true)
    (htrip : (Thm.sensed r.c.thm x).reaches (r.fld 0x30040 15 8) = false)
    (hpin : (Thm.sensed r.c.thm x).reaches 125 = false) :
    ∃ (e : Event) (y : Tt) (level : Bool),
      r.thermalSample x = warned r e y (tripCalm { Thm.sensed r.c.thm x with warn := true, coolSince := none } level) ∧
      e.code = Code.thermWarn ∧ e.src = 41 ∧ (r.c.tt.run = true → r.c.tt.cur = 0 → r.c.tt.pend = false →
        y = { r.c.tt with pend := true, next := 1, pendCc := r.c.cc }) := by
  let sensed := r.modThm fun t => Thm.sensed t x
  obtain ⟨cool, hsample⟩ := warnSample_hot sensed hcalm (by rw [fld_of_m r (r' := sensed) rfl]; exact hwarn)
  obtain ⟨e, y, hasserted, hcode, hsrc, hcool⟩ := warnIs_true (sensed.coolMark cool)
  let t : Thm := { Thm.sensed r.c.thm x with warn := true, coolSince := none }
  have hjudged : sensed.warnSample = warned r e y t := hsample.trans hasserted
  have hbelow : (warned r e y t).c.thm.reaches ((warned r e y t).fld 0x30040 15 8) = false := by
    rw [fld_of_m r (r' := warned r e y t) rfl]
    exact (reaches_congr rfl rfl _).trans htrip
  obtain ⟨level, hlevel⟩ := tripSample_calm (warned r e y t) hbelow
  have hstill : (warned r e y (tripCalm t level)).c.thm.reaches 125 = false := (reaches_congr rfl rfl 125).trans hpin
  refine ⟨e, y, level, ?_, hcode, hsrc, hcool⟩
  rw [thermalSample_on r x hoff haux, hjudged, hlevel, modThm_warned]
  exact thermtrip_calm _ hstill

theorem heatIsAnswered : HeatIsAnswered := by
  constructor
  · intro s x r t' hoff haux hcalm hwarn htrip hpin
    have hreads (deg : Nat) : (Thm.sensed s.c.thm x).reaches deg = t'.reaches deg := reaches_congr rfl rfl deg
    obtain ⟨e, y, level, hdone, hcode, hsrc, hcool⟩ := thermalSample_warns r x hoff haux hcalm ((hreads _).trans hwarn)
      ((hreads _).trans htrip) ((hreads _).trans hpin)
    exact ⟨_, congrArg (fun r => Host.Outcome.next (Run.finish s r)) hdone, rfl, rfl, rfl, rfl, rfl, ⟨e, rfl, hcode, hsrc⟩,
      ⟨rfl, rfl⟩, hcool, rfl, rfl⟩
  · intro s hoff haux hhot hhigh
    obtain ⟨e, hlogged, hcode, hsrc⟩ := thermEvent_reported
      (((Run.start s).modOut fun o => { o with thermtripN := false }).modThm fun t => { t with trip := true }) Code.thermTrip
    have hdone := (thermtrip_hot (Run.start s) hoff haux hhot hhigh).trans hlogged
    exact ⟨_, congrArg (fun r => Host.Outcome.next (Run.finish s r)) hdone, rfl, e, rfl, hcode, hsrc⟩

/-! ## Thermostats (R473, R476) -/

theorem domOf_eq {kind : DomKind} {n : Fin 64} {dom : Fin 160} (hn : n.val < kind.count) (hdom : dom.val = kind.base + n.val) :
    domOf kind n = dom := by
  ext
  rw [hdom]
  exact congrArg (kind.base + ·) (Nat.mod_eq_of_lt hn)

section
variable {r} {dom : Fin 160} (hsettled : r.c.thm.wakeCc[dom] = none)
include hsettled

/-- A domain that is Awake takes the deepest state it may. -/
theorem thermostat_awake (hpwr : r.c.thm.pwr[dom] = .awake) : r.thermostat dom = r.setPwr dom (r.pwrTarget dom) none := by
  unfold Run.thermostat
  rw [if_neg (by simp [hsettled]), if_pos hpwr]

/-- A domain that may sleep sleeps. -/
theorem thermostat_sleep (hpwr : r.c.thm.pwr[dom] ≠ .awake) (htarget : r.pwrTarget dom = .sleep) :
    r.thermostat dom = r.setPwr dom .sleep none := by
  unfold Run.thermostat
  rw [if_neg (by simp [hsettled]), if_neg hpwr, if_pos htarget]

/-- A domain whose wake is due begins it. -/
theorem thermostat_wake (hpwr : r.c.thm.pwr[dom] ≠ .awake) (htarget : r.pwrTarget dom ≠ .sleep)
    (hdue : r.wakeDue dom r.c.thm.pwr[dom] = true) :
    r.thermostat dom = r.setPwr dom r.c.thm.pwr[dom] (some (r.c.cc + r.c.wakeCost r.c.thm.pwr[dom])) := by
  unfold Run.thermostat
  rw [if_neg (by simp [hsettled]), if_neg hpwr, if_neg htarget, if_pos hdue]

/-- A domain that is not needed yet goes deeper when it may. -/
theorem thermostat_deeper (hpwr : r.c.thm.pwr[dom] ≠ .awake) (htarget : r.pwrTarget dom ≠ .sleep)
    (hdue : r.wakeDue dom r.c.thm.pwr[dom] = false) (hdepth : (r.c.thm.pwr[dom]).depth < (r.pwrTarget dom).depth) :
    r.thermostat dom = r.setPwr dom (r.pwrTarget dom) none := by
  unfold Run.thermostat
  rw [if_neg (by simp [hsettled]), if_neg hpwr, if_neg htarget, if_neg (ne_true_of_eq_false hdue), if_pos hdepth]

end

theorem thermostatsSleepAndWake : ThermostatsSleepAndWake := by
  intro s kind n dom r x sets hn hdom hsettled
  have hsets {y : Pwr} {w : Option Nat} (h : r.thermostat dom = r.setPwr dom y w) : sets y w := by
    show Host.Outcome.next (Run.finish s (r.thermostat (domOf kind n))) = _
    rw [domOf_eq hn hdom, h]
    rfl
  refine ⟨fun hpwr => ?_, fun hpwr htarget => ?_, ?_⟩
  · exact hsets (thermostat_awake hsettled hpwr)
  · exact hsets (thermostat_sleep hsettled hpwr htarget)
  · rintro y rfl hpwr htarget
    exact ⟨fun hdue => hsets (thermostat_wake hsettled hpwr htarget hdue),
      fun hdue hdepth => hsets (thermostat_deeper hsettled hpwr htarget hdue hdepth)⟩

/-- Settles O49: a hot sample asserts the warning and 125 °C pulls THERMTRIP_N down; each branch of a Thermostat sets the power
state and the wake of its domain, and nothing else. -/
theorem heatAndPowerStates : Obligations.HeatAndPowerStates := ⟨heatIsAnswered, thermostatsSleepAndWake⟩

end Sys2Proof.Laws
end

section
/-! SUPPORT. How a line lies in DRAM: its place, its symbols on the data bus, its metadata word, and the obligation about them
(R243, R245–R250). -/
namespace Sys2Proof.Laws
open Sys2Proof Sys2Proof.Machine Sys2Proof.Safety Sys2Proof.Claim

/-! ## The place of a line (R243) -/

/-- The low bits of a number and the next `b` bits tell its low bits up to there. -/
theorem mod_two_pow_add_congr {i j a b : Nat} (hlow : i % 2 ^ a = j % 2 ^ a)
    (hdigit : (i >>> a) % 2 ^ b = (j >>> a) % 2 ^ b) : i % 2 ^ (a + b) = j % 2 ^ (a + b) := by
  simp only [Nat.shiftRight_eq_div_pow] at hdigit
  rw [pow_add, Nat.mod_mul, Nat.mod_mul, hlow, hdigit]

/-- Bank group, bank, rank, column and row are the digits of a line index, from the low bits up. -/
theorem place_injective (x : Chan) {i j : Nat} (hi : i < 2 ^ (11 + x.rankBits + if x.dens then 17 else 16))
    (hj : j < 2 ^ (11 + x.rankBits + if x.dens then 17 else 16)) (h : x.place i = x.place j) : i = j := by
  obtain ⟨hrank, hbg, hbank, hrow, hcol⟩ := Place.mk.inj h
  have hcol : (i >>> (5 + x.rankBits)) % 2 ^ 6 = (j >>> (5 + x.rankBits)) % 2 ^ 6 := Nat.eq_of_mul_eq_mul_left (by decide) hcol
  have hbanks : i % 2 ^ 5 = j % 2 ^ 5 := mod_two_pow_add_congr (a := 3) (b := 2) hbg hbank
  have hranks : i % 2 ^ (5 + x.rankBits) = j % 2 ^ (5 + x.rankBits) := mod_two_pow_add_congr hbanks hrank
  have hcols : i % 2 ^ (11 + x.rankBits) = j % 2 ^ (11 + x.rankBits) := by
    rw [show 11 + x.rankBits = 5 + x.rankBits + 6 by omega]
    exact mod_two_pow_add_congr hranks hcol
  have hrows := mod_two_pow_add_congr hcols hrow
  rwa [Nat.mod_eq_of_lt hi, Nat.mod_eq_of_lt hj] at hrows

/-! ## Where the bits of a symbol lie (R245, R246) -/

/-- The beat in which a symbol has its nibble i: of the 16 beats of a line, in two bursts. -/
def symBeat (s i : Nat) : Nat := 16 * (s / 4 % 2) + 4 * (s % 4) + i

/-- Where bit n of symbol s lies, in the line's bytes or in its spare bytes. -/
def symBit (s n : Nat) : Nat := busBit (symDevice s) (s / 4 % 2) (4 * (s % 4) + n / 4) + n % 4

theorem symBit_of_data {s : Nat} (n : Nat) (hs : s < 128) :
    symBit s n = 4 * (16 * symBeat s (n / 4) + s / 8) + n % 4 := by
  unfold symBit busBit symDevice symBeat
  rw [if_pos (by omega)]
  omega

theorem symBit_of_spare {s : Nat} (n : Nat) (hs : 128 ≤ s) :
    symBit s n = 4 * (4 * symBeat s (n / 4) + (s / 8 - 16)) + n % 4 := by
  unfold symBit busBit symDevice symBeat
  rw [if_neg (by omega)]
  omega

theorem symBit_lt_data {s n : Nat} (hs : s < 128) (hn : n < 16) : symBit s n < 2048 := by
  rw [symBit_of_data n hs]
  unfold symBeat
  omega

theorem symBit_lt_spare {s n : Nat} (hs : 128 ≤ s) (hlt : s < 160) (hn : n < 16) : symBit s n < 512 := by
  rw [symBit_of_spare n hs]
  unfold symBeat
  omega

theorem symBit_in_beat (s n : Nat) : symBit s n = symBit s (4 * (n / 4)) + n % 4 := by
  unfold symBit
  rw [Nat.mul_div_cancel_left _ (by decide), Nat.mul_mod_right, Nat.add_zero]

/-- Device, beat and nibble tell the symbol. -/
theorem symBeat_inj {a b i j : Nat} (hdev : a / 8 = b / 8) (hbeat : symBeat a i = symBeat b j) (hi : i < 4) (hj : j < 4) :
    a = b ∧ i = j := by
  unfold symBeat at hbeat
  have hburst : a / 4 % 2 = b / 4 % 2 := by omega
  have hquad : a % 4 = b % 4 := by omega
  omega

/-- The nibbles of two symbols, both of the line's bytes or both of its spare bytes, overlap only when they are the same. -/
theorem symBit_overlap {a b i n : Nat} (ha : a < 160) (hb : b < 160) (hside : a < 128 ↔ b < 128) (hi : i < 4) (hn : n < 16)
    (hlow : symBit a (4 * i) ≤ symBit b n) (hhigh : symBit b n < symBit a (4 * i) + 4) : a = b ∧ i = n / 4 := by
  have hbeat : 4 * i / 4 = i := Nat.mul_div_cancel_left i (by decide)
  by_cases h : a < 128
  · rw [symBit_of_data _ h, symBit_of_data _ (hside.mp h), hbeat] at hlow hhigh
    exact symBeat_inj (by omega) (by omega) hi (by omega)
  · rw [symBit_of_spare _ (by omega), symBit_of_spare _ (by omega), hbeat] at hlow hhigh
    exact symBeat_inj (by omega) (by omega) hi (by omega)

/-! ## What a flip changes -/

/-- Bit p of the bytes that device k drives: the line's bytes, or its spare bytes. -/
def deviceBit (x : Raw) (k p : Nat) : Bool := if k < 16 then x.data.getLsbD p else x.spare.getLsbD p

theorem getLsbD_nibble (x : Raw) (k j t : Nat) {n : Nat} (hn : n < 4) :
    (x.nibble k j t).getLsbD n = deviceBit x k (busBit k j t + n) := by
  unfold Raw.nibble deviceBit
  split <;> simp [hn]

theorem getLsbD_sym (x : Raw) (s : Nat) {n : Nat} (hn : n < 16) :
    (x.sym s).getLsbD n = deviceBit x (symDevice s) (symBit s n) := by
  have hbeat : ∀ i, n / 4 = i → (x.nibble (symDevice s) (s / 4 % 2) (4 * (s % 4) + i)).getLsbD (n - 4 * i) =
      deviceBit x (symDevice s) (symBit s n) := by
    rintro i rfl
    rw [getLsbD_nibble x _ _ _ (by omega), show n - 4 * (n / 4) = n % 4 by omega]
    rfl
  unfold Raw.sym
  simp only [BitVec.getLsbD_append, Nat.sub_sub]
  split_ifs
  · exact hbeat 0 (by omega)
  · exact hbeat 1 (by omega)
  · exact hbeat 2 (by omega)
  · exact hbeat 3 (by omega)

/-- The part of a flip that lies in beat i of its symbol. -/
def flipBeat (s : Nat) (v : BitVec 16) (y : Raw) (i : Nat) : Raw :=
  if s < 128 then { y with data := y.data ^^^ ((v.extractLsb' (4 * i) 4).setWidth 2048 <<< symBit s (4 * i)) }
  else { y with spare := y.spare ^^^ ((v.extractLsb' (4 * i) 4).setWidth 512 <<< symBit s (4 * i)) }

theorem flip_eq_beats (x : Raw) (s : Nat) (v : BitVec 16) : x.flip s v = (List.range 4).foldl (flipBeat s v) x := by
  unfold Raw.flip
  congr 1
  funext y i
  unfold flipBeat symBit
  simp

/-- The nibble that a flip of symbol a lays over its beat i meets bit n of symbol b only where that is one of its own. -/
theorem getLsbD_beat {w a b i n : Nat} (v : BitVec 16) (ha : a < 160) (hb : b < 160) (hside : a < 128 ↔ b < 128) (hi : i < 4)
    (hn : n < 16) (hin : symBit b n < w) :
    ((v.extractLsb' (4 * i) 4).setWidth w <<< symBit a (4 * i)).getLsbD (symBit b n) =
      (decide (a = b ∧ i = n / 4) && v.getLsbD n) := by
  by_cases h : a = b ∧ i = n / 4
  · obtain ⟨rfl, rfl⟩ := h
    have hstart : symBit a n = symBit a (4 * (n / 4)) + n % 4 := symBit_in_beat a n
    have hbit : symBit a n - symBit a (4 * (n / 4)) = n % 4 := by omega
    have hfrom : ¬ symBit a n < symBit a (4 * (n / 4)) := by omega
    have hwhole : 4 * (n / 4) + n % 4 = n := Nat.div_add_mod n 4
    simp [hin, hfrom, hbit, hwhole, Nat.mod_lt]
  · have hout : symBit b n < symBit a (4 * i) ∨ 4 ≤ symBit b n - symBit a (4 * i) := by
      by_contra hmeet
      exact h (symBit_overlap ha hb hside hi hn (by omega) (by omega))
    rcases hout with hout | hout
    · simp [h, hout]
    · simp [h, Nat.not_lt.mpr hout]

theorem deviceBit_flipBeat {a b i n : Nat} (v : BitVec 16) (y : Raw) (ha : a < 160) (hb : b < 160) (hi : i < 4) (hn : n < 16) :
    deviceBit (flipBeat a v y i) (symDevice b) (symBit b n) =
      (deviceBit y (symDevice b) (symBit b n) ^^ (decide (a = b ∧ i = n / 4) && v.getLsbD n)) := by
  have hdev : symDevice b < 16 ↔ b < 128 := by unfold symDevice; omega
  unfold flipBeat deviceBit
  simp only [hdev]
  by_cases hda : a < 128 <;> by_cases hdb : b < 128
  · rw [if_pos hda, if_pos hdb, if_pos hdb, BitVec.getLsbD_xor, getLsbD_beat v ha hb (by omega) hi hn (symBit_lt_data hdb hn)]
  · rw [if_pos hda, if_neg hdb, if_neg hdb, decide_eq_false (by omega), Bool.false_and, Bool.xor_false]
  · rw [if_neg hda, if_pos hdb, if_pos hdb, decide_eq_false (by omega), Bool.false_and, Bool.xor_false]
  · rw [if_neg hda, if_neg hdb, if_neg hdb, BitVec.getLsbD_xor,
      getLsbD_beat v ha hb (by omega) hi hn (symBit_lt_spare (by omega) hb hn)]

theorem sym_flip (x : Raw) {a b : Nat} (v : BitVec 16) (ha : a < 160) (hb : b < 160) :
    (x.flip a v).sym b = if a = b then x.sym b ^^^ v else x.sym b := by
  apply BitVec.eq_of_getLsbD_eq
  intro n hn
  have hbit : ((x.flip a v).sym b).getLsbD n = ((x.sym b).getLsbD n ^^ (decide (a = b) && v.getLsbD n)) := by
    have hbeat : n / 4 = 0 ∨ n / 4 = 1 ∨ n / 4 = 2 ∨ n / 4 = 3 := by omega
    rw [flip_eq_beats, getLsbD_sym _ _ hn, getLsbD_sym _ _ hn]
    show deviceBit (flipBeat a v (flipBeat a v (flipBeat a v (flipBeat a v x 0) 1) 2) 3) _ _ = _
    rw [deviceBit_flipBeat v _ ha hb (by decide) hn, deviceBit_flipBeat v _ ha hb (by decide) hn,
      deviceBit_flipBeat v _ ha hb (by decide) hn, deviceBit_flipBeat v _ ha hb (by decide) hn]
    rcases hbeat with h | h | h | h <;> simp [h]
  rw [hbit]
  by_cases h : a = b <;> simp [h]

/-! ## The metadata word (R247) -/

theorem metaOf_metaWord (md : Meta) : metaOf (metaWord md) = md := by
  unfold metaOf metaWord metaBits
  simp (disch := decide) only [BitVec.extractLsb'_append_eq_of_le, BitVec.extractLsb'_append_eq_of_add_le,
    BitVec.getLsbD_append, BitVec.extractLsb'_eq_self, if_pos, if_neg]
  simp

theorem schkOk_metaWord (md : Meta) : schkOk (metaWord md) = true := by
  unfold schkOk metaWord
  rw [BitVec.extractLsb'_append_eq_of_add_le (by decide), BitVec.extractLsb'_append_eq_of_le (by decide)]
  simp

/-! ## Decoding at the strength that the line was written with (R249, R250; log entry 14) -/

theorem decodeAt_own (x : Line) (mark : Option Nat) (e : ErrPat) :
    x.decodeAt mark e x.md.lcode = if decodes x.md.lcode mark e then some (x, true) else none := if_pos rfl

theorem decode_own (x : Line) (mark : Option Nat) {e : ErrPat} (h : x.rawWord e = metaWord x.md) :
    x.decode mark e = if decodes x.md.lcode mark e then some x else none := by
  unfold Line.decode
  dsimp only
  rw [h, if_pos (schkOk_metaWord x.md), metaOf_metaWord, decodeAt_own]
  split <;> rfl

/-- Settles O8: the place of a line is its index digit by digit; no two symbols share a bit of the data bus; the fields of the
metadata word lie side by side; and a metadata word without errors makes the decoder use the strength of the line. -/
theorem linesLieInDram : Obligations.LinesLieInDram :=
  ⟨fun x _ _ hi hj h => place_injective x hi hj h, fun x _ _ v ha hb => sym_flip x v ha hb,
    fun md => ⟨metaOf_metaWord md, schkOk_metaWord md⟩, fun x mark _ h => decode_own x mark h⟩

end Sys2Proof.Laws
end

section
/-! SUPPORT. What an access to a channel does besides its own work: its slot, its commands on the DRAM, its charge, and where a
line that it writes is stored (R241, R244, R257). -/
namespace Sys2Proof.Laws
open Sys2Proof Sys2Proof.Machine Sys2Proof.Safety Sys2Proof.Claim

variable (r : Run)

/-! ## A charge enters the meters and nothing else -/

/-- Only the meters have changed; where the stores were those that the operations logged make, they still are. -/
structure Metered (r r' : Run) : Prop where
  ctl : ∃ x, r'.c = { r.c with mtr := x }
  stores : ∃ y, r'.m = { r.m with mtr := y }
  keeps : ∀ s, faithful s r → faithful s r'

variable {r} in
theorem Metered.trans {r' r'' : Run} (h : Metered r r') (h' : Metered r' r'') : Metered r r'' := by
  obtain ⟨⟨x, hctl⟩, ⟨y, hstores⟩, hkeeps⟩ := h
  obtain ⟨⟨x', hctl'⟩, ⟨y', hstores'⟩, hkeeps'⟩ := h'
  exact ⟨⟨x', by rw [hctl', hctl]⟩, ⟨y', by rw [hstores', hstores]⟩, fun s hs => hkeeps' s (hkeeps s hs)⟩

theorem metered_meterAdd (bank : Bool) (t : Nat) (k : Meter) (n : Nat) : Metered r (r.meterAdd bank t k n) := by
  unfold Run.meterAdd
  split
  · exact ⟨⟨_, rfl⟩, ⟨_, rfl⟩, fun _ h => h⟩
  · exact ⟨⟨_, rfl⟩, ⟨_, rfl⟩, fun s h => faithful_st s r _ h⟩

theorem metered_charge (t : BitVec 12) (k : Meter) (n : Nat) (stamp : Stamp) : Metered r (r.charge t k n stamp) := by
  have hadd := metered_meterAdd r (r.stampBank stamp) t.toNat k n
  unfold Run.charge Run.when
  extract_lets bank added
  split
  · exact hadd.trans ⟨⟨_, rfl⟩, ⟨_, rfl⟩, fun _ h => h⟩
  · exact hadd

/-! ## Where lines lie -/

/-- A channel holds its lines where another view of it does: geometry and remap table are the same. -/
structure SamePlaces (x y : Chan) : Prop where
  ranks : x.ranks = y.ranks
  dens : x.dens = y.dens
  remap : x.remap = y.remap

theorem remapOf_congr {x y : Chan} (h : x.remap = y.remap) (idx : Nat) : x.remapOf idx = y.remapOf idx := by
  unfold Chan.remapOf
  rw [h]

theorem access_congr {x y : Chan} (h : SamePlaces x y) (c : Fin 16) (write : Bool) (idx : Nat) :
    x.access c write idx = y.access c write idx := by
  unfold Chan.access Chan.place Chan.rankOf Chan.rowOf Chan.colOf Chan.rankBits
  rw [h.ranks, h.dens]

theorem line_congr {r r' : Run} {c : Fin 16} (hremap : (r'.c.chans[c]).remap = (r.c.chans[c]).remap)
    (hdram : r'.m.dram = r.m.dram) (hlines : r'.m.remap = r.m.remap) (idx : Nat) : r'.line c idx = r.line c idx := by
  unfold Run.line Run.chan
  rw [remapOf_congr hremap, hdram, hlines]

/-- The store operation that writes a line. -/
def lineOp (c : Fin 16) (idx : Nat) (x : Line) : StoreOp :=
  match (r.c.chans[c]).remapOf idx with
  | some i => .remap (c.val * 8 + i.val) x
  | none => .dram (dramKey c idx) x

theorem putLine_eq (c : Fin 16) (idx : Nat) (x : Line) : r.putLine c idx x = r.st (lineOp r c idx x) := by
  unfold Run.putLine lineOp Run.chan
  cases (r.c.chans[c]).remapOf idx <;> rfl

theorem putLine_m (c : Fin 16) (idx : Nat) (x : Line) :
    ∃ d p, (r.putLine c idx x).m = { r.m with dram := d, remap := p } := by
  unfold Run.putLine
  split <;> exact ⟨_, _, rfl⟩

theorem putLine_c (c : Fin 16) (idx : Nat) (x : Line) : (r.putLine c idx x).c = r.c := by
  rw [putLine_eq]
  rfl

variable {r} in
theorem faithful_putLine {s : State} (h : faithful s r) (c : Fin 16) (idx : Nat) (x : Line) :
    faithful s (r.putLine c idx x) := by
  rw [putLine_eq]
  exact faithful_st s r _ h

/-- A line that is written is stored at its place. -/
theorem storesLine_putLine {r : Run} {s t : State} {c : Fin 16} {idx : Nat} {x : Line}
    (hremap : (r.c.chans[c]).remap = (s.c.chans[c]).remap) (hdram : r.m.dram = s.m.dram) (hlines : r.m.remap = s.m.remap)
    (htdram : t.m.dram = (r.putLine c idx x).m.dram) (htlines : t.m.remap = (r.putLine c idx x).m.remap) :
    storesLine s t c idx x := by
  have hput := putLine_eq r c idx x
  unfold lineOp at hput
  rw [remapOf_congr hremap] at hput
  rw [hput] at htdram htlines
  unfold storesLine
  cases hplace : (s.c.chans[c]).remapOf idx with
  | some i =>
    rw [hplace] at htdram htlines
    exact ⟨htlines.trans (congrArg (fun p => mset Line.unwritten p _ x) hlines), htdram.trans hdram⟩
  | none =>
    rw [hplace] at htdram htlines
    exact ⟨htdram.trans (congrArg (fun p => mset Line.unwritten p _ x) hdram), htlines.trans hlines⟩

/-! ## An access in a slot of its channel's calendar -/

/-- What an access leaves of the control state: its slot used, its commands driven, the line of a write in its crossing, and
the channel as `x` says. -/
def accessCtl (s : State) (c : Fin 16) (code : Nat) (write : Bool) (idx : Nat) (x : Chan) : Ctl :=
  { s.c with used := (160 + c.val, code) :: s.c.used, chans := s.c.chans.set c.val x c.isLt,
             xings := if write then sentInto s (.celWrite c) 3 else s.c.xings,
             out := { s.c.out with ddr := s.c.out.ddr ++ dramCmds s c write idx } }

/-- A remapped line drives no commands. -/
theorem modOut_cmds (c : Fin 16) (write : Bool) (idx : Nat) :
    (if ((r.chan c).remapOf idx).isSome then r
      else r.modOut fun o => { o with ddr := o.ddr ++ (r.chan c).access c write idx }) =
    r.modOut fun o => { o with ddr := o.ddr ++
      if ((r.c.chans[c]).remapOf idx).isSome then [] else (r.c.chans[c]).access c write idx } := by
  unfold Run.chan
  split
  · simp only [List.append_nil]
    rfl
  · rfl

theorem ddr_eq {r : Run} {s : State} {c : Fin 16} (h : SamePlaces r.c.chans[c] s.c.chans[c]) (write : Bool) (idx : Nat) :
    r.ddr c write idx = { r with c := { r.c with
      xings := if write then r.c.xings.mod (.celWrite c) fun x => x.send 3 else r.c.xings,
      out := { r.c.out with ddr := r.c.out.ddr ++ dramCmds s c write idx } } } := by
  unfold Run.ddr dramCmds
  dsimp only
  rw [modOut_cmds, ← remapOf_congr h.remap, ← access_congr h]
  cases write <;> rfl

theorem access_eq {s : State} (c : Fin 16) (code : Nat) (write : Bool) (idx : Nat) (f : Chan → Chan)
    (h : SamePlaces (f s.c.chans[c]) s.c.chans[c]) :
    (((Run.start s).grant (160 + c.val) code).modChan c f).ddr c write idx =
      ⟨accessCtl s c code write idx (f s.c.chans[c]), s.m, []⟩ := by
  rw [ddr_eq (s := s) (by rw [chan_modChan_self]; exact h)]
  rfl

/-- The command has made one access to channel c, which is now as `x` says, and has been charged for it; `m` is what it has made
of the stores, apart from the meters. -/
structure Accessed (s : State) (c : Fin 16) (code : Nat) (write : Bool) (idx : Nat) (x : Chan) (m : Stores) (r : Run) : Prop where
  now : r.c.now = s.c.now
  rooms : r.c.rooms = s.c.rooms
  porches : r.c.porches = s.c.porches
  chans : r.c.chans = s.c.chans.set c.val x c.isLt
  fbx : r.c.fbx = s.c.fbx
  used : r.c.used = (160 + c.val, code) :: s.c.used
  out : r.c.out = { s.c.out with ddr := s.c.out.ddr ++ dramCmds s c write idx }
  xings : r.c.xings = if write then sentInto s (.celWrite c) 3 else s.c.xings
  stores : ∃ y, r.m = { m with mtr := y }
  faith : faithful s r

theorem accessed_of_metered {r : Run} {s : State} {c : Fin 16} {code : Nat} {write : Bool} {idx : Nat} {x : Chan} {m : Stores}
    {log : List StoreOp} (hlog : m = s.m.applyAll log.reverse)
    (h : Metered ⟨accessCtl s c code write idx x, m, log⟩ r) : Accessed s c code write idx x m r := by
  obtain ⟨ctl, stores, log⟩ := r
  obtain ⟨⟨mtr, hctl⟩, hstores, hkeeps⟩ := h
  subst hctl
  exact ⟨rfl, rfl, rfl, rfl, rfl, rfl, rfl, rfl, hstores, hkeeps s hlog⟩

theorem accessed_charge {s : State} {c : Fin 16} {code : Nat} {write : Bool} {idx : Nat} {f : Chan → Chan}
    (h : SamePlaces (f s.c.chans[c]) s.c.chans[c]) (t : BitVec 12) (n : Nat) (stamp : Stamp) :
    Accessed s c code write idx (f s.c.chans[c]) s.m
      (((((Run.start s).grant (160 + c.val) code).modChan c f).ddr c write idx).charge t .cellar n stamp) := by
  rw [access_eq c code write idx f h]
  exact accessed_of_metered (log := []) rfl (metered_charge _ _ _ _ _)

section
variable {r} {s : State} {c : Fin 16} {code : Nat} {write : Bool} {idx : Nat} {x : Chan}

theorem Accessed.chan {m : Stores} (h : Accessed s c code write idx x m r) : r.c.chans[c] = x := by
  rw [h.chans]
  simp

theorem Accessed.drives {m : Stores} (h : Accessed s c code write idx x m r) (t : State) (hout : t.c.out = r.c.out)
    (hxings : t.c.xings = r.c.xings) : drives s t c write idx :=
  ⟨hout.trans h.out, hxings.trans h.xings⟩

theorem Accessed.encrypt (h : Accessed s c code write idx x s.m r) (t : BitVec 12) (pa : PoolAddr) (d : LineData) (md : Meta) :
    r.encrypt t pa d md = (Run.start s).encrypt t pa d md := by
  obtain ⟨y, hstores⟩ := h.stores
  unfold Run.encrypt Run.crypt Run.tenantKey
  rw [hstores]
  rfl

theorem Accessed.line (h : Accessed s c code write idx x s.m r) (hremap : x.remap = (s.c.chans[c]).remap) (i : Nat) :
    r.line c i = (Run.start s).line c i := by
  obtain ⟨y, hstores⟩ := h.stores
  exact line_congr ((congrArg Chan.remap h.chan).trans hremap) (by rw [hstores]; rfl) (by rw [hstores]; rfl) i

theorem Accessed.keepsCells {m : Stores} (h : Accessed s c code write idx x m r) (hcells : cellTables m = cellTables s.m)
    {t : State} (ht : t.m = r.m) : keepsCells s t := by
  obtain ⟨y, hstores⟩ := h.stores
  have hkept : cellTables t.m = cellTables s.m := by
    rw [ht, hstores]
    exact hcells
  simp only [cellTables, Prod.mk.injEq] at hkept
  unfold Safety.keepsCells
  tauto

end

end Sys2Proof.Laws
end

section
/-! SUPPORT. The obligation about the commands of the Cellar (R244, R252, R255, R261). -/
namespace Sys2Proof.Laws
open Sys2Proof Sys2Proof.Machine Sys2Proof.Safety Sys2Proof.Claim

variable (r : Run)

/-! ## A command of a Room's queue issues (R244) -/

/-- The channel without command i of its queue. -/
def unqueued (i : Nat) (y : Chan) : Chan := { y with queue := y.queue.eraseIdx i }

/-- The command has left its queue, driven its commands and been charged. -/
def issued (c : Fin 16) (sel i : Nat) (x : CelCmd) : Run :=
  (((r.grant (160 + c.val) (0x80 + sel)).modChan c (unqueued i)).ddr c x.write x.idx).charge x.charge .cellar 1 x.tin

/-- The write buffer entry of a write awaits the Cellar no more (R105). -/
def celTaken (x : CelCmd) : Run :=
  match x.wb with
  | some n => (r.modWb x.m n fun e => { e with needCel := false }).wbSweep x.m
  | none => r

theorem celTaken_rooms (x : CelCmd) : ∃ rooms, celTaken r x = { r with c := { r.c with rooms := rooms } } := by
  unfold celTaken
  split <;> exact ⟨_, rfl⟩

/-- The read that has issued is in flight, with the line as it stands. -/
def inFlight (x : CelCmd) (now : Nat) (line : Line) (y : Chan) : Chan :=
  { y with flight := y.flight ++ [{ x with issuedAt := now, got := some line }] }

theorem celIssue_first {r : Run} {c : Fin 16} {sel i : Nat} {x : CelCmd} (hchan : r.fenced (unitChan c) = false)
    (hroom : r.fenced sel = false) (hnext : r.nextCmd c sel = some (i, x))
    (hslot : r.canGrant (160 + c.val) (0x80 + sel) = true) :
    let q := issued r c sel i x
    r.celIssue c sel =
      if x.write then celTaken ((q.freshWrite c x.idx).putLine c x.idx (q.encrypt x.tenant x.pa x.data x.md)) x
      else q.modChan c (inFlight x q.now (q.line c x.idx)) := by
  unfold Run.celIssue
  rw [hchan, hroom, hnext, if_neg (by decide)]
  dsimp only
  rw [inSlot_of_grant r _ hslot]
  rfl

theorem issued_accessed (s : State) (c : Fin 16) (sel i : Nat) (x : CelCmd) :
    Accessed s c (0x80 + sel) x.write x.idx (unqueued i s.c.chans[c]) s.m (issued (Run.start s) c sel i x) :=
  accessed_charge ⟨rfl, rfl, rfl⟩ _ _ _

theorem issuedWriteStoresItsLine : IssuedWriteStoresItsLine := by
  intro s c sel i x r hchan hroom hnext hwrite hslot
  have hacc := issued_accessed s c sel i x
  have hrun := (celIssue_first hchan hroom hnext hslot).trans (if_pos hwrite)
  rw [hwrite] at hacc
  rw [hacc.encrypt] at hrun
  generalize issued r c sel i x = q at hacc hrun
  obtain ⟨y, hstores⟩ := hacc.stores
  let stored := (q.freshWrite c x.idx).putLine c x.idx (r.encrypt x.tenant x.pa x.data x.md)
  obtain ⟨rooms, hrooms⟩ := celTaken_rooms stored x
  have hctl : stored.c = (q.freshWrite c x.idx).c := putLine_c _ _ _ _
  have hfaith : faithful s stored := faithful_putLine (r := q.freshWrite c x.idx) hacc.faith _ _ _
  have hfresh : (q.freshWrite c x.idx).c.chans[c] = _ := chan_modChan_self q c _
  rw [hacc.chan] at hfresh
  obtain ⟨d, p, hput⟩ := putLine_m (q.freshWrite c x.idx) c x.idx (r.encrypt x.tenant x.pa x.data x.md)
  let t := Run.finish s { stored with c := { stored.c with rooms := rooms } }
  have hm : t.m = stored.m := finish_m_of_faithful s stored hfaith
  refine ⟨t, congrArg (fun r => Host.Outcome.next (Run.finish s r)) (hrun.trans hrooms), ?_, ?_,
    hacc.drives t ?_ ?_, ?_, ?_, ?_⟩
  · show (stored.c.chans[c]).queue = _
    rw [hctl, hfresh]
    rfl
  · refine storesLine_putLine ?_ ?_ ?_ (congrArg Stores.dram hm) (congrArg Stores.remap hm)
    · rw [hfresh]
      rfl
    · exact (congrArg Stores.dram hstores :)
    · exact (congrArg Stores.remap hstores :)
  · exact (congrArg Ctl.out hctl :)
  · exact (congrArg Ctl.xings hctl :)
  · rw [hm, hput]
    exact (congrArg Stores.tags hstores :)
  · rw [hm, hput]
    exact (congrArg Stores.regs hstores :)
  · exact (congrArg Ctl.porches hctl :).trans hacc.porches

theorem issuedReadIsInFlight : IssuedReadIsInFlight := by
  intro s c sel i x r hchan hroom hnext hread hslot
  have hacc := issued_accessed s c sel i x
  have hrun := (celIssue_first hchan hroom hnext hslot).trans (if_neg (ne_true_of_eq_false hread))
  rw [hread] at hacc
  rw [hacc.line rfl] at hrun
  generalize issued r c sel i x = q at hacc hrun
  have hflying : (q.modChan c (inFlight x q.now (r.line c x.idx))).c.chans[c] =
      inFlight x s.c.now (r.line c x.idx) (unqueued i s.c.chans[c]) := by
    rw [chan_modChan_self, hacc.chan, show q.now = s.c.now from hacc.now]
  exact ⟨_, congrArg (fun r => Host.Outcome.next (Run.finish s r)) hrun, (congrArg Chan.queue hflying :),
    (congrArg Chan.flight hflying :), hacc.drives _ rfl rfl, hacc.rooms, hacc.porches,
    hacc.keepsCells rfl (finish_m_of_faithful s _ hacc.faith)⟩

/-! ## A read comes back without errors (R252) -/

theorem badSyms_none (lc : BitVec 2) : badSyms lc {} = [] := rfl

/-- A read without errors counts nothing. -/
theorem corrected_none (c : Fin 16) (idx : Nat) (lc : BitVec 2) : r.corrected c idx lc {} = r := rfl

theorem errOf_none (c : Fin 16) (idx : Nat) : r.errOf c idx {} = {} := by
  unfold Run.errOf
  exact ite_self _

theorem rdLine_clean {c : Fin 16} {rank : Nat} {line y : Line} (hdec : r.decode c rank line {} = some y)
    (hstate : y.md.state = 1) (t : BitVec 12) (pa : PoolAddr) :
    r.rdLine c rank line {} t pa none = .ok (r.decrypt t pa y) y.md.poison := by
  unfold Run.rdLine
  rw [hdec]
  dsimp only
  rw [if_neg (by rw [hstate]; decide), if_neg (by rw [hstate]; decide)]
  rfl

/-- The first read in flight has come out of its channel's crossing. -/
def readCame (c : Fin 16) : Run := (r.lineBack c).modChan c fun y => { y with flight := y.flight.eraseIdx 0 }

theorem celDone_clean {c : Fin 16} {x : CelCmd} {line y : Line} (hflight : (r.c.chans[c]).flight = [x])
    (hchan : r.fenced (unitChan c) = false) (hgot : x.got = some line) (hnear : x.near = none)
    (hdec : r.decode c ((r.c.chans[c]).rankOf x.idx) line {} = some y) (hstate : y.md.state = 1) :
    r.celDone c 0 {} = (readCame r c).celDeliver c x (.ok (r.decrypt x.tenant x.pa y) y.md.poison)
      (r.decrypt x.tenant x.pa line) := by
  have hclean : r.errOf c x.idx {} = {} := errOf_none r c x.idx
  have hread := rdLine_clean r hdec hstate x.tenant x.pa
  have hnone : (readCame r c).when ((readCame r c).decode c ((r.c.chans[c]).rankOf x.idx) line {}).isSome
      (fun r => r.corrected c x.idx line.md.lcode {}) = readCame r c := by
    simp only [corrected_none]
    exact ite_self _
  unfold Run.celDone
  rw [show (r.chan c).flight[0]? = some x by rw [show (r.chan c).flight = [x] from hflight]; rfl]
  dsimp only
  rw [if_neg (ne_true_of_eq_false hchan), hgot, hnear, hclean]
  unfold Run.chan Option.getD
  dsimp only
  rw [hread]
  exact congrArg (fun q : Run => q.celDeliver c x (.ok (r.decrypt x.tenant x.pa y) y.md.poison)
    (q.decrypt x.tenant x.pa line)) hnone

/-- While the Timetable runs, the data of a host read wait for a slot toward their Porch. -/
theorem answerData_host {it : Item} {uid : Nat} {p : Fin 8} {k : Fin 2} (hrun : r.c.tt.run = true)
    (hsrc : it.src = .host uid p k) (hop : it.op = .memRd) (m : Fin 64) (stop : Nat) (d : LineData) (poison : Bool) :
    r.answerData m stop it d poison =
      r.post stop 0x56 (.ans it.src (.data (chunkOf d (paChunk it.pa)) poison)) (some it.src) := by
  unfold Run.answerData
  rw [hsrc, hop]
  exact if_pos hrun

theorem celDeliver_host {c : Fin 16} {x : CelCmd} {m : Fin 64} {it : Item} {uid : Nat} {p : Fin 8} {k : Fin 2}
    (hroom : r.fenced (unitRoom m) = false) (hrun : r.c.tt.run = true) (hpurpose : x.purpose = some (.item m it true))
    (hsrc : it.src = .host uid p k) (hop : it.op = .memRd) (d : LineData) (poison : Bool) (raw : LineData) :
    r.celDeliver c x (.ok d poison) raw =
      r.post (136 + c.val) 0x56 (.ans it.src (.data (chunkOf d (paChunk it.pa)) poison)) (some it.src) := by
  have hplain : r.when (poison && it.op = .rsvLoad) (fun r => r.rsvUnplace m it) = r := by
    rw [hop, decide_eq_false (by decide), Bool.and_false]
    rfl
  unfold Run.celDeliver
  rw [hpurpose]
  dsimp only
  rw [if_neg (ne_true_of_eq_false hroom), hplain, answerData_host r hrun hsrc hop]
  rfl

theorem cleanReadAnswersItsRequest : CleanReadAnswersItsRequest := by
  intro s c x m it uid p k line y r hflight hchan hroom hrun hgot hpurpose hnear hdec hstate hsrc hop
  have hdone := (celDone_clean r hflight hchan hgot hnear hdec hstate).trans
    (celDeliver_host (readCame r c) hroom hrun hpurpose hsrc hop (r.decrypt x.tenant x.pa y) y.md.poison _)
  have hleft : (readCame r c).c.chans[c] = { s.c.chans[c] with flight := (s.c.chans[c]).flight.eraseIdx 0 } :=
    chan_modChan_self (r.lineBack c) c _
  refine ⟨_, congrArg (fun r => Host.Outcome.next (Run.finish s r)) hdone, ?_, ⟨rfl, rfl⟩, rfl, rfl, rfl, rfl⟩
  show ((readCame r c).c.chans[c]).flight = []
  rw [hleft, hflight]
  rfl

/-! ## The repeat corrector and the poison rewrite (R255, R261) -/

/-- The count of corrective writes of a channel takes a whole word, and resets to 0 (R255). -/
theorem rewriteCount_whole (c : Fin 16) : regMask (celBase c + 0x2C) = 0xFFFFFFFF ∧ regReset (celBase c + 0x2C) = 0 := by
  revert c
  decide +kernel

/-- The entry of a line of the repeat corrector is Rewritten. -/
def rewritten (line : Nat) (y : Chan) : Chan :=
  { y with cam := y.cam.map fun (e' : CamEnt) => if e'.line = line then { e' with st := .rewritten } else e' }

theorem repeatWrite_pending {c : Fin 16} {e : CamEnt} (hchan : r.fenced (unitChan c) = false)
    (hfind : ((r.c.chans[c]).cam.find? fun e => e.st = .pending && r.idleFits c true e.line) = some e) :
    r.repeatWrite c =
      ((((r.grant (160 + c.val)).modChan c (rewritten e.line)).ddr c true e.line).count32 (celBase c + 0x2C) 1).charge
        0 .cellar 1 r.ftNs := by
  unfold Run.repeatWrite Run.chan
  rw [if_neg (ne_true_of_eq_false hchan), hfind]
  rfl

/-- The store operation of a count that goes up by one. -/
def countOp (a : Nat) : StoreOp := .reg a (w32 (min 0xFFFFFFFF (r.reg a + 1)))

theorem repeatCorrectorRewrites : RepeatCorrectorRewrites := by
  intro s c e r hchan hfind
  have hrun := repeatWrite_pending r hchan hfind
  rw [access_eq c 0xFF true e.line (rewritten e.line) ⟨rfl, rfl, rfl⟩] at hrun
  have hacc : Accessed s c 0xFF true e.line (rewritten e.line s.c.chans[c]) (s.m.apply (countOp r (celBase c + 0x2C))) _ :=
    accessed_of_metered (log := [countOp r (celBase c + 0x2C)]) rfl (metered_charge _ 0 .cellar 1 r.ftNs)
  obtain ⟨y, hstores⟩ := hacc.stores
  obtain ⟨hmask, hreset⟩ := rewriteCount_whole c
  have hm := (finish_m_of_faithful s _ hacc.faith).trans hstores
  refine ⟨_, congrArg (fun r => Host.Outcome.next (Run.finish s r)) hrun, (congrArg Chan.cam hacc.chan :),
    hacc.drives _ rfl rfl, ?_, ?_, hacc.rooms, hacc.keepsCells (apply_cells _ _ rfl) (finish_m_of_faithful s _ hacc.faith)⟩
  · refine Eq.trans ?_ (reg_count32_whole r hmask hreset)
    exact congrArg (fun regs : SMap Word => (mget (regReset (celBase c + 0x2C)) regs (celBase c + 0x2C)).toNat)
      (congrArg Stores.regs hm :)
  · rw [finish_c]
    exact hacc.used ▸ List.mem_cons_self

/-- The line waits for its poison rewrite no more. -/
def poisonDone (idx : Nat) (y : Chan) : Chan := { y with poisonQ := y.poisonQ.filter fun j => j ≠ idx }

/-- The line with its poison mark, in the state of a line of its place (R261). -/
def poisonedLine (idx : Nat) (x : Line) : Line :=
  { x with md := { x.md with poison := true, state := if idx < r.nearBase then 1 else 2 } }

/-- A poison rewrite has made its access, and has still to write its line. -/
def poisonAccess (s : State) (c : Fin 16) (i : Nat) : Run := ⟨accessCtl s c 0xFF true i (poisonDone i s.c.chans[c]), s.m, []⟩

theorem poisonAccess_eq (s : State) (c : Fin 16) (i : Nat) :
    (((Run.start s).grant (160 + c.val)).ddr c true i).modChan c (poisonDone i) = poisonAccess s c i := by
  rw [ddr_eq (s := s) ⟨rfl, rfl, rfl⟩]
  rfl

theorem chan_poisonAccess (s : State) (c : Fin 16) (i : Nat) :
    (poisonAccess s c i).c.chans[c] = poisonDone i s.c.chans[c] := by
  unfold poisonAccess accessCtl
  simp

theorem poisonRewrite_first {s : State} {c : Fin 16} {i : Nat} (hchan : (Run.start s).fenced (unitChan c) = false)
    (hfind : ((s.c.chans[c]).poisonQ.find? fun i => (Run.start s).idleFits c true i) = some i) :
    (Run.start s).poisonRewrite c =
      ((poisonAccess s c i).putLine c i (poisonedLine (Run.start s) i ((Run.start s).line c i))).charge 0 .cellar 1
        (Run.start s).ftNs := by
  have hline : (poisonAccess s c i).line c i = (Run.start s).line c i :=
    line_congr (r := Run.start s) (r' := poisonAccess s c i) (congrArg Chan.remap (chan_poisonAccess s c i) :) rfl rfl i
  unfold Run.poisonRewrite
  rw [if_neg (ne_true_of_eq_false hchan), show ((Run.start s).chan c).poisonQ = (s.c.chans[c]).poisonQ from rfl, hfind, ← hline]
  exact congrArg (fun q : Run => (q.putLine c i (poisonedLine q i (q.line c i))).charge 0 .cellar 1 q.ftNs)
    (poisonAccess_eq s c i)

theorem poisonRewriteMarksTheLine : PoisonRewriteMarksTheLine := by
  intro s c i r hchan hfind
  have hrun := poisonRewrite_first hchan hfind
  let q := poisonAccess s c i
  let x := poisonedLine r i (r.line c i)
  have hput : q.putLine c i x = q.st (lineOp q c i x) := putLine_eq q c i x
  have hacc : Accessed s c 0xFF true i (poisonDone i s.c.chans[c]) (q.putLine c i x).m
      ((q.putLine c i x).charge 0 .cellar 1 r.ftNs) := by
    rw [hput]
    exact accessed_of_metered (log := [lineOp q c i x]) rfl (metered_charge _ _ _ _ _)
  obtain ⟨y, hstores⟩ := hacc.stores
  obtain ⟨d, p, hlines⟩ := putLine_m q c i x
  have hm := (finish_m_of_faithful s _ hacc.faith).trans hstores
  refine ⟨_, x, congrArg (fun r => Host.Outcome.next (Run.finish s r)) hrun, ?_, rfl, rfl, rfl, hacc.drives _ rfl rfl,
    (congrArg Chan.poisonQ hacc.chan :), hacc.rooms, ?_⟩
  · exact storesLine_putLine (r := q) (by rw [chan_poisonAccess]; rfl) rfl rfl (congrArg Stores.dram hm :)
      (congrArg Stores.remap hm :)
  · exact (congrArg Stores.tags hm :).trans (congrArg Stores.tags hlines :)

/-- Settles O7: each command makes its one access and is charged for it; what it does besides is read off its equation. -/
theorem cellarCommandsIssueAndReturn : Obligations.CellarCommandsIssueAndReturn :=
  ⟨issuedWriteStoresItsLine, issuedReadIsInFlight, cleanReadAnswersItsRequest, repeatCorrectorRewrites,
    poisonRewriteMarksTheLine⟩

end Sys2Proof.Laws
end

section
/-! SUPPORT. The obligation about the scrubber: clean reads, and slow laps (R262, R264; log entry 67). -/
namespace Sys2Proof.Laws
open Sys2Proof Sys2Proof.Machine Sys2Proof.Safety Sys2Proof.Claim

variable (r : Run)

/-- A line without errors is one that the decoder accepts, when the marked device is within its strength. -/
theorem decode_none {c : Fin 16} {rank : Nat} {line : Line}
    (h : erasures line.md.lcode (r.mark c rank) ≤ paritySyms line.md.lcode) : r.decode c rank line {} = some line := by
  have hclean : line.rawWord {} = metaWord line.md := by
    unfold Line.rawWord flipsOf
    simp
  have hdec : decodes line.md.lcode (r.mark c rank) {} = true := decide_eq_true h
  exact (decode_own line _ hclean).trans (if_pos hdec)

/-- The scrub pointer of a rank and bank group stands at line n. -/
def scrubbed (i : Fin 32) (n : Nat) (y : Chan) : Chan := { y with scrub := y.scrub.set i.val n i.isLt }

/-- The pointer of a rank and bank group, by its number. -/
abbrev scrubPtr (rank : Fin 4) (bg : Fin 8) : Fin 32 := ⟨rank.val * 8 + bg.val, by omega⟩

/-- A scrub read has moved its pointer to n, driven its commands, taken its line back and been charged. -/
def scrubbedRead (c : Fin 16) (i : Fin 32) (n idx : Nat) : Run :=
  ((((r.grant (160 + c.val)).modChan c (scrubbed i n)).ddr c false idx).lineBack c).charge 0 .cellar 1 r.ftNs

theorem mark_scrubbedRead (c : Fin 16) (i : Fin 32) (n idx : Nat) (rank : Fin 4) :
    (scrubbedRead r c i n idx).mark c rank = r.mark c rank :=
  ((readsAlike_ddr _ idx).trans (readsAlike_charge _ _ _ _ _)).mark rank.val rank.isLt

theorem scrub_clean {c : Fin 16} {rank : Fin 4} {bg : Fin 8} {n idx : Nat} {line : Line}
    (hn : (r.c.chans[c]).scrub[scrubPtr rank bg] = n) (hidx : (r.c.chans[c]).nthLine rank bg n = idx)
    (hline : r.line c idx = line) (hruns : r.scrubRuns = true) (hlost : r.lostChan c = false)
    (hleft : (r.c.chans[c]).scrubDone.getLsbD (rank.val * 8 + bg.val) = false) (hidle : r.idleRead c rank bg = true)
    (hrank : rank.val < 2 ^ (r.c.chans[c]).rankBits) (hresil : r.resilFits c = false) (hbusy : r.lineBusy c idx = false)
    (hstate : line.md.state ≠ 3) (hmark : erasures line.md.lcode (r.mark c rank) ≤ paritySyms line.md.lcode)
    (hmore : n + 1 < r.scrubLines c) : r.scrub c rank bg {} = scrubbedRead r c (scrubPtr rank bg) (n + 1) idx := by
  let g := r.grant (160 + c.val)
  have hn' : (g.c.chans[c]).scrub[scrubPtr rank bg] = n := hn
  have hidx' : (g.c.chans[c]).nthLine rank bg n = idx := hidx
  have hline' : g.line c idx = line := hline
  have hmore' : decide (g.scrubLines c ≤ n + 1) = false := decide_eq_false (Nat.not_le.mpr hmore)
  have hmark' := hmark
  rw [← mark_scrubbedRead r c (scrubPtr rank bg) (n + 1) idx rank] at hmark'
  unfold Run.scrub Run.chan
  dsimp only
  rw [hn, hidx, hruns, hlost, hleft, hidle, hresil, hbusy, decide_eq_false (Nat.not_le.mpr hrank), if_neg (by decide), hn', hidx',
    hmore', errOf_none, hline', if_neg (by decide), decode_none]
  · dsimp only
    rw [if_neg hstate, badSyms_none]
    rfl
  · exact hmark'

/-- The line of a read has come out of its channel's crossing. -/
def readBack (s : State) (c : Fin 16) : State := { s with c := { s.c with xings := tookFrom s (.celRead c) 3 } }

theorem scrubbedRead_accessed (s : State) (c : Fin 16) (i : Fin 32) (n idx : Nat) :
    Accessed (readBack s c) c 0xFF false idx (scrubbed i n s.c.chans[c]) s.m (scrubbedRead (Run.start s) c i n idx) := by
  unfold scrubbedRead
  rw [access_eq c 0xFF false idx (scrubbed i n) ⟨rfl, rfl, rfl⟩]
  exact accessed_of_metered (s := readBack s c) (log := []) rfl (metered_charge _ _ _ _ _)

/-- A lap that has lasted too long is reported, and marked as reported. -/
theorem slowLap_late (hruns : r.scrubRuns = true) (hslow : r.c.scrubSlow = false)
    (hlate : r.reg 0x60104 * 1000 < (r.c.now - r.c.scrubStart) / msec 1) :
    r.slowLap = ({ r with c := { r.c with scrubSlow := true } } : Run).sysEvent 47 Code.scrubSlow := by
  unfold Run.slowLap Run.now
  rw [hruns, hslow, decide_eq_true hlate]
  rfl

/-- Settles O29: the decoder accepts a line without errors, so the read counts nothing and its pointer moves on; and a lap that
lasts too long finds its event unmasked. -/
theorem scrubReadsTheNextLine : Obligations.ScrubReadsTheNextLine := by
  refine ⟨?_, ?_⟩
  · intro s c rank bg r i x idx line hruns hlost hleft hidle hrank hresil hbusy hstate hmark hmore
    have hrun := scrub_clean r rfl rfl rfl hruns hlost hleft hidle hrank hresil hbusy hstate hmark hmore
    have hacc := scrubbedRead_accessed s c i (x.scrub[i] + 1) idx
    exact ⟨_, congrArg (fun r => Host.Outcome.next (Run.finish s r)) hrun, hacc.chan, hacc.out, hacc.xings, hacc.rooms,
      hacc.fbx, hacc.keepsCells rfl (finish_m_of_faithful s _ hacc.faith)⟩
  · intro s r hruns hslow hlate
    have hrun := (slowLap_late r hruns hslow hlate).trans (sysEvent_open _ (by decide))
    exact ⟨_, congrArg (fun r => Host.Outcome.next (Run.finish s r)) hrun, rfl, _, rfl, rfl, rfl⟩

end Sys2Proof.Laws
end

section
/-! SUPPORT. What the shared operations of a Door do, each said once: updates of one Door, its events, its counts, its receive
crossing, the ACK field, and the check whether every Door has its route. -/
namespace Sys2Proof.Laws
open Sys2Proof Sys2Proof.Machine Sys2Proof.Safety

variable (r : Run)

/-! ## Updates of one Door -/

theorem modDoor_modDoor (d : Fin 8) (f g : Door → Door) : (r.modDoor d f).modDoor d g = r.modDoor d fun x => g (f x) := by
  simp [Run.modDoor, Run.setDoor, Run.door]

theorem modDoor_congr (d : Fin 8) {f g : Door → Door} (h : f r.c.doors[d] = g r.c.doors[d]) : r.modDoor d f = r.modDoor d g :=
  congrArg (r.setDoor d) h

/-! ## When a Door exchanges frames -/

theorem doorRuns_iff {d : Fin 8} : r.doorRuns d = true ↔ (r.door d).trained = true ∧ (r.door d).training = false ∧
    (r.door d).quick = false ∧ r.fenced (unitDoor d) = false ∧ r.mode.fabric = true := by
  simp [Run.doorRuns, and_assoc]

/-- What comes in on a link that exchanges frames comes out of its receive crossing (R489). -/
theorem doorTook_runs {d : Fin 8} (h : r.doorRuns d = true) : r.doorTook d = r.took (.doorRx d) 1 :=
  if_pos (by rw [h]; rfl)

theorem doorTook_links {d : Fin 8} (h : r.doorLinks d = true) : r.doorTook d = r.took (.doorRx d) 1 :=
  if_pos (by rw [h, Bool.or_true])

/-! ## Events and counts of a Door -/

theorem evUnit_door (d : Fin 8) : evUnit (28 + d.val) 0 = some (unitDoor d) := by
  unfold evUnit unitDoor
  rw [if_neg (by omega), if_neg (by omega), if_neg (by omega), if_pos (by omega), Nat.add_sub_cancel_left]

/-- An event of a Door that is not fenced is reported. -/
theorem dorEvent_open {d : Fin 8} (code key cause : Nat) (path : List UnitNo) (h : r.fenced (unitDoor d) = false) :
    ∃ e : Event, r.dorEvent d code key cause path = withEvent r e ∧ e.code = code ∧ e.src = 28 + d.val := by
  refine ⟨_, report_open r _ fun u hu => ?_, rfl, rfl⟩
  obtain rfl : unitDoor d = u := Option.some.inj ((evUnit_door d).symm.trans hu)
  exact h

/-- The counts of replays and of frames with a wrong CRC take a whole word and reset to 0 (R289, R298). -/
theorem replayCount_whole (d : Fin 8) : regMask (dorBase d + 0x20) = 0xFFFFFFFF ∧ regReset (dorBase d + 0x20) = 0 := by
  revert d
  decide +kernel

theorem crcCount_whole (d : Fin 8) : regMask (dorBase d + 0x24) = 0xFFFFFFFF ∧ regReset (dorBase d + 0x24) = 0 := by
  revert d
  decide +kernel

/-! ## The ACK field, and RTE_STATUS.ROUTED -/

/-- The frames still kept once all up to SEQ `ack` are acknowledged: those from the mark on (R296). -/
def keptPast (ks : List Kept) (ack : BitVec 10) : List Kept :=
  keptFrom (match ks.findIdx? fun k => k.seq = ack with
    | some i => ks.zipIdx.map fun (k : Kept × Nat) => if k.2 ≤ i then { k.1 with acked := true } else k.1
    | none => ks)

/-- The Door once it has taken an ACK field and the XOFF bits with it (R296, R300). -/
def Door.ackTaken (now : Nat) (h : LinkHdr) (x : Door) : Door :=
  let left := keptPast x.kept h.ack
  let moved := decide (left.length < x.kept.length)
  { x with kept := left, txXoff := h.xoff, replay := x.replay.filter fun s => left.any fun k => k.seq = s,
           markAt := if moved then now else x.markAt, fails := if moved then 0 else x.fails,
           replaying := x.replaying && !moved }

theorem takeAck_door (d : Fin 8) (h : LinkHdr) : r.takeAck d h = r.modDoor d (Door.ackTaken r.now h) := rfl

theorem routedCheck_fab : ∃ routed, r.routedCheck = r.modFab fun x => { x with routed := routed } := by
  unfold Run.routedCheck
  split
  · exact ⟨true, rfl⟩
  · exact ⟨r.c.fab.routed, rfl⟩

/-- With no message that waits for a route, none is sent (R308). -/
theorem flushWaiting_none (h : r.c.fab.waiting = []) : r.flushWaiting = r := by
  have hnone : (r.modFab fun x => { x with waiting := [] }) = r := by
    show (⟨{ r.c with fab := { r.c.fab with waiting := [] } }, r.m, r.log⟩ : Run) = r
    rw [← h]
  unfold Run.flushWaiting
  rw [h, hnone]
  rfl

end Sys2Proof.Laws
end

section
/-! SUPPORT. The obligation about link trouble and training (R287, R288, R298, R299). -/
namespace Sys2Proof.Laws
open Sys2Proof Sys2Proof.Machine Sys2Proof.Safety Sys2Proof.Claim

variable (r : Run)

/-! ## Quick retrains -/

/-- The Door as a quick retrain finds it (R288). -/
def Door.quickened (x : Door) : Door := { x with quick := true, replaying := false, replay := [] }

theorem door_quickTrain (d : Fin 8) : (r.quickTrain d).c.doors[d] = Door.quickened r.c.doors[d] :=
  door_modDoor_self r d Door.quickened

/-- A command that counts once, and does nothing else to the stores, touches no cell. -/
theorem keepsCells_counted (s : State) {r : Run} (a n : Nat) (h : r.log = []) :
    keepsCells s (Run.finish s (r.count32 a n)) := by
  refine keepsCells_of_log s _ fun o ho => ?_
  rw [count32_m, setReg_log, h] at ho
  exact List.mem_singleton.mp ho ▸ rfl

/-- Frames that have been out too long are reported, and the link retrains (R299). -/
theorem ackTimeout_late {d : Fin 8} (hruns : r.doorRuns d = true) (hup : (r.door d).up = true)
    (hkept : (r.door d).kept ≠ []) (hreplaying : (r.door d).replaying = false)
    (hlate : (r.door d).markAt + usec (r.fld (dorBase d + 0xC) 9 0) ≤ r.now) :
    ∃ e : Event, r.ackTimeout d = (withEvent r e).quickTrain d ∧ e.code = Code.ackTimeout ∧ e.src = 28 + d.val := by
  obtain ⟨-, -, -, hfence, -⟩ := (doorRuns_iff r).mp hruns
  obtain ⟨e, hlogged, hcode, hsrc⟩ :=
    dorEvent_open r Code.ackTimeout 0 4 [unitDoor d, unitHouse (r.door d).farId] hfence
  refine ⟨e, ?_, hcode, hsrc⟩
  rw [← hlogged]
  exact if_pos (by simp [hruns, hup, hkept, hreplaying, hlate])

theorem ackTimeoutRetrains (s : State) (d : Fin 8) (hruns : (Run.start s).doorRuns d = true) (hup : (s.c.doors[d]).up = true)
    (hkept : (s.c.doors[d]).kept ≠ []) (hreplaying : (s.c.doors[d]).replaying = false)
    (hlate : (s.c.doors[d]).markAt + usec ((Run.start s).fld (dorBase d + 0xC) 9 0) ≤ s.c.now) :
    ∃ t, exec (.ackTimeout d) s = .next t ∧ t.c.doors[d] = Door.quickened s.c.doors[d] ∧
      reportedIn s t Code.ackTimeout (28 + d.val) ∧ t.c.rooms = s.c.rooms ∧ t.c.fab = s.c.fab ∧ keepsCells s t := by
  obtain ⟨e, hdone, hcode, hsrc⟩ := ackTimeout_late (Run.start s) hruns hup hkept hreplaying hlate
  exact ⟨_, congrArg (fun r => Host.Outcome.next (Run.finish s r)) hdone, door_quickTrain (withEvent (Run.start s) e) d,
    ⟨e, rfl, hcode, hsrc⟩, rfl, rfl, keepsCells_counted s _ _ rfl⟩

/-! ## Replays that do not end -/

/-- The Door once a replay has not ended in time (R298). -/
def replayFailed (d : Fin 8) : Run := r.modDoor d fun x => { x with fails := x.fails + 1, replaying := false }

theorem door_replayFailed (d : Fin 8) : (replayFailed r d).c.doors[d] =
    { r.c.doors[d] with fails := (r.c.doors[d]).fails + 1, replaying := false } := door_modDoor_self r d _

theorem replayFail_late {d : Fin 8} (hruns : r.doorRuns d = true) (hreplaying : (r.door d).replaying = true)
    (hlate : (r.door d).replayAt + usec (r.fld (dorBase d + 0xC) 9 0) ≤ r.now) : r.replayFail d =
      if 3 ≤ (r.door d).fails + 1 then (replayFailed r d).doorFail d else (replayFailed r d).quickTrain d :=
  if_pos (by simp [hruns, hreplaying, hlate])

/-- A Door that is not fenced fails with DOOR_FAIL, which may be what the routes had waited for (R307, R318). -/
theorem doorFail_open {d : Fin 8} (hfence : r.fenced (unitDoor d) = false) : ∃ (e : Event) (routed : Bool),
    r.doorFail d = ((withEvent (r.modDoor d fun x => { x with failed := true }) e).modFab
        fun x => { x with routed := routed }) ∧
      e.code = Code.doorFail ∧ e.src = 28 + d.val := by
  obtain ⟨e, hlogged, hcode, hsrc⟩ :=
    dorEvent_open (r.modDoor d fun x => { x with failed := true }) Code.doorFail 0 7 [] hfence
  obtain ⟨routed, hrouted⟩ := routedCheck_fab (withEvent (r.modDoor d fun x => { x with failed := true }) e)
  refine ⟨e, routed, ?_, hcode, hsrc⟩
  unfold Run.doorFail
  rw [hlogged, hrouted]

theorem replayFailRetrainsOrFails (s : State) (d : Fin 8) (hruns : (Run.start s).doorRuns d = true)
    (hreplaying : (s.c.doors[d]).replaying = true)
    (hlate : (s.c.doors[d]).replayAt + usec ((Run.start s).fld (dorBase d + 0xC) 9 0) ≤ s.c.now) :
    ∃ t, exec (.replayFail d) s = .next t ∧ (t.c.doors[d]).fails = (s.c.doors[d]).fails + 1 ∧
      ((s.c.doors[d]).fails < 2 → (t.c.doors[d]).quick = true ∧ (t.c.doors[d]).replay = [] ∧ t.c.fbx = s.c.fbx) ∧
      (2 ≤ (s.c.doors[d]).fails → (t.c.doors[d]).failed = true ∧ reportedIn s t Code.doorFail (28 + d.val)) ∧
      t.c.rooms = s.c.rooms ∧ keepsCells s t := by
  have hdone := replayFail_late (Run.start s) hruns hreplaying hlate
  have hfails := congrArg Door.fails (door_replayFailed (Run.start s) d)
  rcases Nat.lt_or_ge (s.c.doors[d]).fails 2 with hfew | hmany
  · rw [if_neg (show ¬3 ≤ ((Run.start s).door d).fails + 1 from fun h =>
      absurd (Nat.le_of_succ_le_succ h) (Nat.not_le.mpr hfew))] at hdone
    have hdoor := door_quickTrain (replayFailed (Run.start s) d) d
    exact ⟨_, congrArg (fun r => Host.Outcome.next (Run.finish s r)) hdone, (congrArg Door.fails hdoor).trans hfails,
      fun _ => ⟨congrArg Door.quick hdoor, congrArg Door.replay hdoor, rfl⟩, fun h => absurd h (Nat.not_le.mpr hfew), rfl,
      keepsCells_counted s _ _ rfl⟩
  · rw [if_pos (show 3 ≤ ((Run.start s).door d).fails + 1 from Nat.succ_le_succ hmany)] at hdone
    obtain ⟨-, -, -, hfence, -⟩ := (doorRuns_iff (Run.start s)).mp hruns
    obtain ⟨e, routed, hfailed, hcode, hsrc⟩ := doorFail_open (replayFailed (Run.start s) d) hfence
    have hdoor := door_modDoor_self (replayFailed (Run.start s) d) d fun x => { x with failed := true }
    exact ⟨_, congrArg (fun r => Host.Outcome.next (Run.finish s r)) (hdone.trans hfailed),
      (congrArg Door.fails hdoor).trans hfails, fun h => absurd hmany (Nat.not_le.mpr h),
      fun _ => ⟨congrArg Door.failed hdoor, e, rfl, hcode, hsrc⟩, rfl,
      keepsCells_of_log s _ fun o ho => absurd ho List.not_mem_nil⟩

/-! ## A lost lane -/

/-- The Door with the bad lane, about to go on with the other half (R287). -/
def laneDropped (d lane : Fin 8) : Run :=
  r.modDoor d fun x => { x with laneBad := x.laneBad ||| (1#8 <<< lane.val), degrade := true }

theorem laneFail_degrades {d lane : Fin 8} (htrained : (r.door d).trained = true)
    (hfence : r.fenced (unitDoor d) = false) (hmode : r.mode.fabric = true)
    (hhalf : bothBad ((r.door d).laneBad ||| (1#8 <<< lane.val)) = false) :
    r.laneFail d lane = (laneDropped r d lane).quickTrain d := by
  have hlost : r.laneFail d lane = r.laneLost d lane := if_pos (by simp [htrained, hfence, hmode])
  rw [hlost]
  refine (if_neg (ne_true_of_eq_false hhalf)).trans (congrArg (Run.quickTrain · d) ?_)
  exact modDoor_modDoor r d _ _

theorem laneFailRetrains (s : State) (d lane : Fin 8) (htrained : (s.c.doors[d]).trained = true)
    (hfence : (Run.start s).fenced (unitDoor d) = false) (hmode : (Run.start s).mode.fabric = true)
    (hhalf : bothBad ((s.c.doors[d]).laneBad ||| (1#8 <<< lane.val)) = false) :
    ∃ t, exec (.laneFail d lane) s = .next t ∧
      t.c.doors[d] = { s.c.doors[d] with laneBad := (s.c.doors[d]).laneBad ||| (1#8 <<< lane.val), degrade := true,
                                         quick := true, replaying := false, replay := [] } ∧
      t.c.rooms = s.c.rooms ∧ t.c.fab = s.c.fab ∧ t.c.fbx = s.c.fbx ∧ keepsCells s t := by
  have hdone := laneFail_degrades (Run.start s) htrained hfence hmode hhalf
  have hdropped : (laneDropped (Run.start s) d lane).c.doors[d] =
      { s.c.doors[d] with laneBad := (s.c.doors[d]).laneBad ||| (1#8 <<< lane.val), degrade := true } :=
    door_modDoor_self (Run.start s) d _
  exact ⟨_, congrArg (fun r => Host.Outcome.next (Run.finish s r)) hdone,
    (door_quickTrain (laneDropped (Run.start s) d lane) d).trans (congrArg Door.quickened hdropped), rfl, rfl, rfl,
    keepsCells_counted s _ _ rfl⟩

/-! ## Trainings end -/

/-- The Door after a full training at full width. -/
def Door.trainedWide (now : Nat) (x : Door) : Door :=
  { x with training := false, beaconAt := now, trained := true, half := false, lset := false, laneBad := 0 }

theorem trainDone_wide {d : Fin 8} (htraining : (r.door d).training = true) (hjtag : r.c.jtag = .none)
    (hwide : r.bit (dorBase d + 4) 2 = true) : r.trainDone d .full = r.modDoor d (Door.trainedWide r.now) :=
  calc r.trainDone d .full
      = if r.bit (dorBase d + 4) 2 then _ else _ := if_neg (by simp [htraining, hjtag])
    _ = _ := if_pos hwide
    _ = r.modDoor d (Door.trainedWide r.now) := modDoor_modDoor r d _ _

/-- The Door after a quick retrain at the width it had: it replays from the mark. -/
def Door.retrainedQuick (now : Nat) (x : Door) : Door :=
  { x with quick := false, degrade := false, trained := true, replay := x.kept.map (·.seq), replayAt := now,
           replaying := decide (0 < x.kept.length) }

theorem quickEnd_replays {d : Fin 8} (hquick : (r.door d).quick = true) (hdegrade : (r.door d).degrade = false) :
    r.quickEnd d true = (r.modDoor d (Door.retrainedQuick r.now)).count32 (dorBase d + 0x20) 1 := by
  unfold Run.quickEnd
  refine (if_neg (by simp [hquick])).trans ((if_neg (by decide)).trans ?_)
  rw [if_neg (ne_true_of_eq_false hdegrade)]
  unfold Run.rewind
  refine congrArg (Run.count32 · _ _) ((modDoor_modDoor r d _ _).trans (modDoor_congr r d ?_))
  simp only [Bool.and_true, List.drop_zero]
  rfl

theorem trainingEnds : TrainingEnds := by
  constructor
  · intro s d x htraining hjtag hwide
    have hdone := trainDone_wide (Run.start s) htraining hjtag hwide
    exact ⟨_, congrArg (fun r => Host.Outcome.next (Run.finish s r)) hdone, rfl,
      door_modDoor_self (Run.start s) d (Door.trainedWide s.c.now)⟩
  · intro s d x hquick hdegrade
    have hdone := quickEnd_replays (Run.start s) hquick hdegrade
    exact ⟨_, congrArg (fun r => Host.Outcome.next (Run.finish s r)) hdone,
      door_modDoor_self (Run.start s) d (Door.retrainedQuick s.c.now), rfl, rfl, rfl, keepsCells_counted s _ _ rfl⟩

/-- Settles O26: each trouble of a link reaches the one retraining, or fails the Door, and a training ends in its Door's new
width, or in a replay from the mark. -/
theorem linkTroubleAndTraining : Obligations.LinkTroubleAndTraining :=
  ⟨⟨ackTimeoutRetrains, replayFailRetrainsOrFails, laneFailRetrains⟩, trainingEnds⟩

end Sys2Proof.Laws
end

section
/-! SUPPORT. The obligation about frames that leave in their slots (R289, R295, R296, R305, R306, R309). -/
namespace Sys2Proof.Laws
open Sys2Proof Sys2Proof.Machine Sys2Proof.Safety Sys2Proof.Claim

variable (r : Run)

/-- The frame on an unencrypted link as Door d numbers it next (R289, R297). -/
def clearWire (d : Fin 8) (f : TxFrame) : Frame :=
  mkFrame (mkHdr f.cls (r.txKsel d) f.pos (r.door d).nextSeq (r.door d).lastAcc f.abort (r.rxXoff d)) f.bytes 0

/-- The frame as the Door keeps it for replay (R296). -/
def keptFrame (d : Fin 8) (f : TxFrame) : Kept := { seq := (r.door d).nextSeq, f := f, wire := clearWire r d f }

/-- The Door once its frame `k.f` has left for the first time, on key slot `i`, in core cycle `cc`. -/
def Door.sent (now cc : Nat) (i : Fin 2) (k : Kept) (x : Door) : Door :=
  let ends := k.f.pos = 0 || k.f.pos = 3
  { x with txq := x.txq.eraseP fun y => y = k.f,
           midTx := (x.midTx.filter fun y => y.1 ≠ k.f.cls) ++ (if ends then [] else [(k.f.cls, k.f.via)]),
           kept := x.kept ++ [k], nextSeq := x.nextSeq + 1,
           txCnt := x.txCnt.set i.val (x.txCnt[i] + 1) i.isLt, markAt := if x.kept.isEmpty then now else x.markAt,
           freeCc := cc + (if x.half then 2 else 1) }

/-- The frame's slot is taken, and it has left for the first time, on a link in the clear. -/
def sentClear (d : Fin 8) (f : TxFrame) : Run :=
  ((r.grant (176 + d.val) f.code).modDoor d
    (Door.sent r.now r.c.cc (Fin.boolIdx (r.txKsel d)) (keptFrame r d f))).toLink d (clearWire r d f)

theorem sentClear_frame (d : Fin 8) (f : TxFrame) : (sentClear r d f).c.rooms = r.c.rooms ∧
    (sentClear r d f).c.hall = r.c.hall ∧ (sentClear r d f).c.wait = r.c.wait ∧ (sentClear r d f).c.fly = r.c.fly ∧
    (sentClear r d f).c.fab = r.c.fab ∧ (sentClear r d f).log = r.log := by
  simp [sentClear, Run.toLink]

theorem door_sentClear (d : Fin 8) (f : TxFrame) : (sentClear r d f).c.doors[d] =
    Door.sent r.now r.c.cc (Fin.boolIdx (r.txKsel d)) (keptFrame r d f) r.c.doors[d] := by
  unfold sentClear Run.toLink
  rw [modOut_doors, cross_c]
  exact door_modDoor_self (r.grant (176 + d.val) f.code) d _

/-- On an unencrypted link a frame leaves as it is, with a tag of 0 (R289). -/
theorem sendSeq_clear {d : Fin 8} (f : TxFrame) (h : r.secOn d = false) :
    (r.grant (176 + d.val) f.code).sendSeq d f = sentClear r d f := by
  have hclear : (r.grant (176 + d.val) f.code).secOn d = false := h
  unfold Run.sendSeq
  simp only [hclear]
  rfl

/-- In a frame slot with nothing more urgent, the frame that the slot grants leaves (R286, R295). -/
theorem frameStart_grants {d : Fin 8} {cls : Nat} {f : TxFrame} (hlinks : r.doorLinks d = true) (hslot : r.frameSlot d = true)
    (hrun : r.c.tt.run = true) (hnak : (r.door d).nakDue = false) (hbeacon : (r.door d).beaconNow = false)
    (hreplay : (r.door d).replay = []) (hframe : r.slotFrame d cls = some f) (hseq : seqFrame cls = true) :
    r.frameStart d cls = (r.grant (176 + d.val) f.code).sendSeq d f := by
  have hover : r.beaconOver d = false := by
    unfold Run.beaconOver
    rw [hbeacon, Bool.false_and]
  unfold Run.frameStart
  dsimp only
  rw [if_neg (by simp [hlinks, hslot]), if_neg (ne_true_of_eq_false hnak), if_neg (ne_true_of_eq_false hover), hreplay, hframe]
  dsimp only
  rw [if_pos hseq, if_pos hrun]

/-- A BEACON that is due waits for its slot while this one is taken (R305, R306). -/
theorem beaconDue_waits {d : Fin 8} (hlinks : r.doorLinks d = true) (hfresh : (r.door d).beaconNow = false)
    (htaken : r.slotUnused d = false)
    (hdue : (r.door d).beaconAt + (if r.mode = .join then usec 10 else usec 100) ≤ r.now) :
    r.beaconDue d = r.modDoor d fun x => { x with beaconNow := true, beaconAt := r.now } := by
  have hstill : ∀ f : Door → Door, (r.modDoor d f).slotUnused d = false := fun _ => htaken
  unfold Run.beaconDue
  dsimp only
  rw [if_pos (by simp [hlinks, hfresh, hdue]), hstill]
  rfl

/-- Settles O25: what the slot grants leaves in the clear and is kept, and a BEACON that is due waits for its slot. -/
theorem framesLeaveInTheirSlots : Obligations.FramesLeaveInTheirSlots := by
  constructor
  · intro s d cls f r x wire hlinks hslot hrun hnak hbeacon hreplay hsec hframe hseq
    have hdone := (frameStart_grants r hlinks hslot hrun hnak hbeacon hreplay hframe hseq).trans
      (sendSeq_clear r f hsec)
    have hdoor := door_sentClear r d f
    obtain ⟨hrooms, hhall, hwait, hfly, hfab, hlog⟩ := sentClear_frame r d f
    exact ⟨_, keptFrame r d f, congrArg (fun r => Host.Outcome.next (Run.finish s r)) hdone, rfl, rfl,
      congrArg Door.kept hdoor, rfl, rfl, rfl, rfl, congrArg Door.nextSeq hdoor, congrArg Door.txq hdoor, rfl, hrooms,
      ⟨hhall, hwait, hfly⟩, hfab, finish_m_nil s _ hlog⟩
  · intro s d r x hlinks hfresh htaken hdue
    have hdone := beaconDue_waits r hlinks hfresh htaken hdue
    exact ⟨_, congrArg (fun r => Host.Outcome.next (Run.finish s r)) hdone, rfl,
      door_modDoor_self r d fun x => { x with beaconNow := true, beaconAt := r.now }⟩

end Sys2Proof.Laws
end

section
/-! SUPPORT. The obligation about IDLE, NAK and BEACON (R296, R298, R306, R307). -/
namespace Sys2Proof.Laws
open Sys2Proof Sys2Proof.Machine Sys2Proof.Safety Sys2Proof.Claim

variable (r : Run)

/-! ## The only kept frame (R296) -/

/-- A frame that is a whole message is kept until it is acknowledged. -/
theorem keptFrom_single {k : Kept} (hpos : k.f.pos = 0) : keptFrom [k] = if k.acked then [] else [k] := by
  have hlast : keptLast [k] 0 = some k := by simp [keptLast, hpos]
  cases hacked : k.acked <;> simp [keptFrom, List.range_succ, hlast, hacked]

theorem keptPast_named {k : Kept} {ack : BitVec 10} (hpos : k.f.pos = 0) (hseq : k.seq = ack) : keptPast [k] ack = [] := by
  have hnamed : keptPast [k] ack = keptFrom [{ k with acked := true }] := by simp [keptPast, hseq]
  rw [hnamed, keptFrom_single (k := { k with acked := true }) hpos]
  rfl

theorem keptPast_other {k : Kept} {ack : BitVec 10} (hpos : k.f.pos = 0) (hseq : k.seq ≠ ack) (hacked : k.acked = false) :
    keptPast [k] ack = [k] := by
  have hother : keptPast [k] ack = keptFrom [k] := by simp [keptPast, hseq]
  rw [hother, keptFrom_single hpos, if_neg (ne_true_of_eq_false hacked)]

/-! ## IDLE -/

theorem idleFreesTheFrame (s : State) (d : Fin 8) (h : LinkHdr) (k : Kept) (hruns : (Run.start s).doorRuns d = true)
    (hkept : (s.c.doors[d]).kept = [k]) (hpos : k.f.pos = 0) (hseq : k.seq = h.ack) :
    ∃ t, exec (.idle d h) s = .next t ∧
      t = { s with c := { s.c with doors := t.c.doors, xings := tookFrom s (.doorRx d) 1 } } ∧ (t.c.doors[d]).kept = [] ∧
      (t.c.doors[d]).txXoff = h.xoff ∧ (t.c.doors[d]).markAt = s.c.now ∧ (t.c.doors[d]).fails = 0 := by
  have hdone : (((Run.start s).doorTook d).when ((Run.start s).doorRuns d) fun r => r.takeAck d h) =
      ((Run.start s).took (.doorRx d) 1).modDoor d (Door.ackTaken s.c.now h) := by
    rw [doorTook_runs _ hruns, hruns]
    rfl
  have hdoor := door_modDoor_self ((Run.start s).took (.doorRx d) 1) d (Door.ackTaken s.c.now h)
  have hleft : keptPast (s.c.doors[d]).kept h.ack = [] := by rw [hkept, keptPast_named hpos hseq]
  have hmoved : decide ((keptPast (s.c.doors[d]).kept h.ack).length < (s.c.doors[d]).kept.length) = true := by
    rw [hleft, hkept]
    rfl
  exact ⟨_, congrArg (fun r => Host.Outcome.next (Run.finish s r)) hdone, rfl, (congrArg Door.kept hdoor).trans hleft,
    congrArg Door.txXoff hdoor, (congrArg Door.markAt hdoor).trans (if_pos hmoved),
    (congrArg Door.fails hdoor).trans (if_pos hmoved)⟩

/-! ## NAK -/

/-- The Door that sends its kept frames again from the i-th on (R298). -/
def Door.rewound (now i : Nat) (x : Door) : Door :=
  { x with replay := (x.kept.drop i).map (·.seq), replayAt := now, replaying := decide (i < x.kept.length) }

/-- A NAK that names a kept frame, the `i`-th that its ACK field has left. -/
theorem nakIn_named {d : Fin 8} {h : LinkHdr} {n : BitVec 10} {i : Nat} (hruns : r.doorRuns d = true)
    (hnext : (r.door d).nextSeq ≠ n) (hnamed : (keptPast (r.door d).kept h.ack).findIdx? (fun k => k.seq = n) = some i) :
    r.nakIn d h n = (r.modDoor d fun x => Door.rewound r.now i (Door.ackTaken r.now h x)).count32 (dorBase d + 0x20) 1 := by
  have hdoor : (r.takeAck d h).door d = Door.ackTaken r.now h (r.door d) := door_modDoor_self r d (Door.ackTaken r.now h)
  unfold Run.nakIn
  rw [if_neg (by simp [hruns])]
  dsimp only
  rw [hdoor, if_neg (show ¬n = (Door.ackTaken r.now h (r.door d)).nextSeq from fun e => hnext e.symm),
    show (Door.ackTaken r.now h (r.door d)).kept = keptPast (r.door d).kept h.ack from rfl, hnamed]
  exact congrArg (Run.count32 · _ _) (modDoor_modDoor r d (Door.ackTaken r.now h) (Door.rewound r.now i))

theorem nakSendsAgain (s : State) (d : Fin 8) (h : LinkHdr) (n : BitVec 10) (k : Kept)
    (hruns : (Run.start s).doorRuns d = true) (hkept : (s.c.doors[d]).kept = [k]) (hpos : k.f.pos = 0) (hseq : k.seq = n)
    (hacked : k.acked = false) (hother : k.seq ≠ h.ack) (hnext : (s.c.doors[d]).nextSeq ≠ n) :
    ∃ t, exec (.nak d h n) s = .next t ∧ (t.c.doors[d]).kept = [k] ∧ (t.c.doors[d]).replay = [n] ∧
      (t.c.doors[d]).replaying = true ∧ (t.c.doors[d]).txXoff = h.xoff ∧
      (t.m.reg (dorBase d + 0x20)).toNat = min 0xFFFFFFFF ((Run.start s).reg (dorBase d + 0x20) + 1) ∧
      t.c.xings = tookFrom s (.doorRx d) 1 ∧ t.c.fab = s.c.fab ∧ t.c.rooms = s.c.rooms ∧ keepsHall s t ∧
      keepsCells s t := by
  let taken := (Run.start s).took (.doorRx d) 1
  have hleft : keptPast (s.c.doors[d]).kept h.ack = [k] := by rw [hkept, keptPast_other hpos hother hacked]
  have hdone : ((Run.start s).doorTook d).nakIn d h n =
      (taken.modDoor d fun x => Door.rewound s.c.now 0 (Door.ackTaken s.c.now h x)).count32 (dorBase d + 0x20) 1 := by
    rw [doorTook_runs _ hruns]
    refine nakIn_named taken hruns hnext ?_
    rw [show (taken.door d).kept = (s.c.doors[d]).kept from rfl, hleft]
    simp [hseq]
  have hdoor := door_modDoor_self taken d fun x => Door.rewound s.c.now 0 (Door.ackTaken s.c.now h x)
  obtain ⟨hmask, hreset⟩ := replayCount_whole d
  refine ⟨_, congrArg (fun r => Host.Outcome.next (Run.finish s r)) hdone, (congrArg Door.kept hdoor).trans hleft, ?_, ?_,
    congrArg Door.txXoff hdoor, reg_count32_whole _ hmask hreset, rfl, by simp [taken], by simp [taken],
    by simp [keepsHall, taken], keepsCells_counted s _ _ rfl⟩
  · refine (congrArg Door.replay hdoor).trans ?_
    show ((keptPast (s.c.doors[d]).kept h.ack).drop 0).map (·.seq) = [n]
    rw [hleft, ← hseq]
    rfl
  · refine (congrArg Door.replaying hdoor).trans ?_
    show decide (0 < (keptPast (s.c.doors[d]).kept h.ack).length) = true
    rw [hleft]
    rfl

/-! ## BEACON -/

/-- The BEACON is from the Door that this one is cabled to, of a House of the same pool other than this one (R307). -/
def rightBeacon (d : Fin 8) (b : Beacon) : Bool :=
  let ex := r.reg (dorBase d + 8)
  ex.testBit 15 && b.id.toNat = bitsOf ex 5 0 && b.door.toNat = bitsOf ex 10 8 && b.id ≠ r.myId &&
    b.pool.toNat = r.reg 0x190118

/-- The Door once it has taken a BEACON's header and noted who sent it. -/
def Door.beaconed (now : Nat) (h : LinkHdr) (b : Beacon) (x : Door) : Door :=
  { Door.ackTaken now h x with farId := b.id, farDoor := b.door, farV := b.idValid }

def beaconed (d : Fin 8) (h : LinkHdr) (b : Beacon) : Run := r.modDoor d (Door.beaconed r.now h b)

theorem door_beaconed (d : Fin 8) (h : LinkHdr) (b : Beacon) :
    (beaconed r d h b).door d = Door.beaconed r.now h b (r.door d) := door_modDoor_self r d (Door.beaconed r.now h b)

/-- A BEACON on a Door that is down and has met no wrong Door yet. -/
theorem beaconIn_down {d : Fin 8} (h : LinkHdr) (b : Beacon) (hlinks : r.doorLinks d = true) (hup : (r.door d).up = false)
    (hmismatch : (r.door d).mismatch = false) : r.beaconIn d h b =
      if !(rightBeacon r d b) then
        (((beaconed r d h b).modDoor d fun x => { x with mismatch := true }).dorEvent d Code.cableMismatch).routedCheck
      else if b.echoValid && b.echoId = r.myId && b.echoDoor.toNat = d.val then
        (((beaconed r d h b).modDoor d fun x => { x with up := true }).routedCheck).flushWaiting
      else beaconed r d h b := by
  have hnoted : ((r.takeAck d h).modDoor d fun x => { x with farId := b.id, farDoor := b.door, farV := b.idValid }) =
      beaconed r d h b := modDoor_modDoor r d (Door.ackTaken r.now h) _
  have hdown : ¬((beaconed r d h b).door d).up = true := by
    rw [door_beaconed]
    exact ne_true_of_eq_false hup
  have hfresh : ¬((beaconed r d h b).door d).mismatch = true := by
    rw [door_beaconed]
    exact ne_true_of_eq_false hmismatch
  unfold Run.beaconIn
  rw [if_neg (by simp [hlinks])]
  dsimp only
  rw [hnoted, if_neg hdown, if_neg hfresh]
  rfl

/-- The Door comes up, which may be what the routes had waited for (R306). -/
theorem beacon_up {d : Fin 8} {h : LinkHdr} {b : Beacon} (hlinks : r.doorLinks d = true) (hup : (r.door d).up = false)
    (hmismatch : (r.door d).mismatch = false) (hright : rightBeacon r d b = true) (hecho : b.echoValid = true)
    (hid : b.echoId = r.myId) (hdoor : b.echoDoor.toNat = d.val) (hwaiting : r.c.fab.waiting = []) :
    ∃ routed, r.beaconIn d h b =
      ((beaconed r d h b).modDoor d fun x => { x with up := true }).modFab fun x => { x with routed := routed } := by
  obtain ⟨routed, hrouted⟩ := routedCheck_fab ((beaconed r d h b).modDoor d fun x => { x with up := true })
  refine ⟨routed, ?_⟩
  rw [beaconIn_down r h b hlinks hup hmismatch, if_neg (by simp [hright]), if_pos (by simp [hecho, hid, hdoor]), hrouted]
  exact flushWaiting_none _ hwaiting

/-- A BEACON from a wrong Door is CABLE_MISMATCH (R307). -/
theorem beacon_mismatch {d : Fin 8} {h : LinkHdr} {b : Beacon} (hlinks : r.doorLinks d = true) (hup : (r.door d).up = false)
    (hmismatch : (r.door d).mismatch = false) (hwrong : rightBeacon r d b = false) (hfence : r.fenced (unitDoor d) = false) :
    ∃ (e : Event) (routed : Bool), e.code = Code.cableMismatch ∧ e.src = 28 + d.val ∧ r.beaconIn d h b =
      (withEvent ((beaconed r d h b).modDoor d fun x => { x with mismatch := true }) e).modFab
        fun x => { x with routed := routed } := by
  obtain ⟨e, hlogged, hcode, hsrc⟩ := dorEvent_open ((beaconed r d h b).modDoor d fun x => { x with mismatch := true })
    Code.cableMismatch 0 0 [] hfence
  obtain ⟨routed, hrouted⟩ := routedCheck_fab (withEvent ((beaconed r d h b).modDoor d fun x => { x with mismatch := true }) e)
  refine ⟨e, routed, hcode, hsrc, ?_⟩
  rw [beaconIn_down r h b hlinks hup hmismatch, if_pos (by simp [hwrong]), hlogged, hrouted]

theorem beaconBringsTheDoorUp : BeaconBringsTheDoorUp := by
  intro s d h b r ex right hlinks hup hmismatch
  let taken := r.took (.doorRx d) 1
  have htook : r.doorTook d = taken := doorTook_links r hlinks
  have hbeaconed := door_beaconed taken d h b
  constructor
  · intro hright hecho hid hdoor hwaiting
    obtain ⟨routed, hin⟩ := beacon_up taken (h := h) hlinks hup hmismatch hright hecho hid hdoor hwaiting
    have hdone := (congrArg (Run.beaconIn · d h b) htook).trans hin
    have hnow := door_modDoor_self (beaconed taken d h b) d fun x => { x with up := true }
    exact ⟨_, congrArg (fun r => Host.Outcome.next (Run.finish s r)) hdone, congrArg Door.up hnow,
      (congrArg Door.farId hnow).trans (congrArg Door.farId hbeaconed),
      (congrArg Door.farDoor hnow).trans (congrArg Door.farDoor hbeaconed), by simp [beaconed, taken, r],
      by simp [beaconed, taken, r], finish_m_nil s _ (by simp [beaconed, taken, r])⟩
  · intro hwrong hfence
    obtain ⟨e, routed, hcode, hsrc, hin⟩ := beacon_mismatch taken (h := h) hlinks hup hmismatch hwrong hfence
    have hdone := (congrArg (Run.beaconIn · d h b) htook).trans hin
    have hnow := door_modDoor_self (beaconed taken d h b) d fun x => { x with mismatch := true }
    exact ⟨_, congrArg (fun r => Host.Outcome.next (Run.finish s r)) hdone,
      (congrArg Door.up hnow).trans ((congrArg Door.up hbeaconed).trans hup), congrArg Door.mismatch hnow,
      ⟨e, by simp [beaconed, taken, r], hcode, hsrc⟩, by simp [beaconed, taken, r],
      finish_m_nil s _ (by simp [beaconed, taken, r])⟩

/-- Settles O24: an ACK field that names the only kept frame frees it, a NAK that names it rewinds to it, and a BEACON is held
against the cabling. -/
theorem linkFramesKeepTheLink : Obligations.LinkFramesKeepTheLink :=
  ⟨⟨idleFreesTheFrame, nakSendsAgain⟩, beaconBringsTheDoorUp⟩

end Sys2Proof.Laws
end

section
/-! SUPPORT. The obligation about the exchange of time with the parent House (R315, R316; log entry 42). -/
namespace Sys2Proof.Laws
open Sys2Proof Sys2Proof.Machine Sys2Proof.Safety Sys2Proof.Claim

variable (r : Run)

/-! ## The exchange -/

/-- The Door once it owes the answer to the request of exchange `xn`, which came at `t2`. -/
def Door.requested (xn : BitVec 16) (t2 : BitVec 64) (x : Door) : Door :=
  { x with asked := (x.asked.filter fun y => y.1 ≠ xn) ++ [(xn, t2)],
           txq := x.txq ++ [({ cls := 3, pos := 0, bytes := atByte 12 1 ||| atByte 14 xn.toNat } : TxFrame)] }

theorem tReq_runs {d : Fin 8} (xn : BitVec 16) (hruns : r.doorRuns d = true) :
    r.tReq d xn = r.modDoor d (Door.requested xn (BitVec.ofInt 64 (r.capture d))) := by
  unfold Run.tReq Run.timeFrame
  rw [if_neg (by simp [hruns])]
  exact modDoor_modDoor r d _ _

theorem timeMatch_iff {d : Fin 8} {xn : BitVec 16} : r.timeMatch d xn = true ↔ r.doorRuns d = true ∧ r.upstream = some d ∧
    r.c.time.xn = xn ∧ r.c.time.t1.isSome = true := by
  simp [Run.timeMatch, and_assoc]

/-- The time unit once a follow-up has given θ and the delay (R315, R316). -/
def Time.followed (now : Nat) (theta : Int) (delay : Nat) (t : Time) : Time :=
  let run := if -10 ≤ theta ∧ theta ≤ 10 then min 8 (t.goodRun + 1) else 0
  { t with offset := theta, delay := delay, goodRun := run, locked := t.locked || decide (8 ≤ run), holdover := false,
           lastXn := now, t1 := none, t4 := none }

/-- A small θ is slewed away over one period (R316). -/
theorem correctFt_small {theta : Int} (hlow : -1000 ≤ theta) (hhigh : theta ≤ 1000) :
    r.correctFt theta = r.modTime fun t => { t with rate := slewRate theta r.timePeriod } :=
  if_pos (decide_eq_true ⟨hlow, hhigh⟩)

theorem tFollow_small {d : Fin 8} {xn : BitVec 16} {t2 t3 : BitVec 64} {t1 t4 : Int} (hmatch : r.timeMatch d xn = true)
    (ht1 : r.c.time.t1 = some t1) (ht4 : r.c.time.t4 = some t4) (hlow : -1000 ≤ timeTheta t1 t2.toNat t3.toNat t4)
    (hhigh : timeTheta t1 t2.toNat t3.toNat t4 ≤ 1000) : r.tFollow d xn t2 t3 = r.modTime fun t =>
      { Time.followed r.now (timeTheta t1 t2.toNat t3.toNat t4) (timeDelay t1 t2.toNat t3.toNat t4).toNat t with
        rate := slewRate (timeTheta t1 t2.toNat t3.toNat t4) r.timePeriod } := by
  unfold Run.tFollow
  rw [if_neg (by simp [hmatch]), ht1, ht4]
  dsimp only
  rw [correctFt_small _ hlow hhigh]
  simp only [decide_eq_true_eq]
  rfl

theorem timeExchangeCorrectsTheRate : TimeExchangeCorrectsTheRate := by
  refine ⟨?_, ?_, ?_⟩
  · intro s d xn r x hruns
    let taken := r.took (.doorRx d) 1
    have hdone : (r.doorTook d).tReq d xn = taken.modDoor d (Door.requested xn (BitVec.ofInt 64 (r.capture d))) := by
      rw [doorTook_runs r hruns]
      exact tReq_runs taken xn hruns
    have hdoor := door_modDoor_self taken d (Door.requested xn (BitVec.ofInt 64 (r.capture d)))
    exact ⟨_, congrArg (fun r => Host.Outcome.next (Run.finish s r)) hdone, rfl, congrArg Door.asked hdoor,
      congrArg Door.txq hdoor⟩
  · intro s d xn r hmatch
    obtain ⟨hruns, -⟩ := (timeMatch_iff r).mp hmatch
    let taken := r.took (.doorRx d) 1
    have hdone : (r.doorTook d).tResp d xn = taken.modTime fun t => { t with t4 := some (r.capture d) } := by
      rw [doorTook_runs r hruns]
      exact if_pos (show taken.timeMatch d xn = true from hmatch)
    exact congrArg (fun r => Host.Outcome.next (Run.finish s r)) hdone
  · intro s d xn t2 t3 t1 t4 r theta run hmatch ht1 ht4 hlow hhigh
    obtain ⟨hruns, -⟩ := (timeMatch_iff r).mp hmatch
    have hdone := (congrArg (Run.tFollow · d xn t2 t3) (doorTook_runs r hruns)).trans
      (tFollow_small (r.took (.doorRx d) 1) hmatch ht1 ht4 hlow hhigh)
    exact congrArg (fun r => Host.Outcome.next (Run.finish s r)) hdone

/-! ## The request, and holdover -/

/-- The time unit once it has sent the request of its next exchange. -/
def Time.asking (next : Nat) (t : Time) : Time := { t with xn := t.xn + 1, t1 := none, t4 := none, nextXn := next }

theorem timeExchange_due {d : Fin 8} (hup : r.upstream = some d) (hruns : r.doorRuns d = true)
    (hdue : r.c.time.nextXn ≤ r.now) : r.timeExchange =
      (r.modTime (Time.asking (r.now + usec r.timePeriod))).timeFrame d 0 (r.c.time.xn + 1) := by
  unfold Run.timeExchange
  rw [hup]
  exact if_pos (by simp [hruns, hdue])

/-- The time unit in holdover (R316). -/
def Time.heldOver (t : Time) : Time := { t with holdover := true, locked := false, goodRun := 0 }

theorem timeHoldover_late {e : BitVec 6} (hmode : r.mode.fabric = true) (hfresh : r.c.time.holdover = false)
    (hmaster : r.actingMaster = some e) (hother : e ≠ r.myId)
    (hlate : r.c.time.lastXn + 16 * usec r.timePeriod ≤ r.now) :
    ∃ v : Event, v.code = Code.timeHoldover ∧ v.src = 46 ∧
      r.timeHoldover = withEvent ((r.modTime Time.heldOver).windowFlag 16) v := by
  refine ⟨_, ?_, ?_, (if_pos ?_).trans (sysEvent_open _ (by decide))⟩
  · rfl
  · rfl
  · simp [hmode, hfresh, hmaster, hother, hlate]

theorem timeIsAskedOrHeldOver : TimeIsAskedOrHeldOver := by
  constructor
  · intro s d r hup hruns hdue
    have hdone := timeExchange_due r hup hruns hdue
    have hdoor := door_modDoor_self (r.modTime (Time.asking (r.now + usec r.timePeriod))) d fun x =>
      { x with txq := x.txq ++
        [({ cls := 3, pos := 0, bytes := atByte 12 0 ||| atByte 14 (r.c.time.xn + 1).toNat } : TxFrame)] }
    exact ⟨_, congrArg (fun r => Host.Outcome.next (Run.finish s r)) hdone, rfl, rfl, congrArg Door.txq hdoor⟩
  · intro s e r hmode hfresh hmaster hother hlate
    obtain ⟨v, hcode, hsrc, hdone⟩ := timeHoldover_late r hmode hfresh hmaster hother hlate
    exact ⟨_, congrArg (fun r => Host.Outcome.next (Run.finish s r)) hdone, rfl, rfl, rfl, v, rfl, hcode, hsrc⟩

/-- Settles O27: each message of the exchange captures its time, the follow-up slews a small θ away, and a period without an
exchange asks again, sixteen of them hold the time over. -/
theorem timeIsExchanged : Obligations.TimeIsExchanged := ⟨timeExchangeCorrectsTheRate, timeIsAskedOrHeldOver⟩

end Sys2Proof.Laws
end

section
/-! SUPPORT. What one House knows of another: its entry among the peers, and the messages that it sends there (R307, R308,
R311). -/
namespace Sys2Proof.Laws
open Sys2Proof Sys2Proof.Machine Sys2Proof.Safety

variable (r : Run)

/-! ## Peers -/

theorem peer_modPeer_self (e : BitVec 6) (f : Peer → Peer) : (r.modPeer e f).peer e = f (r.peer e) :=
  Vector.getElem_set_self e.isLt

theorem forEach_nil {α : Type} (f : α → Run → Run) : r.forEach [] f = r := rfl

/-- What the loop's every step leaves alone, the loop leaves alone. -/
theorem view_forEach {α β : Type} (view : Run → β) (f : α → Run → Run) (h : ∀ x r, view (f x r) = view r) (xs : List α) :
    view (r.forEach xs f) = view r := by
  induction xs generalizing r with
  | nil => rfl
  | cons x xs ih => exact (ih (f x r)).trans (h x r)

theorem view_when {β : Type} (view : Run → β) (b : Bool) (f : Run → Run) (h : ∀ r, view (f r) = view r) :
    view (r.when b f) = view r := by
  cases b
  · rfl
  · exact h r

/-! ## Messages -/

/-- A message of this House in its frames takes the HOPS of its route (R308). -/
def hopped (f : FMsg) : FMsg := { f with hops := BitVec.ofNat 4 (r.fld (0x190000 + 4 * f.dst.toNat) 11 8) }

/-- A short message that has no number is queued at once on the Door of its route (R308, R310). -/
theorem sendMsg_unnumbered {f : FMsg} {d : Fin 8} (stamp : Stamp) (hclass : opClass f.op = 4)
    (hshort : opFrames f.op = some 1) (hnew : f.hops = 0) (hdead : r.dead f.dst = false) (hroute : r.route f.dst = .go d)
    (hwaiting : r.c.fab.waiting = []) :
    r.sendMsg f stamp = r.modDoor d fun x => { x with txq := x.txq ++ msgFrames (hopped r f) } := by
  have hnumber : r.number f = (r, f) := if_neg (by rw [hclass]; decide)
  have hemit : r.emit f stamp = r.toDoor d f stamp := by
    unfold Run.emit
    rw [hwaiting, hroute, if_neg (ne_true_of_eq_false hdead)]
    rfl
  unfold Run.sendMsg
  rw [hnumber, if_neg (ne_true_of_eq_false hdead)]
  dsimp only
  rw [hemit]
  unfold Run.toDoor
  rw [hshort, if_pos hnew]
  simp [Run.when, hopped]

end Sys2Proof.Laws
end

section
/-! SUPPORT. The obligation about HEARTBEATs, and about the House that sends none (R307, R311). -/
namespace Sys2Proof.Laws
open Sys2Proof Sys2Proof.Machine Sys2Proof.Safety Sys2Proof.Claim

variable (r : Run)

/-! ## A HEARTBEAT comes -/

/-- The peer once its HEARTBEAT has come (R311). -/
def Peer.heard (now : Nat) (incarn : BitVec 16) (p : Peer) : Peer := { p.fresh incarn with live := true, lastHb := now }

theorem incarn_fresh (p : Peer) (incarn : BitVec 16) : (p.fresh incarn).incarn = incarn := by
  unfold Peer.fresh
  split
  · assumption
  · rfl

/-- A HEARTBEAT of another House that is neither dead nor in SAFE is noted; a new incarnation loses its held messages. -/
theorem heartbeatIn_heard {f : FMsg} (hother : f.src ≠ r.myId) (hdead : r.dead f.src = false)
    (hsafe : f.mask.toNat % 16 ≠ Mode.safe.code) : ∃ held, r.heartbeatIn f =
      (r.modFab fun x => { x with held := held }).modPeer f.src (Peer.heard r.now f.word4hi) := by
  have hstays : ¬(r.peer f.src).dead = true := ne_true_of_eq_false hdead
  unfold Run.heartbeatIn
  dsimp only
  rw [if_neg hother, if_neg hstays, if_neg hsafe]
  unfold Run.when
  split
  · exact ⟨_, rfl⟩
  · exact ⟨r.c.fab.held, rfl⟩

theorem heartbeatKeepsAHouseLive : HeartbeatKeepsAHouseLive := by
  intro s f stamp d r hbox hother hdead hsafe
  obtain ⟨held, hheard⟩ := heartbeatIn_heard (r.unbox f) hother hdead hsafe
  have hmine : r.heartbeatMsg f = (r.unbox f).heartbeatIn f := by
    unfold Run.heartbeatMsg
    rw [show r.inboxOf f Op.heartbeat = some (stamp, d) from hbox]
  have hdone := hmine.trans hheard
  have hpeer := peer_modPeer_self ((r.unbox f).modFab fun x => { x with held := held }) f.src (Peer.heard s.c.now f.word4hi)
  exact ⟨_, congrArg (fun r => Host.Outcome.next (Run.finish s r)) hdone, congrArg Peer.live hpeer,
    congrArg Peer.lastHb hpeer, (congrArg Peer.incarn hpeer).trans (incarn_fresh _ f.word4hi), rfl, rfl, rfl⟩

/-! ## HEARTBEATs go out -/

/-- The HEARTBEAT to House `e` (R311). -/
def beat (e : BitVec 6) : FMsg :=
  { r.mkMsg Op.heartbeat e 0 {} 0 with mask := BitVec.ofNat 16 r.mode.code, word4hi := r.c.fab.incarn }

/-- With one House to send to, its HEARTBEAT is queued on the Door of its route, and the interval begins anew. -/
theorem heartbeatSend_one {e : Nat} {d : Fin 8} (hmode : r.mode.fabric = true) (hup : ∃ d : Fin 8, (r.door d).up = true)
    (hdue : r.c.fab.hbAt + usec (r.fld 0x190110 9 0) ≤ r.now)
    (hone : ((List.range 64).filter fun e =>
      e ≠ r.myId.toNat && (r.bit (0x190000 + 4 * e) 3 || r.bit (0x190000 + 4 * e) 7)) = [e])
    (hdead : r.dead (BitVec.ofNat 6 e) = false) (hroute : r.route (BitVec.ofNat 6 e) = .go d)
    (hwaiting : r.c.fab.waiting = []) : r.heartbeatSend =
      (r.modDoor d fun x => { x with txq := x.txq ++ msgFrames (hopped r (beat r (BitVec.ofNat 6 e))) }).modFab
        fun x => { x with hbAt := r.now } := by
  obtain ⟨g, hg⟩ := hup
  have hany : (allPorches.any fun d => (r.door d).up) = true := List.any_eq_true.mpr ⟨g, List.mem_finRange g, hg⟩
  have hbeats : r.heartbeatSend = r.heartbeats := if_pos (by simp [hmode, hany, hdue])
  have hsent := sendMsg_unnumbered r (f := beat r (BitVec.ofNat 6 e)) r.ftNs
    (show opClass Op.heartbeat = 4 by decide) (show opFrames Op.heartbeat = some 1 by decide) rfl hdead hroute hwaiting
  rw [hbeats]
  unfold Run.heartbeats
  rw [hone]
  exact congrArg (fun q : Run => q.modFab fun x => { x with hbAt := q.now }) hsent

theorem heartbeatGoesToARoutedHouse : HeartbeatGoesToARoutedHouse := by
  intro s e d r hmode hup hdue hone hroute
  obtain ⟨⟨hdead, hgo⟩, hwaiting⟩ := hroute
  have hdone := heartbeatSend_one r hmode hup hdue hone hdead hgo hwaiting
  have hdoor := door_modDoor_self r d fun x => { x with txq := x.txq ++ msgFrames (hopped r (beat r (BitVec.ofNat 6 e))) }
  exact ⟨_, congrArg (fun r => Host.Outcome.next (Run.finish s r)) hdone, rfl,
    ⟨hopped r (beat r (BitVec.ofNat 6 e)), congrArg Door.txq hdoor, rfl, rfl, rfl, rfl, rfl⟩, rfl,
    keepsCells_of_log s _ fun o ho => absurd ho List.not_mem_nil⟩

/-! ## What the Rooms do when a House dies, with nothing that waits for it (R113, R129, R172, R174) -/

/-- The Room holds nothing that could wait for another House. -/
structure Unbound (y : Room) : Prop where
  trks : y.trks = []
  wbuf : y.wbuf = []
  mud : y.mud = []
  cohs : y.cohs = []
  snoopQ : y.snoopQ = []
  scnBad : y.scnBad = []
  markers : y.markers = []

theorem unbound_of_idleRoom {s : State} {m : Fin 64} (h : idleRoom s m) : Unbound s.c.rooms[m] := by
  obtain ⟨⟨-, hcohs, hsnoops, hscn⟩, -, htrks, -, hwbuf, hmud, -, -, -, -, -, -, hmarkers, -⟩ := h
  exact ⟨htrks, hwbuf, hmud, hcohs, hsnoops, hscn, hmarkers⟩

/-- The command has done nothing to the fabric and the Fuse box since `r₀`, and no Room holds anything that could wait for
another House. -/
structure Unmoved (r₀ r : Run) : Prop where
  fab : r.c.fab = r₀.c.fab
  fbx : r.c.fbx = r₀.c.fbx
  rooms : ∀ n : Fin 64, Unbound r.c.rooms[n]

variable {r₀ r : Run}

theorem Unmoved.of_eq (h : Unmoved r₀ r) {r' : Run} (hrooms : r'.c.rooms = r.c.rooms) (hfab : r'.c.fab = r.c.fab)
    (hfbx : r'.c.fbx = r.c.fbx) : Unmoved r₀ r' :=
  ⟨hfab.trans h.fab, hfbx.trans h.fbx, by rw [hrooms]; exact h.rooms⟩

theorem Unmoved.forEach {α : Type} (h : Unmoved r₀ r) (f : α → Run → Run) (hf : ∀ x r, Unmoved r₀ r → Unmoved r₀ (f x r))
    (xs : List α) : Unmoved r₀ (r.forEach xs f) := by
  induction xs generalizing r with
  | nil => exact h
  | cons x xs ih => exact ih (hf x r h)

theorem Unmoved.modRoom (h : Unmoved r₀ r) (m : Fin 64) (f : Room → Room) (hf : ∀ y, Unbound y → Unbound (f y)) :
    Unmoved r₀ (r.modRoom m f) := by
  refine ⟨h.fab, h.fbx, fun n => ?_⟩
  by_cases hn : n = m
  · rw [hn, room_modRoom_self]
    exact hf _ (h.rooms m)
  · rw [room_modRoom_ne r f hn]
    exact h.rooms n

theorem Unmoved.cohPoll (h : Unmoved r₀ r) (m : Fin 64) : Unmoved r₀ (r.cohPoll m) := by
  have hroom := h.rooms m
  rw [cohPoll_quiet r m hroom.cohs hroom.snoopQ hroom.scnBad hroom.trks]
  exact h

theorem Unmoved.wbSweep (h : Unmoved r₀ r) (m : Fin 64) : Unmoved r₀ (r.wbSweep m) := by
  unfold Run.wbSweep Run.wbFree
  exact h.modRoom m _ fun y hy => { hy with wbuf := by rw [hy.wbuf, List.filter_nil] }

theorem Unmoved.jobStart (h : Unmoved r₀ r) (m : Fin 64) (k : JobKind) : Unmoved r₀ (r.jobStart m k) := by
  unfold Run.jobStart
  split
  · exact h
  · exact h.modRoom m _ fun y hy => { hy with }

/-- The end of a barrier shows at its Porch, its host and the management ports. -/
theorem Unmoved.barEnd (h : Unmoved r₀ r) (p : Fin 8) (b : Bar) : Unmoved r₀ (r.barEnd p b) := by
  unfold Run.barEnd Run.when
  cases b.kind <;> cases b.err <;> exact h.of_eq rfl rfl rfl

theorem Unmoved.barCheck (h : Unmoved r₀ r) (p : Fin 8) : Unmoved r₀ (r.barCheck p) := by
  have hswept : Unmoved r₀ ((r.barSweep p).barMet p) := h.of_eq rfl rfl rfl
  refine hswept.forEach _ (fun b r h => ?_) _
  dsimp only
  unfold Run.when
  split
  · exact h.barEnd p b
  · exact h

theorem Unmoved.barsCheck (h : Unmoved r₀ r) : Unmoved r₀ r.barsCheck := h.forEach _ (fun p _ h => h.barCheck p) _

theorem Unmoved.twinDead (h : Unmoved r₀ r) (m : Fin 64) (e : BitVec 6) : Unmoved r₀ (r.twinDead m e) := by
  unfold Run.twinDead
  extract_lets es marked seen barred told
  have hes : es = [] := by
    unfold es
    rw [show (r.room m).wbuf = [] from (h.rooms m).wbuf, List.filter_nil]
  have hmarked : marked = r := by
    unfold marked
    rw [show (r.room m).markers = [] from (h.rooms m).markers, forEach_nil]
  have hbarred : Unmoved r₀ barred := by
    unfold barred
    rw [hmarked]
    refine h.forEach _ (fun p r h => ?_) _
    exact h.of_eq rfl rfl rfl
  have htold : told = barred := by
    unfold told
    rw [hes, forEach_nil]
  rw [htold]
  exact ((hbarred.wbSweep m).cohPoll m).barsCheck

theorem Unmoved.homeDead (h : Unmoved r₀ r) (m : Fin 64) (e : BitVec 6) : Unmoved r₀ (r.homeDead m e) := by
  have hmud : (r.room m).mud = [] := (h.rooms m).mud
  have hwbuf : (r.room m).wbuf = [] := (h.rooms m).wbuf
  unfold Run.homeDead
  rw [hmud]
  show Unmoved r₀ ((r.forEach ((r.room m).wbuf.filter _) _).cohPoll m)
  rw [hwbuf]
  exact h.cohPoll m

theorem Unmoved.roomDead (h : Unmoved r₀ r) (m : Fin 64) (e : BitVec 6) : Unmoved r₀ (r.roomDead m e) := by
  have hdead := (h.twinDead m e).homeDead m e
  unfold Run.roomDead
  extract_lets first twins trks cohs
  have htwins : twins = first := by
    unfold twins
    rw [show (first.room m).trks = [] from (hdead.rooms m).trks, forEach_nil]
  have htrks : trks = first := by
    unfold trks
    rw [htwins, show (first.room m).trks = [] from (hdead.rooms m).trks, forEach_nil]
  have hcohs : cohs = first := by
    unfold cohs
    rw [htrks, show (first.room m).cohs = [] from (hdead.rooms m).cohs, forEach_nil]
  rw [hcohs]
  exact (hdead.jobStart m (.purge e)).cohPoll m

theorem Unmoved.roomsDead (h : Unmoved r₀ r) (e : BitVec 6) : Unmoved r₀ (r.roomsDead e) :=
  h.forEach _ (fun m _ h => h.roomDead m e) _

/-! ## A silent House -/

variable (r)

/-- The entries of all peers, and the Fuse box. -/
def peersAndEvents (r : Run) : Vector Peer 64 × Fbx := (r.c.fab.peers, r.c.fbx)

/-- What is not sent any more to a dead House leaves the peers and the Fuse box alone (R312). -/
theorem discardTo_frame (e : BitVec 6) :
    (r.discardTo e).c.fab.peers = r.c.fab.peers ∧ (r.discardTo e).c.fbx = r.c.fbx := by
  have hview : peersAndEvents (r.discardTo e) = peersAndEvents r := by
    unfold Run.discardTo
    extract_lets n fewer src thinned counted
    have hcounted : peersAndEvents counted = peersAndEvents r := view_when thinned peersAndEvents _ _ fun r => rfl
    rw [← hcounted]
    apply view_forEach counted peersAndEvents
    intro d r
    dsimp only
    split
    · rfl
    · rfl
  exact Prod.mk.inj hview

/-- The peer once it has been declared dead (R311). -/
def Peer.declaredDead (now : Nat) (p : Peer) : Peer := { p with live := false, dead := true, deadAt := now }

/-- The shadow of House `e`'s death (R384). -/
def deadShadow (e : BitVec 6) : Shadow :=
  { unit := unitHouse e, start := r.ftNs, stop := r.ftNs + r.reg 0x10010 }

/-- The declaration is noted and reported, and its shadow opens. -/
def deathNoted (e : BitVec 6) (v : Event) : Run :=
  (withEvent (r.modPeer e (Peer.declaredDead r.now)) v).modFbx fun x => { x with shadows := x.shadows ++ [deadShadow r e] }

/-- And the Rooms have done what the death asks of them, unless they are frozen (R27, R30). -/
def deathTaken (e : BitVec 6) (v : Event) : Run :=
  (deathNoted r e v).when ((deathNoted r e v).mode ≠ .safe) fun r => r.roomsDead e

theorem houseDead_reported (e : BitVec 6) : ∃ v : Event, v.code = Code.houseDead ∧
    ((r.modPeer e (Peer.declaredDead r.now)).sysEvent 50 Code.houseDead).openShadow (unitHouse e) r.ftNs =
      deathNoted r e v := by
  let v : Event := (r.modPeer e (Peer.declaredDead r.now)).stamped { code := Code.houseDead, src := 50 }
  have hlogged : (r.modPeer e (Peer.declaredDead r.now)).sysEvent 50 Code.houseDead =
      withEvent (r.modPeer e (Peer.declaredDead r.now)) v := sysEvent_open _ (by decide)
  refine ⟨v, rfl, ?_⟩
  rw [hlogged]
  rfl

/-- With no frame of a region and nothing in the Rooms, a declaration does no more to the peers and the Fuse box than note,
report and shadow the death. -/
theorem declareDead_quiet {e : BitVec 6} (hdead : r.dead e = false) (hframes : r.m.frames = [])
    (hrooms : ∀ m : Fin 64, Unbound r.c.rooms[m]) : ∃ v : Event, v.code = Code.houseDead ∧
      (r.declareDead e).c.fab.peers = (deathNoted r e v).c.fab.peers ∧
      (r.declareDead e).c.fbx = (deathNoted r e v).c.fbx := by
  obtain ⟨v, hcode, hnoted⟩ := houseDead_reported r e
  have hnone : (deathNoted r e v).partnerRgns e false = [] := by
    unfold Run.partnerRgns
    rw [show (deathNoted r e v).m.frames = [] from hframes, List.filterMap_nil]
  have hunmoved : Unmoved (deathNoted r e v) (deathNoted r e v) := ⟨rfl, rfl, hrooms⟩
  have hrest : Unmoved (deathNoted r e v) (deathTaken r e v) := by
    unfold deathTaken Run.when
    split
    · exact hunmoved.roomsDead e
    · exact hunmoved
  obtain ⟨hpeers, hfbx⟩ := discardTo_frame (deathTaken r e v) e
  have hdone : r.declareDead e = (deathTaken r e v).discardTo e := by
    unfold Run.declareDead
    rw [if_neg (ne_true_of_eq_false hdead)]
    extract_lets dead logged told
    have hlogged : logged = deathNoted r e v := hnoted
    have htold : told = deathNoted r e v := by
      unfold told
      rw [hlogged, hnone, forEach_nil]
    rw [htold]
    rfl
  exact ⟨v, hcode, by rw [hdone, hpeers, hrest.fab], by rw [hdone, hfbx, hrest.fbx]⟩

/-- A live House whose last HEARTBEAT is too long ago is declared dead (R311). -/
theorem houseDead_late {e : BitVec 6} (hmode : r.mode.fabric = true) (hlive : (r.peer e).live = true)
    (hlate : (r.peer e).lastHb + usec (r.fld 0x190110 27 16) ≤ r.now) : r.houseDead e = r.declareDead e :=
  if_pos (by simp [hmode, hlive, hlate])

theorem silentHouseIsDeclaredDead : SilentHouseIsDeclaredDead := by
  intro s e r h hmode hlive hdead hlate hframes hrooms
  have hdone := houseDead_late r hmode hlive hlate
  obtain ⟨v, hcode, hpeers, hfbx⟩ :=
    declareDead_quiet r hdead hframes fun m => unbound_of_idleRoom (hrooms m).1
  have hpeer : (r.declareDead h).peer h = Peer.declaredDead s.c.now (r.peer h) := by
    unfold Run.peer
    rw [hpeers]
    exact peer_modPeer_self r h (Peer.declaredDead s.c.now)
  refine ⟨_, congrArg (fun r => Host.Outcome.next (Run.finish s r)) hdone, congrArg Peer.dead hpeer,
    congrArg Peer.live hpeer, congrArg Peer.deadAt hpeer, ⟨v, ?_, hcode⟩, deadShadow r h, ?_, rfl⟩
  · rw [finish_c, hfbx]
    exact List.mem_append_right _ List.mem_cons_self
  · rw [finish_c, hfbx]
    exact List.mem_append_right _ List.mem_cons_self

/-- Settles O15: a HEARTBEAT is noted with its peer, goes to the one House with a route, and a House without one for too long
is declared dead, of which the idle Rooms and the messages that are dropped take nothing back. -/
theorem housesLiveAndDie : Obligations.HousesLiveAndDie :=
  ⟨heartbeatKeepsAHouseLive, heartbeatGoesToARoutedHouse, silentHouseIsDeclaredDead⟩

end Sys2Proof.Laws
end

section
/-! SUPPORT. How a message that has come in whole goes on to its Room (R309, R310): the Room that takes it, its end-to-end
number, and the messages held for order. -/
namespace Sys2Proof.Laws
open Sys2Proof Sys2Proof.Machine Sys2Proof.Safety

variable (r : Run)

/-! ## The Room that takes a message depends on the Room hash and the covering Rooms (R48, R213) -/

/-- The address lies between the hash masks and the fallback tables, as those of the Doors and the routing do. -/
def fabricAddr (a : Nat) : Prop := 0x1000 ≤ a ∧ a < 0x800000

theorem reg_setReg_fabric {a b : Nat} (v : Nat) (h : fabricAddr a) (hb : b < 0x1000 ∨ 0x800000 ≤ b) :
    (r.setReg a v).reg b = r.reg b := reg_setReg_ne r (by unfold fabricAddr at h; omega)

theorem roomOf_setReg {a : Nat} (v : Nat) (h : fabricAddr a) (b : Block) : (r.setReg a v).roomOf b = r.roomOf b := by
  have hhash : (r.setReg a v).blkHash 0x800 6 b = r.blkHash 0x800 6 b := gather_congr fun k hk => by
    unfold Run.blkMask Run.fld
    rw [reg_setReg_fabric r v h (by omega), reg_setReg_fabric r v h (by omega)]
  unfold Run.roomOf
  simp only [hhash]

theorem serving_setReg {a : Nat} (v : Nat) (h : fabricAddr a) (m : Fin 64) : (r.setReg a v).serving m = r.serving m := by
  have hcover : (r.setReg a v).cover m = r.cover m := by
    unfold Run.cover Run.fld
    simp only [reg_setReg_fabric r v h (b := 0x800000 + 16 * (2 + m.val)) (by omega)]
  unfold Run.serving
  rw [hcover]
  rfl

theorem msgTo_setReg {a : Nat} (v : Nat) (h : fabricAddr a) (f : FMsg) : (r.setReg a v).msgTo f = r.msgTo f := by
  unfold Run.msgTo Run.roomFor
  rw [roomOf_setReg r v h, serving_setReg r v h]

/-! ## Handing over -/

/-- The command has since moved on in the Doors, the peers, the messages held for order, the transfers that wait and the
messages delivered. -/
structure Onward where
  doors : Vector Door 8
  peers : Vector Peer 64
  held : List Held
  wait : List Xfer
  inbox : List (FMsg × Stamp × Nat)

/-- The command at work, moved on. -/
def movedOn (x : Onward) : Run :=
  { r with c := { r.c with doors := x.doors, wait := x.wait,
                           fab := { r.c.fab with peers := x.peers, held := x.held, inbox := x.inbox } } }

/-- While the Timetable runs, a message for a Room sets out, unless it is an answer to a fenced one. -/
theorem handOver_room {f : FMsg} {m : Fin 64} (d : Nat) (hto : r.msgTo f = some m) (hrun : r.c.tt.run = true)
    (hopen : opClass f.op = 1 → r.fenced (unitRoom m) = false) :
    r.handOver d f = r.post (152 + d) 0x5A (.room m f d) := by
  unfold Run.handOver
  rw [hto]
  refine if_neg ?_
  simpa [hrun] using hopen

/-- A message for no Room is delivered at once. -/
theorem handOver_none {f : FMsg} (d : Nat) (hto : r.msgTo f = none) : r.handOver d f = r.inboxAdd d f := by
  unfold Run.handOver
  rw [hto]

/-- Whatever takes it, a message is posted or delivered, and nothing else happens. -/
theorem handOver_cases (d : Nat) (f : FMsg) :
    r.handOver d f = r.inboxAdd d f ∨ ∃ m, r.handOver d f = r.post (152 + d) 0x5A (.room m f d) := by
  unfold Run.handOver
  split
  next m hto =>
    split
    · exact Or.inl rfl
    · exact Or.inr ⟨m, rfl⟩
  next => exact Or.inl rfl

/-! ## End-to-end order -/

/-- The peer that is next to send number `n` in class `cls`. -/
def Peer.expecting (cls : Nat) (n : BitVec 16) (p : Peer) : Peer :=
  { p with rxEseq := p.rxEseq.set (cls % 3) n (Nat.mod_lt _ (by decide)) }

theorem rxEseq_expecting (cls : Nat) (n : BitVec 16) (p : Peer) : (Peer.expecting cls n p).rxEseq[fin3 cls] = n :=
  Vector.getElem_set_self _

theorem heldGo_none (src : BitVec 6) (cls n : Nat) (h : r.c.fab.held = []) : r.heldGo src cls n = r := by
  cases n with
  | zero => rfl
  | succ n =>
    unfold Run.heldGo
    rw [h]
    rfl

/-- The only held message, when its turn has come, goes on, and its number is taken. -/
theorem heldGo_single {h : Held} {src : BitVec 6} {cls : Nat} (n : Nat) (hheld : r.c.fab.held = [h]) (hsrc : h.src = src)
    (hcls : h.cls = cls) (hnext : (r.peer src).rxEseq[fin3 cls] = h.msg.eseq) : r.heldGo src cls (n + 1) =
      ((r.modFab fun x => { x with held := [] }).handOver h.door h.msg).modPeer src
        (Peer.expecting cls (h.msg.eseq + 1)) := by
  have hnone : (r.modFab fun x => { x with held := x.held.eraseP fun y => y = h }) = r.modFab fun x => { x with held := [] } := by
    show (⟨{ r.c with fab := { r.c.fab with held := r.c.fab.held.eraseP fun y => y = h } }, r.m, r.log⟩ : Run) = _
    rw [hheld, List.eraseP_cons_of_pos (by simp)]
    rfl
  unfold Run.heldGo
  rw [hheld, hnext]
  simp only [List.find?_cons_of_pos, hsrc, hcls, decide_true, Bool.and_true]
  rw [hnone]
  refine heldGo_none _ src cls n ?_
  rcases handOver_cases (r.modFab fun x => { x with held := [] }) h.door h.msg with hgo | ⟨m, hgo⟩ <;> rw [hgo] <;> rfl

/-- A Door whose classes held back for order may have changed, and nothing else. -/
def sameButReorder (x y : Door) : Prop := ∃ held, y = { x with reorderXoff := held }

theorem forEach_reorderXoff (ds : List (Fin 8)) : ∃ doors,
    (r.forEach ds fun d r => r.modDoor d fun x => { x with reorderXoff := 0 }) = { r with c := { r.c with doors := doors } } ∧
      ∀ d : Fin 8, sameButReorder r.c.doors[d] doors[d] := by
  induction ds generalizing r with
  | nil => exact ⟨r.c.doors, rfl, fun d => ⟨_, rfl⟩⟩
  | cons e ds ih =>
    obtain ⟨doors, hrest, hdoors⟩ := ih (r.modDoor e fun x => { x with reorderXoff := 0 })
    refine ⟨doors, hrest, fun d => ?_⟩
    obtain ⟨held, hdoor⟩ := hdoors d
    refine ⟨held, hdoor.trans ?_⟩
    by_cases hd : d = e
    · rw [hd, door_modDoor_self]
    · rw [door_modDoor_ne r _ hd]

/-- With nothing held, the reorder store has room, and no class is held back at any Door (R310). -/
theorem reorderRoom_none (h : r.c.fab.held = []) : ∃ doors, r.reorderRoom = { r with c := { r.c with doors := doors } } ∧
    ∀ d : Fin 8, sameButReorder r.c.doors[d] doors[d] := by
  have hroom : r.reorderRoom = r.forEach allPorches fun d r => r.modDoor d fun x => { x with reorderXoff := 0 } := by
    unfold Run.reorderRoom
    rw [h]
    exact if_pos (by decide)
  rw [hroom]
  exact forEach_reorderXoff r allPorches

/-- A message whose turn it is, with none held, is handed over; its number is taken, if its class has numbers (R310). -/
theorem deliver_inOrder {f : FMsg} (d : Fin 8) (hheld : r.c.fab.held = [])
    (hturn : opClass f.op < 3 → f.eseq = (r.peer f.src).rxEseq[fin3 (opClass f.op)]) : ∃ doors peers,
    r.deliver d f = movedOn r ⟨doors, peers, r.c.fab.held, (r.handOver d f).c.wait, (r.handOver d f).c.fab.inbox⟩ ∧
      ∀ e : Fin 8, sameButReorder r.c.doors[e] doors[e] := by
  have hgo := handOver_cases r d f
  rcases Nat.lt_or_ge (opClass f.op) 3 with hclass | hclass
  · let numbered := (r.handOver d f).modPeer f.src (Peer.expecting (opClass f.op) (f.eseq + 1))
    have hstill : numbered.c.fab.held = [] ∧ numbered.c.doors = r.c.doors := by
      unfold numbered
      rcases hgo with hgo | ⟨m, hgo⟩ <;> rw [hgo] <;> exact ⟨hheld, rfl⟩
    obtain ⟨hnone, hdoors⟩ := hstill
    have hdone : r.deliver d f = numbered.reorderRoom := by
      unfold Run.deliver
      rw [if_neg (Nat.not_le.mpr hclass)]
      dsimp only
      rw [if_pos (hturn hclass), ← hturn hclass]
      exact congrArg Run.reorderRoom (heldGo_none numbered f.src _ 256 hnone)
    obtain ⟨doors, hroom, hsame⟩ := reorderRoom_none numbered hnone
    refine ⟨doors, numbered.c.fab.peers, ?_, fun e => by rw [← hdoors]; exact hsame e⟩
    rw [hdone, hroom]
    unfold numbered
    rcases hgo with hgo | ⟨m, hgo⟩ <;> rw [hgo] <;> rfl
  · have hdone : r.deliver d f = r.handOver d f := if_pos hclass
    refine ⟨r.c.doors, r.c.fab.peers, ?_, fun e => ⟨_, rfl⟩⟩
    rw [hdone]
    rcases hgo with hgo | ⟨m, hgo⟩ <;> rw [hgo] <;> rfl

end Sys2Proof.Laws
end

section
/-! SUPPORT. The obligation about frames that are accepted (R289, R295, R297, R309, R310, R319). -/
namespace Sys2Proof.Laws
open Sys2Proof Sys2Proof.Machine Sys2Proof.Safety Sys2Proof.Claim

variable (r : Run)

/-! ## A frame whose FEC met nothing -/

/-- The counts of corrected and uncorrected codewords are written again as they are (R284). -/
theorem fecCount_none (d : Fin 8) :
    r.fecCount d {} = (r.count32 (dorBase d + 0x2C) 0).count32 (dorBase d + 0x30) 0 := rfl

theorem fabricAddr_door (d : Fin 8) {off : Nat} (h : off < 0x1000) : fabricAddr (dorBase d + off) := by
  unfold fabricAddr dorBase
  omega

theorem msgTo_fecCount (d : Fin 8) (f : FMsg) : (r.fecCount d {}).msgTo f = r.msgTo f := by
  rw [fecCount_none, count32_m, count32_m, msgTo_setReg _ _ (fabricAddr_door d (by decide)),
    msgTo_setReg _ _ (fabricAddr_door d (by decide))]

theorem reg_fecCount (d : Fin 8) {a : Nat} (hce : a ≠ dorBase d + 0x2C) (hue : a ≠ dorBase d + 0x30) :
    (r.fecCount d {}).reg a = r.reg a := by
  rw [fecCount_none, count32_m, count32_m, reg_setReg_ne _ hue, reg_setReg_ne _ hce]

theorem myId_fecCount (d : Fin 8) : (r.fecCount d {}).myId = r.myId := by
  unfold Run.myId Run.fld
  rw [reg_fecCount r d (by unfold dorBase; omega) (by unfold dorBase; omega)]

theorem secOn_fecCount (d : Fin 8) : (r.fecCount d {}).secOn d = r.secOn d := by
  unfold Run.secOn Run.bit
  rw [reg_fecCount r d (by omega) (by omega)]

/-! ## A frame with a wrong CRC (R289, R297) -/

/-- The Door that owes a NAK, unless it sent one less than 1 µs ago. -/
def Door.owesNak (now : Nat) (x : Door) : Door :=
  { x with nakDue := x.nakDue || match x.nakAt with
      | some t => decide (t + usec 1 ≤ now)
      | none => true }

theorem frameIn_wrongCrc {d : Fin 8} {f : Frame} (hruns : r.doorRuns d = true) (hup : (r.door d).up = true)
    (habort : hdrAbort (frameHdr f) = false) (hcrc : frameSum f ≠ frameCrc f) :
    r.frameIn d f {} false = ((r.fecCount d {}).count32 (dorBase d + 0x24) 1).oweNak d := by
  unfold Run.frameIn
  dsimp only
  rw [if_neg (by simp [hruns, hup, habort]), if_pos (by simp [hcrc])]

theorem wrongCrcIsCounted (s : State) (d : Fin 8) (f : Frame) (hruns : (Run.start s).doorRuns d = true)
    (hup : (s.c.doors[d]).up = true) (habort : hdrAbort (frameHdr f) = false) (hcrc : frameSum f ≠ frameCrc f)
    (hnak : (s.c.doors[d]).nakAt = none) :
    ∃ t, exec (.frameReceive d f {}) s = .next t ∧ (t.c.doors[d]).nakDue = true ∧
      (t.m.reg (dorBase d + 0x24)).toNat = min 0xFFFFFFFF ((Run.start s).reg (dorBase d + 0x24) + 1) ∧
      (t.c.doors[d]).expSeq = (s.c.doors[d]).expSeq ∧ t.c.xings = tookFrom s (.doorRx d) 1 ∧ t.c.fab = s.c.fab ∧
      keepsHall s t ∧ t.c.rooms = s.c.rooms ∧ keepsCells s t := by
  let taken := (Run.start s).took (.doorRx d) 1
  let counted := (taken.fecCount d {}).count32 (dorBase d + 0x24) 1
  have hdone : ((Run.start s).doorTook d).frameIn d f {} false = counted.modDoor d (Door.owesNak s.c.now) := by
    rw [doorTook_runs _ hruns]
    exact frameIn_wrongCrc taken hruns hup habort hcrc
  have hdoor : (counted.modDoor d (Door.owesNak s.c.now)).c.doors[d] = Door.owesNak s.c.now s.c.doors[d] :=
    door_modDoor_self counted d _
  have hcells : ∀ o ∈ counted.log, cellFree o = true := by
    intro o ho
    simp only [counted, taken, fecCount_none, count32_m, setReg_log, took_log, start_log, List.mem_cons, List.not_mem_nil,
      or_false] at ho
    rcases ho with rfl | rfl | rfl <;> rfl
  obtain ⟨hmask, hreset⟩ := crcCount_whole d
  have hcount : (counted.m.reg (dorBase d + 0x24)).toNat =
      min 0xFFFFFFFF ((Run.start s).reg (dorBase d + 0x24) + 1) := by
    rw [reg_count32_whole _ hmask hreset, reg_fecCount taken d (by omega) (by omega)]
    rfl
  refine ⟨_, congrArg (fun r => Host.Outcome.next (Run.finish s r)) hdone, ?_, hcount, (congrArg Door.expSeq hdoor :), rfl,
    ?_, ?_, ?_, ?_⟩
  · refine (congrArg Door.nakDue hdoor).trans ?_
    unfold Door.owesNak
    rw [hnak]
    exact Bool.or_true _
  · simp [counted, taken, fecCount_none]
  · simp [keepsHall, counted, taken, fecCount_none]
  · simp [counted, taken, fecCount_none]
  · exact keepsCells_of_log s _ hcells

/-! ## A frame that is the next (R297) -/

/-- The Door once it has accepted the frame of header `h`. -/
def Door.accepted (now : Nat) (h : BitVec 32) (x : Door) : Door :=
  let i := Fin.boolIdx (hdrKid h)
  { Door.ackTaken now (hdrLink h) x with
    expSeq := x.expSeq + 1, lastAcc := hdrSeq h, rxKid := hdrKid h, rxCnt := x.rxCnt.set i.val (x.rxCnt[i] + 1) i.isLt }

/-- The frame has been accepted, and its message bytes are still to be passed on. -/
def accepted (d : Fin 8) (f : Frame) : Run := (r.fecCount d {}).modDoor d (Door.accepted r.now (frameHdr f))

/-- The frame may be accepted: its link runs without encryption, its CRC is right, it is the next, and there is room. -/
structure Acceptable (d : Fin 8) (f : Frame) (ab : Bool) : Prop where
  runs : r.doorRuns d = true
  up : (r.door d).up = true
  clear : r.secOn d = false
  abort : hdrAbort (frameHdr f) = ab
  crc : frameSum f = frameCrc f
  seqd : seqFrame (hdrCls (frameHdr f)) = true
  next : hdrSeq (frameHdr f) = (r.door d).expSeq
  room : r.rxUsed d (hdrCls (frameHdr f)) < clsBuffer (hdrCls (frameHdr f))

variable {r}

theorem rxUsed_takeAck (q : Run) (d : Fin 8) (h : LinkHdr) (cls : Nat) : (q.takeAck d h).rxUsed d cls = q.rxUsed d cls := by
  have hdoor : (q.takeAck d h).door d = Door.ackTaken q.now h (q.door d) := door_modDoor_self q d _
  have hparts : ((q.takeAck d h).door d).parts = (q.door d).parts := by rw [hdoor]; rfl
  unfold Run.rxUsed
  rw [hparts]
  rfl

/-- What follows the acceptance of the frame: ABORT closes the message of its class, other frames carry it on. -/
def passOn (q : Run) (d : Fin 8) (f : Frame) (ab : Bool) : Run :=
  let cls := hdrCls (frameHdr f)
  if ab then
    (match ((q.door d).parts.find? fun p : Part => p.cls = cls).bind (·.transit) with
      | some e => q.toTransit d e { cls := cls, pos := 3, abort := true, bytes := 0 }
      | none => q).setPart d cls none
  else q.partFrame d cls (hdrPos (frameHdr f)) (frameMsg f)

theorem frameIn_accepts {d : Fin 8} {f : Frame} {ab : Bool} (h : Acceptable r d f ab) :
    r.frameIn d f {} ab = passOn (accepted r d f) d f ab := by
  have hopen : (r.fecCount d {}).openFrame d f = some (frameMsg f) :=
    if_pos (by rw [secOn_fecCount, h.clear]; rfl)
  have hroom : ((r.fecCount d {}).takeAck d (hdrLink (frameHdr f))).rxUsed d (hdrCls (frameHdr f)) <
      clsBuffer (hdrCls (frameHdr f)) := by
    rw [rxUsed_takeAck]
    exact h.room
  have haccepted : (((r.fecCount d {}).takeAck d (hdrLink (frameHdr f))).modDoor d fun x =>
      { x with expSeq := x.expSeq + 1, lastAcc := hdrSeq (frameHdr f), rxKid := hdrKid (frameHdr f),
               rxCnt := x.rxCnt.set (Fin.boolIdx (hdrKid (frameHdr f))).val (x.rxCnt[Fin.boolIdx (hdrKid (frameHdr f))] + 1)
                 (Fin.boolIdx (hdrKid (frameHdr f))).isLt }) = accepted r d f :=
    modDoor_modDoor _ d (Door.ackTaken r.now (hdrLink (frameHdr f))) _
  unfold Run.frameIn
  dsimp only
  rw [if_neg (by simp [h.runs, h.up, h.abort]), if_neg (by simp [h.crc]), if_neg (by simp [h.seqd]), hopen]
  dsimp only
  rw [if_pos (by simp [h.next, hroom]), haccepted]
  rfl

/-! ## ABORT (R295, R319) -/

/-- The Door with no message half received. -/
def closedParts (q : Run) (d : Fin 8) : Run := q.modDoor d fun x => { x with parts := [] }

theorem door_closedParts (q : Run) (d : Fin 8) : (closedParts q d).c.doors[d] = { q.c.doors[d] with parts := [] } :=
  door_modDoor_self q d _

theorem setPart_none {q : Run} {d : Fin 8} {x : Part} (h : (q.door d).parts = [x]) : q.setPart d x.cls none = closedParts q d :=
  modDoor_congr q d <| by
    rw [show (q.c.doors[d]).parts = [x] from h]
    simp

/-- ABORT of the only message half received. -/
theorem passOn_abort {q : Run} {d : Fin 8} {f : Frame} {x : Part} (hparts : (q.door d).parts = [x])
    (hcls : x.cls = hdrCls (frameHdr f)) (hrun : q.c.tt.run = true) : passOn q d f true = closedParts (match x.transit with
      | some e => q.post (doorCal d) 0x5B (.transit e { cls := x.cls, pos := 3, abort := true, bytes := 0, via := some d.val })
      | none => q) d := by
  unfold passOn
  dsimp only
  rw [if_pos rfl, hparts, ← hcls]
  simp only [List.find?_cons_of_pos, decide_true, Option.bind_some]
  cases x.transit with
  | some e =>
    dsimp only
    unfold Run.toTransit
    rw [if_pos hrun]
    exact setPart_none hparts
  | none => exact setPart_none hparts

theorem acceptable_of_nextFrame {s : State} {d : Fin 8} {f : Frame} {ab : Bool} (h : nextFrameOf s d f ab) :
    Acceptable ((Run.start s).took (.doorRx d) 1) d f ab := by
  obtain ⟨hruns, hup, hclear, habort, hcrc, hseqd, hnext, hroom⟩ := h
  exact ⟨hruns, hup, hclear, habort, hcrc, hseqd, hnext, hroom⟩

/-- The command at work once Door d has accepted the frame out of its crossing. -/
def acceptedFrom (s : State) (d : Fin 8) (f : Frame) : Run := accepted ((Run.start s).took (.doorRx d) 1) d f

theorem door_acceptedFrom (s : State) (d : Fin 8) (f : Frame) :
    (acceptedFrom s d f).door d = Door.accepted s.c.now (frameHdr f) s.c.doors[d] :=
  door_modDoor_self (((Run.start s).took (.doorRx d) 1).fecCount d {}) d _

/-- Besides the Door's state, an acceptance shows in the crossing and in two counts. -/
theorem acceptedFrom_frame (s : State) (d : Fin 8) (f : Frame) : ∃ doors, (acceptedFrom s d f).c =
    { s.c with doors := doors, xings := tookFrom s (.doorRx d) 1 } := ⟨_, rfl⟩

theorem log_acceptedFrom (s : State) (d : Fin 8) (f : Frame) : ∀ o ∈ (acceptedFrom s d f).log, cellFree o = true := by
  intro o ho
  simp only [acceptedFrom, accepted, fecCount_none, count32_m, modDoor_log, setReg_log, took_log, start_log, List.mem_cons,
    List.not_mem_nil, or_false] at ho
  rcases ho with rfl | rfl <;> rfl

theorem frameIn_next {s : State} {d : Fin 8} {f : Frame} {ab : Bool} (h : nextFrameOf s d f ab) :
    ((Run.start s).doorTook d).frameIn d f {} ab = passOn (acceptedFrom s d f) d f ab := by
  rw [doorTook_runs _ h.1]
  exact frameIn_accepts (acceptable_of_nextFrame h)

theorem abortEndsItsMessage : AbortEndsItsMessage := by
  intro s d f x e hnext hrun hparts hcls
  let q := acceptedFrom s d f
  have hdoor := door_acceptedFrom s d f
  have hdone := (frameIn_next hnext).trans
    (passOn_abort (q := q) ((congrArg Door.parts hdoor).trans hparts) hcls hrun)
  have hcells := log_acceptedFrom s d f
  obtain ⟨doors, hframe⟩ := acceptedFrom_frame s d f
  have hseq : (q.c.doors[d]).expSeq = (s.c.doors[d]).expSeq + 1 := congrArg Door.expSeq hdoor
  refine ⟨_, congrArg (fun r => Host.Outcome.next (Run.finish s r)) hdone, ?_⟩
  cases x.transit with
  | some g =>
    have hclosed := door_closedParts
      (q.post (doorCal d) 0x5B (.transit g { cls := x.cls, pos := 3, abort := true, bytes := 0, via := some d.val })) d
    refine ⟨congrArg Door.parts hclosed, fun h => ?_, nofun, (congrArg Door.expSeq hclosed).trans hseq, ?_, ?_, ?_,
      keepsCells_of_log s _ hcells⟩
    · obtain rfl := Option.some.inj h
      exact ⟨by simp [closedParts, q, hframe, doorCal], by simp [closedParts, q, hframe]⟩
    · simp [closedParts, q, hframe]
    · simp [closedParts, q, hframe]
    · simp [closedParts, q, hframe]
  | none =>
    have hclosed := door_closedParts q d
    refine ⟨congrArg Door.parts hclosed, nofun, fun _ => ?_, (congrArg Door.expSeq hclosed).trans hseq, ?_, ?_, ?_,
      keepsCells_of_log s _ hcells⟩
    · simp [closedParts, q, hframe]
    · simp [closedParts, q, hframe]
    · simp [closedParts, q, hframe]
    · simp [closedParts, q, hframe]

/-! ## A message in one frame (R309, R310) -/

theorem setPart_opened {q : Run} {d : Fin 8} (x : Part) (h : (q.door d).parts = []) :
    ((q.setPart d x.cls (some x)).door d).parts = [x] ∧ (q.setPart d x.cls (some x)).setPart d x.cls none = q := by
  have hparts : ((q.setPart d x.cls (some x)).door d).parts = [x] := by
    refine (congrArg Door.parts (door_modDoor_self q d _)).trans ?_
    rw [show (q.c.doors[d]).parts = [] from h]
    rfl
  refine ⟨hparts, (setPart_none hparts).trans ((modDoor_modDoor q d _ _).trans ?_)⟩
  show q.setDoor d { q.c.doors[d] with parts := [] } = q
  rw [← show (q.c.doors[d]).parts = [] from h]
  exact setDoor_self q d

/-- The only frame of a message to this House has it delivered, when the message is well formed (R293). -/
theorem partFrame_whole {q : Run} {d : Fin 8} {p : BitVec 896} (cls : Nat) (hparts : (q.door d).parts = [])
    (hmine : p.extractLsb' 0 6 = q.myId) (hfits : msgFits [p] = true) (hdst : (piecesMsg [p]).dst = q.myId) :
    q.partFrame d cls 0 p = q.deliver d (piecesMsg [p]) := by
  obtain ⟨hopened, hclosed⟩ := setPart_opened { cls := cls } hparts
  unfold Run.partFrame
  extract_lets first last mine opened bytes
  have hopen : opened = q.setPart d cls (some { cls := cls }) := if_pos hmine
  have hbytes : bytes = p := if_neg (by simp [mine, hmine])
  rw [hopen, hbytes, hopened, List.find?_cons_of_pos (by simp)]
  have hlast : last = true := rfl
  dsimp only
  rw [if_pos hlast, hclosed, if_neg (by simp), if_neg (by simp [hlast]), if_neg (by simp [hfits]), List.nil_append,
    if_pos hlast, if_pos hdst]

theorem passOn_whole {q : Run} {d : Fin 8} {f : Frame} (hpos : hdrPos (frameHdr f) = 0) (hparts : (q.door d).parts = [])
    (hmine : (frameMsg f).extractLsb' 0 6 = q.myId) (hfits : msgFits [frameMsg f] = true)
    (hdst : (piecesMsg [frameMsg f]).dst = q.myId) : passOn q d f false = q.deliver d (piecesMsg [frameMsg f]) := by
  unfold passOn
  rw [hpos]
  exact partFrame_whole (hdrCls (frameHdr f)) hparts hmine hfits hdst

theorem frameIsAcceptedInOrder : FrameIsAcceptedInOrder := by
  refine ⟨?_, wrongCrcIsCounted⟩
  intro s d f r msg hnext hpos hmine hfits hdst hparts hheld hrun hturn
  let q := acceptedFrom s d f
  obtain ⟨qdoors, hframe⟩ := acceptedFrom_frame s d f
  have hmyId : q.myId = r.myId := myId_fecCount (r.took (.doorRx d) 1) d
  have hmsgTo : q.msgTo msg = r.msgTo msg := msgTo_fecCount (r.took (.doorRx d) 1) d msg
  have hdoor : q.door d = Door.accepted s.c.now (frameHdr f) s.c.doors[d] := door_acceptedFrom s d f
  have hnone : (q.door d).parts = [] := (congrArg Door.parts hdoor).trans hparts
  have hpassed := passOn_whole (q := q) hpos hnone (hmine.trans hmyId.symm) hfits (hdst.trans hmyId.symm)
  obtain ⟨doors, peers, hdelivered, hsame⟩ := deliver_inOrder q d (f := msg) hheld hturn
  have hdone := ((frameIn_next hnext).trans hpassed).trans hdelivered
  obtain ⟨xoff, hsameDoor⟩ := hsame d
  have hnow : doors[d] = { Door.accepted s.c.now (frameHdr f) s.c.doors[d] with reorderXoff := xoff } :=
    hsameDoor.trans (congrArg (fun x : Door => { x with reorderXoff := xoff }) hdoor)
  refine ⟨_, congrArg (fun r => Host.Outcome.next (Run.finish s r)) hdone, fun m hto hopen => ?_, fun hto => ?_,
    (congrArg Door.expSeq hnow :), (congrArg Door.lastAcc hnow :), (congrArg Door.parts hnow).trans hparts, ?_, ?_, ?_,
    keepsCells_of_log s _ (log_acceptedFrom s d f)⟩
  · rw [handOver_room q d (hmsgTo.trans hto) hrun hopen]
    simp [waits, movedOn, q, hframe]
  · rw [handOver_none q d (hmsgTo.trans hto)]
    simp [movedOn, Run.inboxAdd, q, hframe, r, Run.ftNs, Ctl.ftNs]
  · simp [movedOn, q, hframe]
  · simp [movedOn, q, hframe]
  · simp [movedOn, q, hframe]

/-! ## A gap in end-to-end order (R310) -/

/-- A gap that has lasted too long is skipped, and reported, before the held message goes on. -/
theorem seqGap_skips {h : Held} (hheld : r.c.fab.held = [h])
    (hlate : h.since + usec (r.fld 0x190114 9 0) ≤ r.now) : ∃ e : Event, e.code = Code.seqGap ∧ e.src = 50 ∧
      r.seqGap h.src h.cls = ((withEvent ((r.modPeer h.src (Peer.expecting h.cls h.msg.eseq)).count32 0x190124 1) e).heldGo
        h.src h.cls 256).reorderRoom := by
  have hmine : (r.c.fab.held.filter fun x => x.src = h.src && x.cls = h.cls) = [h] := by
    rw [hheld]
    simp
  have hskip : ∀ n : BitVec 16, n + BitVec.ofNat 16 (h.msg.eseq - n).toNat = h.msg.eseq := fun n => by
    rw [BitVec.ofNat_toNat, BitVec.setWidth_eq, BitVec.add_comm, BitVec.sub_add_cancel]
  unfold Run.seqGap
  dsimp only
  rw [hmine, if_pos (by simp [hlate])]
  simp only [List.map_cons, List.map_nil, List.min?_singleton, hskip]
  refine ⟨_, ?_, ?_, congrArg (fun q : Run => (q.heldGo h.src h.cls 256).reorderRoom) (sysEvent_open _ (by decide))⟩
  · rfl
  · rfl

theorem modFab_c (r : Run) (f : Fabric → Fabric) : (r.modFab f).c = { r.c with fab := f r.c.fab } := rfl

theorem modPeer_c (r : Run) (e : BitVec 6) (f : Peer → Peer) : (r.modPeer e f).c =
    { r.c with fab := { r.c.fab with peers := r.c.fab.peers.set e.toNat (f r.c.fab.peers[e.toFin]) e.isLt } } := rfl

/-- The gap before held message `h` has been skipped, and `e` reported. -/
def gapSkipped (r : Run) (h : Held) (e : Event) : Run :=
  withEvent ((r.modPeer h.src (Peer.expecting h.cls h.msg.eseq)).count32 0x190124 1) e

/-- And message `h` has set out for Room `m`, its number taken. -/
def gapClosed (r : Run) (h : Held) (e : Event) (m : Fin 64) : Run :=
  (((gapSkipped r h e).modFab fun x => { x with held := [] }).post (152 + h.door) 0x5A (.room m h.msg h.door)).modPeer h.src
    (Peer.expecting h.cls (h.msg.eseq + 1))

theorem gapClosed_frame (r : Run) (h : Held) (e : Event) (m : Fin 64) : ∃ peers : Vector Peer 64, (gapClosed r h e m).c =
    { r.c with wait := r.c.wait ++ [⟨152 + h.door, 0x5A, .room m h.msg h.door, none⟩],
               fab := { r.c.fab with peers := peers, held := [] },
               fbx := { r.c.fbx with reported := r.c.fbx.reported ++ [e] } } ∧
      (peers[h.src.toFin]).rxEseq[fin3 h.cls] = h.msg.eseq + 1 := by
  refine ⟨(gapClosed r h e m).c.fab.peers, ?_, ?_⟩
  · simp only [gapClosed, gapSkipped, modPeer_c, post_c, modFab_c, withEvent_c, count32_c]
  · have hpeer := peer_modPeer_self
      (((gapSkipped r h e).modFab fun x => { x with held := [] }).post (152 + h.door) 0x5A (.room m h.msg h.door)) h.src
      (Peer.expecting h.cls (h.msg.eseq + 1))
    exact (congrArg (fun p : Peer => p.rxEseq[fin3 h.cls]) hpeer).trans (rxEseq_expecting h.cls _ _)

theorem heldGo_gapSkipped {h : Held} {m : Fin 64} (e : Event) (hheld : r.c.fab.held = [h]) (hrun : r.c.tt.run = true)
    (hto : r.msgTo h.msg = some m) (hopen : r.fenced (unitRoom m) = false) :
    (gapSkipped r h e).heldGo h.src h.cls 256 = gapClosed r h e m := by
  have hpeer : (gapSkipped r h e).peer h.src = Peer.expecting h.cls h.msg.eseq (r.peer h.src) := peer_modPeer_self r h.src _
  have hnext : ((gapSkipped r h e).peer h.src).rxEseq[fin3 h.cls] = h.msg.eseq := by
    rw [hpeer]
    exact rxEseq_expecting h.cls h.msg.eseq (r.peer h.src)
  have hroom : ((gapSkipped r h e).modFab fun x => { x with held := [] }).msgTo h.msg = some m :=
    (msgTo_setReg (r.modPeer h.src (Peer.expecting h.cls h.msg.eseq)) _ (by unfold fabricAddr; decide) h.msg).trans hto
  rw [heldGo_single (gapSkipped r h e) 255 hheld rfl rfl hnext, handOver_room _ h.door hroom hrun fun _ => hopen]
  rfl

theorem sequenceGapIsSkipped : SequenceGapIsSkipped := by
  intro s src cls h m r hheld hsrc hcls hnumbered hlate hrun hto hopen
  obtain ⟨e, hcode, hevent, hskipped⟩ := seqGap_skips (r := r) hheld hlate
  obtain ⟨doors, hroom, -⟩ := reorderRoom_none (gapClosed r h e m) rfl
  have hgo : (gapSkipped r h e).heldGo h.src h.cls 256 = gapClosed r h e m := heldGo_gapSkipped e hheld hrun hto hopen
  have hdone : r.seqGap (BitVec.ofFin src) cls =
      { gapClosed r h e m with c := { (gapClosed r h e m).c with doors := doors } } := by
    rw [← hsrc, ← hcls, hskipped]
    exact (congrArg Run.reorderRoom hgo).trans hroom
  obtain ⟨peers, hctl, hseq⟩ := gapClosed_frame r h e m
  have hcells : ∀ o ∈ (gapClosed r h e m).log, cellFree o = true := fun o ho => List.mem_singleton.mp ho ▸ rfl
  refine ⟨_, congrArg (fun r => Host.Outcome.next (Run.finish s r)) hdone, ?_, ?_, ?_, ?_, ⟨e, ?_, hcode, hevent⟩, ?_, ?_,
    keepsCells_of_log s _ hcells⟩
  · simp [hctl]
  · simp [waits, hctl, r]
  · simp [hctl, r]
  · rw [← hcls]
    simpa [Run.peer, hctl] using hseq
  · simp [hctl, r]
  · simp [hctl, r]
  · simp [hctl, r]

/-- Settles O23: the next frame is accepted and what it completes is delivered, one with a wrong CRC is counted, ABORT closes
the message of its class, and a gap that has lasted too long is skipped. -/
theorem framesAreAccepted : Obligations.FramesAreAccepted :=
  ⟨frameIsAcceptedInOrder, abortEndsItsMessage, sequenceGapIsSkipped⟩

end Sys2Proof.Laws
end
